-- ==== Sys2Proof/Word.lean ====
section
/-! DEFINITION. The word types of the DL48 model and their plainest arithmetic. -/

namespace Sys2Proof

/-- One byte: a byte of memory, of the flash, of a packet or of a two-wire transaction. -/
abbrev Byte := BitVec 8

/-- One 32-bit register word (R6). -/
abbrev Word := BitVec 32

/-- A 16-bit TWM word index. -/
abbrev Index := BitVec 16

/-- A 72-bit accumulator of a pump (R271). -/
abbrev Acc := BitVec 72

/-- A 16-bit Pyrog halfword (R276). -/
abbrev Half := BitVec 16

/-- The 48 ports P00 to P47. -/
abbrev Port := Fin 48

/-- The 16 hands (R133). -/
abbrev Hand := Fin 16

/-- The 24 pumps (R243). -/
abbrev Pump := Fin 24

end Sys2Proof
end

