-- ==== Sys2Proof/Syntax.lean ====
section
/-! DEFINITION. The commands of the DL48: one constructor of Instr for each row of spec/opcode_table.json, in the table's
order, and the operand types they carry. An operand is what the outside shows the block at that step (a pin's level, a
measured value, a packet, a frame, a bus transaction, a passed duration) or the place at which the step happens (a port, a
hand, a pump, a die, a link side, a two-wire target). -/

namespace Sys2Proof

/-- The two wellhead dies: W0 serves P00 to P23, W1 serves P24 to P47. -/
inductive WDie where
  | w0 | w1
  deriving DecidableEq, Repr

/-- The three dies, in the order of GRD_DIE0 to GRD_DIE2. -/
inductive Die where
  | core | w0 | w1
  deriving DecidableEq, Repr

/-- The three supplies whose fall below threshold is a device reset (R32). -/
inductive MainSupply where
  | vddC | vddIo | vddA
  deriving DecidableEq, Repr

/-- The wake sources of R59. -/
inductive WakeSource where
  | attach (p : Port) | twm | twa | twb | twc | supervisor | link (east : Bool) | aonTimer | brownOut
  deriving DecidableEq, Repr

/-- The two commons link ports: LKW and LKE. -/
inductive LinkSide where
  | west | east
  deriving DecidableEq, Repr

/-- The four two-wire targets (R379). -/
inductive Target where
  | twm | twa | twb | twc
  deriving DecidableEq, Repr

/-- The three metering targets. -/
inductive AuxTarget where
  | twa | twb | twc
  deriving DecidableEq, Repr

/-- Flash access mode chosen from the SFDP table (R63). -/
inductive FlashMode where
  | m144 | m114 | m111
  deriving DecidableEq, Repr

/-- What a valid SFDP table tells (R63, R321, R322, R327). -/
structure Sfdp where
  /-- the table advertises 1-4-4 fast read -/
  fast144    : Bool
  /-- the table advertises 1-1-4 fast read -/
  fast114    : Bool
  /-- the quad-enable method, as its three bits name it -/
  quad       : BitVec 3
  /-- flash density in bytes -/
  density    : Nat
  /-- typical page program time, in µs, times its maximum multiplier -/
  ppMaxUs    : Nat
  /-- the table advertises erase suspend -/
  eraseSuspend : Bool
  deriving DecidableEq, Repr

/-- Packet kinds by ordered set (R106). -/
inductive Sop where
  | sop | sop1 | sop2 | hardReset | cableReset
  deriving DecidableEq, Repr

/-- A power data object as offered on the wire (R142); currents in mA, voltages in mV, PDP in W. -/
inductive Pdo where
  | fixed (mv ma : Nat)
  | pps (vlo vhi ma : Nat)
  | avs (vlo vhi pdp : Nat)
  | zero
  deriving DecidableEq, Repr

/-- A Source_Capabilities message: the header bits of R143 and the objects. -/
structure SrcCaps where
  unconstrained : Bool
  usbComm       : Bool
  dualRoleData  : Bool
  unchunked     : Bool
  dualRolePower : Bool
  eprCapable    : Bool
  pdos          : List Pdo
  deriving DecidableEq, Repr

/-- A Request or EPR_Request object (R144, R145). -/
structure Rdo where
  pos      : Nat
  opMa     : Nat
  maxMa    : Nat
  mv       : Nat
  mismatch : Bool
  deriving DecidableEq, Repr

/-- Actions of EPR_Mode (R150, R151, R155). -/
inductive EprAction where
  | enter | enterAck | enterSucceeded | enterFailed (reason : Nat) | exit
  deriving DecidableEq, Repr

/-- Structured VDM commands (R175 to R187). -/
inductive VdmCmd where
  | discIdentity | discSvids | discModes | enterMode | exitMode | attention | dpStatus | dpConfigure | other (n : Nat)
  deriving DecidableEq, Repr

/-- Whether a structured VDM is a command or one of the three answers (R178). -/
inductive VdmType where
  | req | ack | nak | busy
  deriving DecidableEq, Repr

/-- What an identity answer shows of its sender (R181 to R183). -/
inductive Product where
  | passiveCable | activeCable | other
  deriving DecidableEq, Repr

/-- The identity in a Discover Identity ACK: VID, PID, product type and the Cable VDO fields that R181 and R182 name. -/
structure Identity where
  vid     : BitVec 16
  pid     : BitVec 16
  product : Product
  /-- the VBUS Current Handling field shows 5 A -/
  amps5   : Bool
  /-- Maximum VBUS Voltage field: 0 20 V, 1 30 V, 2 40 V, 3 50 V -/
  vmax    : BitVec 2
  epr     : Bool
  /-- the second plug holds an SOP″ controller -/
  sop2    : Bool
  deriving DecidableEq, Repr

/-- One mode of a Discover Modes ACK. `pinC` says that its UFP_D pin assignments include C. -/
structure ModeVdo where
  vdo  : Word
  pinC : Bool
  deriving DecidableEq, Repr

/-- What follows a structured VDM header. -/
inductive VdmBody where
  | none
  | identity (i : Identity)
  | svids (l : List (BitVec 16))
  | modes (l : List ModeVdo)
  | vdo (w : Word)
  deriving DecidableEq, Repr

/-- A structured VDM. `ver` is 20 for version 2.0 and 21 for 2.1 (R175). -/
structure Vdm where
  svid   : BitVec 16
  ver    : Nat
  cmd    : VdmCmd
  typ    : VdmType
  objPos : Nat
  body   : VdmBody
  deriving DecidableEq, Repr

/-- Contents of a Status message (R173, R374). -/
structure StatusMsg where
  /-- hottest die temperature in °C -/
  internalTemp : Int
  extPower     : Bool
  extAc        : Bool
  intBattery   : Bool
  intNonBattery : Bool
  ocp          : Bool
  otp          : Bool
  cfMode       : Bool
  ptf          : Nat
  limCable     : Bool
  limInput     : Bool
  limTemp      : Bool
  deriving DecidableEq, Repr

/-- Contents of PPS_Status (R149): voltage in 20 mV units, current in 50 mA units. -/
structure PpsStatusMsg where
  v   : Nat
  i   : Nat
  ptf : Nat
  omf : Bool
  deriving DecidableEq, Repr

/-- Alert contents (R174, R373). -/
inductive AlertKind where
  | sourceInputChange | operatingCondition
  deriving DecidableEq, Repr

/-- The messages of USB PD that the chapters name. -/
inductive PdMsg where
  | goodCrc (id : BitVec 3)
  | accept | reject | wait | psRdy | notSupported | softReset
  | getSourceCap | getSinkCap | getStatus | getPpsStatus | getRevision
  | prSwap | drSwap | frSwap | dataReset | vconnSwap
  | sourceCap (c : SrcCaps) | eprSourceCap (c : SrcCaps)
  | sinkCap (mv ma : Nat)
  | request (r : Rdo) | eprRequest (r : Rdo)
  | eprMode (a : EprAction) | eprKeepAlive | eprKeepAliveAck
  | alert (k : AlertKind) | status (m : StatusMsg) | ppsStatus (m : PpsStatusMsg) | revision
  | vdm (v : Vdm) | unstructuredVdm
  | other (n : Nat)
  deriving DecidableEq, Repr

/-- A packet as the receiver has it at its EOP (R106 to R108): what was decoded of the ordered set, the symbols and EOP,
the header and object bytes in wire order with the CRC received after them, and the message those bytes spell. -/
structure Packet where
  sop       : Sop
  /-- correct K-codes of the ordered set, 0 to 4 -/
  goodK     : Nat
  symbolsOk : Bool
  eop       : Bool
  bytes     : List Byte
  crc       : Word
  msgId     : BitVec 3
  msg       : PdMsg
  deriving DecidableEq, Repr

/-- The result of one dowser frame (R113, R114): the mean impedance in kΩ of the pin measured, or the DC potential in mV.
`found` says that a CC comparator finds a termination on the pin measured as a CC frame ends. -/
inductive DowserReading where
  | impedance (kohm : Nat) (found : Bool)
  | dc (mv : Int)
  deriving DecidableEq, Repr

/-- Which cut has stood its return time (R125). -/
inductive CutId where
  | connector (p : Port) | die (d : Die)
  deriving DecidableEq, Repr

/-- The yard timers of a port: R137, R177 and the notice timers of R138, R174 and R180. -/
inductive TimerId where
  | senderResponse | vconnStable | typeCSendSourceCap | srcTransition | transitionLimit | waitWindow | rejectResend
  | sinkWaitCap | psTransition | sinkRequest | psHardReset | srcRecover | sinkHardReset | ppsTimeout | sourceEprKeepAlive
  | sinkEprKeepAlive | vconnSourceOn | shedLimit | reofferSpacing | alertWait | discoverIdentity | cableLimit
  | partnerDiscovery | vdmBusy | vdmSenderResponse | vdmWaitModeEntry | irqHpdLow
  | receiverResponse | firstSourceCap | safe0V | srcTurnOn | enterEpr | cableResponse
  deriving DecidableEq, Repr

/-- What stands beside a pump in the cycle in which it is free (R247, R248): how many cycles ahead its own next home trigger lies,
and the other pumps that are free in that cycle. -/
structure FreeCycle where
  ahead  : Nat
  others : List Pump
  deriving DecidableEq, Repr

/-- What the loop path of a port's modulators converts at a period start (R303 to R305), with coefficients that stand against the die
reference: voltages in µV, and the voltage of the shunt in nV, positive from ISP to ISN. -/
structure LoopConv where
  vbs : Int
  vbc : Int
  sh  : Int
  vin : Int
  deriving DecidableEq, Repr

/-- A port's loop readings (R255, R304, R305): voltages in µV, current in µA, positive from the stage to the connector. -/
structure LoopMeas where
  vbs : Int
  vbc : Int
  i   : Int
  vin : Int
  deriving DecidableEq, Repr

/-- One port's metering sample as its modulators convert it, with coefficients that stand against the die reference (R303 to R305):
voltages in 10 µV units, the voltage of the shunt in nV, and the mean of the products of the two, VBC and shunt, at 62.5 kHz. -/
structure MetSample where
  vbc  : Int
  vbs  : Int
  sh   : Int
  prod : Int
  deriving DecidableEq, Repr

/-- The six relief groups of eight ports (R308): 0 to 2 on W0, 3 to 5 on W1. -/
abbrev Group := Fin 6

/-- The three modulators of a port (R303), in calibration order. -/
inductive Modulator where
  | vbs | vbc | i
  deriving DecidableEq, Repr

/-- A slot of the tally region as the loader finds it: its slot number from the region's start and its 2,048 bytes. Slots that
are not listed are blank. -/
structure TallySlot where
  slot  : Nat
  bytes : List Byte
  deriving DecidableEq, Repr

/-- Header fields common to received link frames (R338): the sender's sequence number and its protocol version. -/
structure LinkHdr where
  seq : BitVec 4
  ver : BitVec 2
  deriving DecidableEq, Repr

/-- HELLO (R339). `sideEast` is SIDE, `sleepOk` is FLAGS bit 0. -/
structure Hello where
  protoMin : Nat
  protoMax : Nat
  sideEast : Bool
  sleepOk  : Bool
  uid      : BitVec 48
  tag      : Word
  deriving DecidableEq, Repr

/-- The AUDIT token (R357). -/
structure AuditTok where
  auditNo     : BitVec 16
  nodes       : BitVec 16
  sysTotal    : Word
  homeSum     : Word
  lentSum     : Word
  borrowedSum : Word
  inTransit   : Word
  lastXidRx   : BitVec 16
  period      : BitVec 16
  sysDiffers  : Bool
  returnLeg   : Bool
  deriving DecidableEq, Repr

/-- The link frames (R339). -/
inductive LinkFrame where
  | hello (h : Hello)
  | ack (seq : BitVec 4)
  | enum (nextId : BitVec 16) (waveUid : BitVec 48) (chain : Bool)
  | enumDone (nodes : BitVec 16) (closing : Bool)
  | audit (t : AuditTok)
  | auditRes (auditNo : BitVec 16) (result : BitVec 3) (nodes : BitVec 16)
  | sleep (wakeMs : Nat)
  | req (reqId : BitVec 16) (amount : Nat) (hops : Nat)
  | grant (reqId xid loanId : BitVec 16) (amount : Nat) (leaseMs : Nat)
  | refuse (reqId : BitVec 16)
  | renew (loanId : BitVec 16) (amount : Nat) (leaseMs : Nat)
  | renewAck (loanId : BitVec 16) (kept : Nat)
  | lapse (xid loanId : BitVec 16) (amount : Nat)
  deriving DecidableEq, Repr

/-- Why a frame is dropped (R339, R340). -/
inductive FrameDrop where
  | crc | badType | badLen | wrongVer
  deriving DecidableEq, Repr

/-- A transaction of TWM (R381), as it waits while SCL is stretched (R388). -/
inductive TwmOp where
  | write (idx : Index) (bytes : List Byte)
  | setIndex (idx : Index)
  | streamed (idx : Index) (n : Nat)
  | counted (idx : Index) (after : List Byte) (extra : Nat)
  | current (n : Nat)
  deriving DecidableEq, Repr

/-- The blocks with a counter-clear bit: the global blocks, the two D2D links and the port sub-blocks (R395, "Where each block
reports"). -/
inductive ClearBlock where
  | clk | d2d (d : WDie) | alm | sup | cis | lnk | twi | mtr | pmp | hnd | grd | pwm | mux
  | tc (p : Port) | pd (p : Port) | vdm (p : Port) | slc (p : Port) | loop (p : Port) | met (p : Port)
  | pgrd (p : Port) | cnt (p : Port)
  deriving DecidableEq, Repr

/-- The commands: one constructor for each row of spec/opcode_table.json. -/
inductive Instr where
  -- supplies, resets and start-up
  | standbyPor
  | supplyBelowThreshold (which : MainSupply)
  | rstNLow
  | resetRelease (straps : BitVec 3) (tmode : Bool)
  | vauxLow
  | vauxRecover
  | vconnInLow (d : WDie)
  | startupOscillatorRunning
  | pllsLocked
  | d2dTrainingAttemptEnd (d : WDie) (ok : Bool) (ucrev : Byte)
  | almanacReadDone (sfdp : Option Sfdp) (imgA imgB : List Byte)
  | almanacApplyDone
  | counterRestoreDone (slots : List TallySlot)
  | initialCalibrationDone (pref0 pref1 : Nat)
  | portsEnabled (ms : Nat)
  -- clocks and links
  | xrefCrystalQualified
  | xrefCrystalFail
  | pllLockLost
  | x32CrystalFail
  | x32CrystalRecover
  | flitCrcFail (d : WDie)
  | d2dLinkLost (d : WDie)
  | d2dfCisternRelease (d : WDie)
  -- device and port resets, administrative enable, rest
  | devRst (w : Word)
  | almanacReload (w : Word)
  | stopPhaseEnd
  | portReset (p : Port)
  | portResetComplete (p : Port)
  | admDisable (p : Port)
  | admEnable (p : Port)
  | restEntry
  | restWake (src : WakeSource)
  | restExitPllRelock
  | restExitLinksRetrained
  | restExitComplete
  -- the yard
  | yardEventAccept
  | yardTimerExpiry (p : Port) (t : TimerId)
  -- the connection machine
  | ccTerminationSeen (p : Port) (cc1 cc2 : Nat)
  | tccdebounceExpiry (p : Port) (vbc : Nat)
  | backvRelease (p : Port) (vbc : Nat)
  | tpddebounceExpiry (p : Port)
  | tsrcdisconnectExpiry (p : Port)
  | sinkVbusLost (p : Port)
  | drpToggle (p : Port)
  | errRecovEnd (p : Port)
  | selftestResult (p : Port) (pass : Bool)
  | vconnOvercurrent (p : Port)
  -- the protocol layer
  | packetReceive (p : Port) (k : Packet)
  | capture (p : Port) (amp : Nat)
  | hardResetOrderedSet (p : Port)
  | transmitStart (p : Port)
  | treceiveExpiry (p : Port)
  | txGoodcrc (h : Hand) (p : Port)
  | txfail (h : Hand) (p : Port)
  -- the guard
  | dowserFrame (p : Port) (r : DowserReading)
  | ntcMeasure (p : Port) (ohm : Nat)
  | dieTempReport (d : Die) (sensor : Fin 8) (temp : Int)
  | thermalEvaluation (p : Port)
  | cutClear (c : CutId)
  | guardNotice (h : Hand) (p : Port)
  -- policy: received messages
  | vsafe5vInBand (p : Port) (vbc : Nat)
  | request (h : Hand) (p : Port)
  | eprRequest (h : Hand) (p : Port)
  | softReset (h : Hand) (p : Port)
  | hardResetReceived (h : Hand) (p : Port)
  | accept (h : Hand) (p : Port)
  | reject (h : Hand) (p : Port)
  | wait (h : Hand) (p : Port)
  | psRdy (h : Hand) (p : Port)
  | sourceCapabilities (h : Hand) (p : Port)
  | eprSourceCapabilities (h : Hand) (p : Port)
  | getSourceCap (h : Hand) (p : Port)
  | getSinkCap (h : Hand) (p : Port)
  | getPpsStatus (h : Hand) (p : Port)
  | getStatus (h : Hand) (p : Port)
  | getRevision (h : Hand) (p : Port)
  | eprModeEnter (h : Hand) (p : Port)
  | eprModeExit (h : Hand) (p : Port)
  | eprModeResponse (h : Hand) (p : Port)
  | eprKeepalive (h : Hand) (p : Port)
  | vconnSwap (h : Hand) (p : Port)
  | prSwap (h : Hand) (p : Port)
  | drSwap (h : Hand) (p : Port)
  | frSwap (h : Hand) (p : Port)
  | dataReset (h : Hand) (p : Port)
  | unsupportedMessage (h : Hand) (p : Port)
  -- policy: timers and notices
  | senderResponseTimerExpiry (h : Hand) (p : Port)
  | ttypecsendsourcecapExpiry (h : Hand) (p : Port)
  | tsrctransitionExpiry (h : Hand) (p : Port)
  | transitionLimitExpiry (h : Hand) (p : Port)
  | settleReport (p : Port) (mv : Nat)
  | waitWindowExpiry (h : Hand) (p : Port)
  | rejectResendCaps (h : Hand) (p : Port)
  | sinkWaitCapTimerExpiry (h : Hand) (p : Port)
  | psTransitionTimerExpiry (h : Hand) (p : Port)
  | tsinkrequestExpiry (h : Hand) (p : Port)
  | tpshardresetExpiry (h : Hand) (p : Port)
  | tsrcrecoverExpiry (h : Hand) (p : Port)
  | sinkHardResetRecoveryExpiry (h : Hand) (p : Port)
  | sinkHardResetVbusReturn (p : Port) (vbc : Nat)
  | tppstimeoutExpiry (h : Hand) (p : Port)
  | tsourceeprkeepaliveExpiry (h : Hand) (p : Port)
  | tsinkeprkeepaliveExpiry (h : Hand) (p : Port)
  | tvconnsourceonExpiry (h : Hand) (p : Port)
  | shedNotice (h : Hand) (p : Port)
  | shedLimitExpiry (h : Hand) (p : Port)
  | freeRise (p : Port)
  | reofferSpacingExpiry (h : Hand) (p : Port)
  | sluiceStateChange (h : Hand) (p : Port)
  | crierAlert (h : Hand)
  | alertWaitExpiry (h : Hand) (p : Port)
  -- VDMs and alternate modes
  | tvconnstableExpiry (h : Hand) (p : Port)
  | cableDiscoverIdentityResponse (h : Hand) (p : Port)
  | tdiscoveridentityExpiry (h : Hand) (p : Port)
  | cableDiscoveryTimeLimit (h : Hand) (p : Port)
  | sop2DiscoverIdentityResponse (h : Hand) (p : Port)
  | partnerDiscoveryStart (h : Hand) (p : Port)
  | discoverIdentityAck (h : Hand) (p : Port)
  | discoverSvidsAck (h : Hand) (p : Port)
  | discoverModesAck (h : Hand) (p : Port)
  | enterModeAck (h : Hand) (p : Port)
  | dpStatusUpdateAck (h : Hand) (p : Port)
  | dpConfigureAck (h : Hand) (p : Port)
  | vdmNak (h : Hand) (p : Port)
  | vdmBusy (h : Hand) (p : Port)
  | tvdmbusyExpiry (h : Hand) (p : Port)
  | tvdmsenderresponseExpiry (h : Hand) (p : Port)
  | tvdmwaitmodeentryExpiry (h : Hand) (p : Port)
  | attention (h : Hand) (p : Port)
  | irqHpdLowTimeEnd (h : Hand) (p : Port)
  | structuredVdmCommand (h : Hand) (p : Port)
  | unstructuredVdm (h : Hand) (p : Port)
  | muxFrameStart
  | muxFrameEnd
  -- the sluice
  | sluiceOn (p : Port)
  | sluiceOff (p : Port)
  | ilimActChange (p : Port)
  | prechargeEnd (p : Port)
  | slopeEnd (p : Port)
  | rampOn (p : Port) (dur : Nat)
  | gateRiseCheckFail (p : Port)
  | limitEntry (p : Port) (sinceUs : Nat)
  | limitExit (p : Port) (limUs : Nat)
  | faultTimerTrip (p : Port) (limUs : Nat)
  | fastTrip (p : Port)
  | reverseCurrentTrip (p : Port)
  | rampTimeout (p : Port)
  | tripDischarged (p : Port) (dur : Nat) (stressUs : Nat)
  | retryOffTimeEnd (p : Port)
  | retryCountReset (p : Port)
  | dischargeDone (p : Port) (dur : Nat)
  | dscf (p : Port)
  | fets (p : Port)
  -- stages, PWM and sync
  | stageStart (p : Port) (vbs vin : Nat)
  | stageStop (p : Port)
  | targetChange (p : Port)
  | stopTimeout (p : Port)
  | periodStart (p : Port) (m : LoopConv)
  | refTrim (p : Port)
  | syncEdge (e : Int)
  | syncWindowMiss
  -- the pumps
  | sampleTrigger (p : Port)
  | stealThreshold (p : Port)
  | sampleDispatch (n : Pump) (wait : Nat) (c : FreeCycle)
  | presetDispatch (n : Pump) (wait : Nat) (c : FreeCycle)
  | commitDeadline (p : Port)
  | troughGrant (reqs : List (Fin 26))
  | stageUnitCommit (n : Pump)
  | runawayTrap (n : Pump)
  | loopManual (p : Port)
  | loopAuto (p : Port)
  | loopMdutyWrite (p : Port) (w : Word)
  | coefWindowWrite (p : Port) (i : Fin 256) (w : Word)
  -- Pyrog: pump n's core runs its next instruction, which is of this kind
  | mov (n : Pump) | mova (n : Pump) | lea (n : Pump)
  | add (n : Pump) | sub (n : Pump) | neg (n : Pump) | abs (n : Pump)
  | mul (n : Pump) | mac (n : Pump) | msu (n : Pump)
  | shl (n : Pump) | shr (n : Pump) | asr (n : Pump) | rnd (n : Pump) | sat (n : Pump)
  | min (n : Pump) | max (n : Pump) | clmp (n : Pump)
  | and (n : Pump) | or (n : Pump) | xor (n : Pump) | not (n : Pump)
  | ceq (n : Pump) | cne (n : Pump) | clt (n : Pump) | cle (n : Pump) | cltu (n : Pump) | cleu (n : Pump)
  | bz (n : Pump) | bnz (n : Pump) | bra (n : Pump) | jmp (n : Pump) | call (n : Pump) | ret (n : Pump)
  | stg (n : Pump) | stgb (n : Pump) | endSample (n : Pump) | trap (n : Pump) | nop (n : Pump)
  | illegalOpcode (n : Pump)
  -- measurement, calibration and tallies
  | meteringSample (m : List MetSample)
  | calSlotStart (g : Group)
  | reliefSwitchIn (g : Group)
  | calResult (g : Group) (offset gain : Int)
  | reliefSwitchBack (g : Group)
  | reliefCalibration (g : Group) (pass : Bool)
  | calstale (p : Port) (m : Modulator)
  | prefMeasure (d : WDie) (uv : Nat)
  | billingClear (w : Word)
  | metStatRead (t : Target) (p : Port)
  | cisStatRead (t : Target)
  | tallyInterval
  | tallyRecordStart
  | holdupRecheck
  | pageProgramDone
  | tallyReadback (ok : Bool)
  | blockEraseDone
  | holdSnsSample (mv : Nat)
  -- the cistern and the commons link
  | profileChange
  | hello (d : LinkSide) (k : LinkHdr) (f : Hello)
  | ack (d : LinkSide) (seq : BitVec 4)
  | enum (d : LinkSide) (k : LinkHdr) (nextId : BitVec 16) (waveUid : BitVec 48) (chain : Bool)
  | enumDone (d : LinkSide) (k : LinkHdr) (nodes : BitVec 16) (closing : Bool)
  | audit (d : LinkSide) (k : LinkHdr) (t : AuditTok)
  | auditRes (d : LinkSide) (k : LinkHdr) (auditNo : BitVec 16) (result : BitVec 3) (nodes : BitVec 16)
  | sleep (d : LinkSide) (k : LinkHdr) (wakeMs : Nat)
  | req (d : LinkSide) (k : LinkHdr) (reqId : BitVec 16) (amount hops : Nat)
  | grant (d : LinkSide) (k : LinkHdr) (reqId xid loanId : BitVec 16) (amount leaseMs : Nat)
  | refuse (d : LinkSide) (k : LinkHdr) (reqId : BitVec 16)
  | renew (d : LinkSide) (k : LinkHdr) (loanId : BitVec 16) (amount leaseMs : Nat)
  | renewAck (d : LinkSide) (k : LinkHdr) (loanId : BitVec 16) (kept : Nat)
  | lapse (d : LinkSide) (k : LinkHdr) (xid loanId : BitVec 16) (amount : Nat)
  | linkAckTimeout (d : LinkSide)
  | helloTimer (d : LinkSide)
  | linkPartnerLost (d : LinkSide)
  | linkReset (d : LinkSide)
  | loanRequestTimeout (d : LinkSide)
  | renewDue (i : Fin 32)
  | renewMissing (i : Fin 32)
  | shedLead (i : Fin 32)
  | borrowerLeaseEnd (i : Fin 32)
  | lenderLeaseEnd (i : Fin 32)
  | candidateWaveStart
  | auditStart
  | auditTokenLost
  | auditSlotGuardEnd (d : LinkSide)
  -- the input supervisor and the crier; input voltages in 10 mV units
  | wrnSet (inA : Nat)
  | wrnClear (inA : Nat)
  | wrnAlert
  | hoRequest (inA : Nat)
  | hoGateCheck (slow : Bool)
  | hoComplete (us : Nat)
  | qualComplete
  | emergencyReturn (inA : Nat)
  | rtnGateCheck (slow : Bool)
  | rtnComplete (us : Nat)
  | rsvLowSet (inB : Nat)
  | rsvLowClear (inB : Nat)
  | brownOutWarning
  | brownOutClear
  -- the two-wire targets
  | twmWrite (idx : Index) (bytes : List Byte)
  | twmSetIndex (idx : Index)
  | twmStreamedRead (idx : Index) (n : Nat)
  | twmCountedRead (idx : Index) (after : List Byte) (extra : Nat)
  | twmCurrentRead (n : Nat)
  | meteringSetOffset (t : AuxTarget) (addr : BitVec 7) (off : Byte)
  | meteringStreamedRead (t : AuxTarget) (addr : BitVec 7) (off : Byte) (n : Nat)
  | meteringCountedRead (t : AuxTarget) (addr : BitVec 7) (off : Byte) (after : List Byte) (extra : Nat)
  | meteringCurrentRead (t : AuxTarget) (addr : BitVec 7) (n : Nat)
  | meteringWrite (t : AuxTarget) (addr : BitVec 7) (off : Byte) (bytes : List Byte)
  | sclTimeout (t : Target)
  | unlockFirstKey
  | unlockSecondKey
  | unlockClose (key : BitVec 16)
  | unlockKeyWindowExpiry
  | unlockTimeout
  | counterClear (b : ClearBlock)
  | hwmclr
  | eventAck (idx : Index) (w : Word)
  | registerWrite (idx : Index) (w : Word)
  -- rows added at the table's end
  | vconnInRecover (d : WDie)
  | sinkVbusDetect (p : Port) (vbc : Nat)
  | preambleDetected (p : Port) (amp kbps : Nat)
  | transmitEnd (p : Port)
  | notSupportedReceived (h : Hand) (p : Port)
  | frameStart
  | hoRequestClear (inA : Nat)
  | qualStart (inA : Nat)
  | qualBreak (inA : Nat)
  | linkFrameDropped (d : LinkSide) (why : FrameDrop)
  | wakeBurstEnd (d : LinkSide)
  deriving DecidableEq, Repr

end Sys2Proof
end

