-- ==== Sys2Proof/Decode.lean ====
section
/-! DEFINITION. The command that a word spells by the opcode table's bits. No row of the table gives bits: a command of this block
is an event outside it, not a word, so no word spells one. -/

namespace Sys2Proof

/-- The command of a word of nbits bits. -/
def decodeTableWord (_nbits _w : Nat) : Option Instr := none

end Sys2Proof
end

