-- ==== Sys2Proof/Config.lean ====
section
/-! DEFINITION. What the manual leaves open and the free values. An opaque constant has no body: nothing in Lean knows its value,
so a statement about it holds for every value. -/

namespace Sys2Proof

/-- Free values: the k-th value that the machine drew (assumption 3). Used for a timer's time inside its bounds, a step's length,
a grant's wait and the other values that the manual bounds or leaves open. -/
opaque Config.free (k : Nat) : Nat

/-- The compatibility list of wellhead microcode revisions in the core's ROM (R44); the manual does not list it (assumption 4). -/
opaque Config.ucodeOk (rev : Byte) : Bool

/-- The rounding mode with which the ROM program of a form runs its stage records: T, N or C (R265, R274, R294; assumption 5). -/
opaque Config.romMode (long : Bool) : Fin 3

/-- Whether the ROM program of a form rounds up a result of a line of R265 that lies between two units of 2^-28 (assumption 5). -/
opaque Config.romUp (long : Bool) (line : Nat) (exact : Int) : Bool

/-- The bytes of the ROM coefficient set of a form tuned for a switching frequency in kHz (R267, assumption 5). -/
opaque Config.romCoef (long : Bool) (khz : Nat) (i : Nat) : Byte

/-- Local memory above the slot buffer is undefined at dispatch (R246): the byte at an address when sample number k was
dispatched (assumption 6). -/
opaque Config.localByte (k addr : Nat) : Byte

/-- The swing in mV below which no preamble is detected: at most 0.20 V (R105, assumption 78). -/
opaque Config.preambleMv : Fin 201

/-- After VSB has fallen below its power-on threshold: it is absent by this AON time; no row tells it (R32, assumption 92). -/
opaque Config.vsbGone (us : Nat) : Bool

/-- The open-circuit voltage in mV above 2,750 of a pin that presents Rp with nothing connected: at most VDD_A, and so 3.465 V (R90, R403,
assumption 79). -/
opaque Config.openMv (port : Nat) (cc2 : Bool) : Fin 716

/-- The code of an event in a yard record, and its argument (R129): the manual numbers neither (assumption 13). -/
opaque Config.evCode (k : Nat) : BitVec 7
opaque Config.evArg (k : Nat) : BitVec 24

/-- The serial number fused at manufacture (R343, assumption 7). -/
opaque Config.uid : BitVec 48

/-- An input of the supervisor in 10 mV units, up to 62.50 V, as conversion k of INA_SNS (false) or INB_SNS (true) reads it: no command
shows the conversions (R362, assumption 3). -/
opaque Config.vinTen (b : Bool) (k : Nat) : Fin 6251

/-- V_GS of a port's pass FETs as SLC_GATE shows it in a millisecond, within the bounds of the sluice's state: no command shows the pin
(assumption 3). -/
opaque Config.gateMv (port ms : Nat) : Nat

/-- A value between two bounds, chosen by free value k. -/
def Config.between (k lo hi : Nat) : Nat := lo + Config.free k % (hi - lo + 1)

end Sys2Proof
end

