-- ==== Sys2Proof/Machine/State.lean ====
section
/-! DEFINITION. The state of the DL48: every register, queue, buffer, mode and pin the manual gives it, as plain data. Registers
that only show other state (status words, live views) are not stored twice: Machine/Regs.lean computes them. -/

namespace Sys2Proof.Machine

/-- Why a step stops. -/
inductive Fault where
  /-- TMODE is high at the release of reset: a factory test mode "in which no behaviour of this manual applies" (R23). Raised by
  RESET_RELEASE. Safe: the model stops where the manual says nothing. -/
  | factoryTestMode
  deriving DecidableEq, Repr

/-- Why the model refuses a command. -/
inductive Refusal where
  /-- The command named has no meaning in the model yet. Raised by Dispatch alone. Safe. -/
  | notModelled (mnemonic : String)
  deriving DecidableEq, Repr

/-- What a step answers. -/
abbrev Res (σ : Type) := Host.Outcome σ Fault Refusal

/-! ## Configuration loaded from the almanac -/

/-- A PDO template (R74): V, VMAX in 10 mV units; LIMIT in 10 mA units or W. -/
structure Template where
  kind  : Nat
  feat  : Nat
  v     : Nat
  vmax  : Nat
  limit : Nat
  deriving DecidableEq, Repr

/-- A thermal class (R83, R127). -/
structure Thermal where
  tD1    : Nat
  tD2    : Nat
  tCut   : Nat
  pMin   : Nat
  ntcB   : Nat
  ntcNom : Nat
  deriving DecidableEq, Repr

/-- The class and map values of one port (R72, R73, R78, R80): the AL fields of its sub-blocks. -/
structure PortCfg where
  enabled : Bool
  role    : Nat
  rp      : Nat
  vconnSrc : Bool
  drp     : Bool
  dowser  : Bool
  ntc     : Bool
  eprOk   : Bool
  form    : Bool
  fsw     : Nat
  prog    : Nat
  coef    : Nat
  shed    : Nat
  slew    : Nat
  tSettle : Nat
  ilim    : Nat
  ramp    : Nat
  faultT  : Nat
  tripK   : Nat
  retry   : Nat
  tGck    : Nat
  shunt   : Nat
  imax    : Nat
  snkI    : Nat
  snkV    : Nat
  twin    : Bool
  phase   : Nat
  stack   : Nat
  sampleAt : Nat
  presetAt : Nat
  list    : List Nat
  caps    : List Template
  therm   : Thermal
  deriving DecidableEq, Repr

/-- POWER (R75) and the factory values of R363; voltages in 10 mV units. -/
structure PowerCfg where
  vWrn   : Nat
  vWrnHys : Nat
  vHo    : Nat
  vRtn   : Nat
  vbMin  : Nat
  tHo    : Nat
  tClr   : Nat
  tQual  : Nat
  tAlert : Nat
  fitted : Bool
  alert  : Bool
  deriving DecidableEq, Repr

/-- An SVID entry of ALTMODE (R80). -/
structure SvidEntry where
  svid   : BitVec 16
  objPos : Nat
  kind   : Nat
  muxSel : Nat
  deriving DecidableEq, Repr

/-- A timing entry of TWOWIRE (R81). -/
structure Timing where
  hold : Nat
  filt : Nat
  pec  : Bool
  deriving DecidableEq, Repr

/-- The device-wide values of an applied image or of the ROM factory defaults (R71, R76, R77, R80 to R84, R88, R120, R127). -/
structure DevCfg where
  feat      : Nat
  restEn    : Bool
  restIdle  : Nat
  pref      : Bool
  syncTrack : Bool
  syncDrive : Bool
  route     : List Nat
  home      : Nat
  guard     : Nat
  resHome   : Nat
  resGuard  : Nat
  sysTotal  : Nat
  tShed     : Nat
  linkW     : Bool
  linkE     : Bool
  hops      : Nat
  lease     : Nat
  audit     : Nat
  protoMax  : Nat
  sleepOk   : Bool
  xformer   : Bool
  lendKeep  : Nat
  altmode   : Bool
  svids     : List SvidEntry
  auxEn     : Nat
  baseA     : Nat
  baseB     : Nat
  baseC     : Nat
  timing    : List Timing
  zWet      : Nat
  zDry      : Nat
  vCorr     : Nat
  tDry      : Nat
  tWet      : Nat
  dieDerate : Nat
  dieCut    : Nat
  tallyEn   : Bool
  interval  : Nat
  size      : Nat
  holdC     : Nat
  holdVmin  : Nat
  setBytes  : Nat
  deriving DecidableEq, Repr

/-- Everything the apply step of R52 applies: an image that passed R67, or the ROM factory defaults (R88). -/
structure Image where
  seq     : Nat
  build   : Nat
  fmtMajor : Nat
  fmtMinor : Nat
  src     : Nat
  featIgn : Nat
  skip    : Bool
  romProg : Bool
  talOff  : Bool
  dev     : DevCfg
  ports   : List PortCfg
  power   : PowerCfg
  code    : List Byte
  /-- coefficient sets; none: the ROM sets -/
  sets    : Option (List (List Byte))
  deriving DecidableEq, Repr

/-! ## Device, clocks and resets -/

/-- Where the device stands: in reset, in a step of start-up (R52), running, in rest, or leaving rest (R61). -/
inductive Phase where
  | reset | clock | pll | links | read | apply | restore | cal | run | rest | wakePll | wakeLinks | wakeCal
  deriving DecidableEq, Repr

/-- The cause of a stop phase (R49). -/
inductive StopCause where
  | soft | reload
  deriving DecidableEq, Repr

/-- The two ordering codes (R3). -/
inductive Code where
  | e | c
  deriving DecidableEq, Repr

structure Dev where
  code      : Code
  phase     : Phase
  stop      : Option StopCause
  /-- VSB stands above its power-on threshold (R32, R47) -/
  vsb       : Bool
  /-- XREF time: µs of XREF since the standby power-on reset (R132, assumption 2) -/
  us        : Nat
  /-- AON time in µs, which runs in rest too and is cleared by a device reset (R48, assumption 2) -/
  aon       : Nat
  /-- AON time at the last reset release -/
  relUs     : Nat
  rstCause  : Word
  startMs   : Nat
  second    : Bool
  unlock    : Bool
  /-- a 0x00A5 waits for its 0x005A (R386) -/
  keyPend   : Bool
  evt       : Word
  ie        : Word
  vauxOk    : Bool
  vconnIn0  : Bool
  vconnIn1  : Bool
  deriving DecidableEq, Repr

/-- One die-to-die link (R42 to R45). -/
structure D2d where
  trained : Bool
  tries   : Nat
  ucrev   : Byte
  ucode   : Bool
  d2df    : Bool
  crcCnt  : Word
  deriving DecidableEq, Repr

structure Clk where
  suo     : Bool
  xfail   : Bool
  x32fail : Bool
  pllS    : Bool
  pllH    : Bool
  xrefOk  : Bool
  xfailCnt : Word
  wake    : Word
  ie      : Word
  d0      : D2d
  d1      : D2d
  deriving DecidableEq, Repr

/-- How the loader reads the flash (R63): lanes, 4-byte addresses, and the quad-enable method. -/
structure FlashAccess where
  mode  : FlashMode
  addr4 : Bool
  quad  : BitVec 3
  deriving DecidableEq, Repr

structure Alm where
  rejA     : Nat
  rejB     : Nat
  fmtMajor : Nat
  fmtMinor : Nat
  slow     : Bool
  talOff   : Bool
  featIgn  : Nat
  loopRom  : Bool
  skip     : Bool
  defaults : Bool
  src      : Nat
  seq      : Nat
  build    : Nat
  ie       : Word
  rejCnt   : Word
  talPtr   : Nat
  /-- the pointer of the flash controller's arbiter (R41, R428) -/
  flashPtr : Nat
  /-- the mode in which the flash is read (R63) -/
  flash : Option FlashAccess
  sfdp     : Option Sfdp
  chosen   : Option Image
  cfg      : DevCfg
  deriving DecidableEq, Repr

/-! ## Input supervisor and crier -/

inductive SupState where
  | normal | hoRun | reserve | rtnRun
  deriving DecidableEq, Repr

structure Sup where
  st       : SupState
  cfg      : PowerCfg
  /-- POWER values that wait for HO_RUN to end (R87) -/
  cfgPend  : Option PowerCfg
  ga       : Bool
  gb       : Bool
  wrn      : Bool
  hoReq    : Bool
  /-- this HO request has been refused and counted (R367) -/
  hoRefd   : Bool
  rsvLow   : Bool
  /-- the supervisor's own time in µs since the standby power-on reset: no other reset touches it (R21) -/
  now      : Nat
  /-- QUAL running: the supervisor's time at its start -/
  qual     : Option Nat
  bow      : Bool
  inA      : Nat
  inB      : Nat
  /-- the supervisor's conversion (one each 10 µs) in which a row last told IN_A and IN_B: later ones are free (R362, assumption 3) -/
  aAt      : Nat
  bAt      : Nat
  /-- the supervisor's time at which GA_DRV and GB_DRV were turned off, from which each is sunk for 20 µs (R370) -/
  gaOff    : Option Nat
  gbOff    : Option Nat
  hoUs     : Nat
  rtnUs    : Nat
  /-- a dip Alert was sent for the WRN in force (R372) -/
  dipSent  : Bool
  /-- completed hand-overs (true) and returns (false) that the core has not acted on, oldest first (R56, R372, R375) -/
  reports  : List Bool
  evt      : Word
  ie       : Word
  cnt      : Vector Word 8
  /-- events and counts of the time in which W0 is not heard: the core receives them when the link comes up (R56, R375) -/
  late     : Word
  lateCnt  : Vector Word 8
  /-- SUP_STAT (without FITTED), SUP_VIN and SUP_HOTIME as last received, while W0 is not heard: their reset values before it ever was
  (R375) -/
  held     : Option (List Word)
  deriving DecidableEq, Repr

/-! ## Cistern and link -/

/-- A record of the loan table (LNK_LOAN). Times in µs of AON time. -/
structure Loan where
  valid  : Bool
  lent   : Bool
  east   : Bool
  relay  : Bool
  linked : Nat
  amount : Nat
  id     : BitVec 16
  start  : Nat
  ends   : Nat
  /-- what stays after the lease end, as renewed so far (R351, R352), and until when -/
  kept   : Nat
  next   : Nat
  renewed : Bool
  /-- what of this loan the shed ahead of its end counts (R353) -/
  led    : Nat
  deriving DecidableEq, Repr

/-- An open loan request on a port (R347), relayed when `up` names the requester's REQ (R348). -/
structure LoanReq where
  reqId  : BitVec 16
  amount : Nat
  got    : Nat
  hops   : Nat
  /-- the other neighbour has been asked too -/
  second : Bool
  /-- the other neighbour granted something -/
  any    : Bool
  up     : Option (BitVec 16)
  deriving DecidableEq, Repr

/-- A relayed request that waits until the port on which it goes out has no request open (R347, R348). -/
structure Relayed where
  /-- it goes out on LKE -/
  east    : Bool
  amount  : Nat
  hops    : Nat
  /-- the requester's REQ -/
  up      : BitVec 16
  /-- this node has granted a part of it -/
  granted : Bool
  deriving DecidableEq, Repr

structure Cis where
  /-- the pointer of the cistern request port's arbiter (R41, R428) -/
  ptr      : Nat
  reserve  : Bool
  reqW     : Option LoanReq
  reqE     : Option LoanReq
  /-- shortfall waiting for the next request (R347) -/
  short    : Nat
  /-- what an own request still has to ask of the other neighbour, whose port a relayed request keeps busy: the side, true for LKE, the
  amount, and whether something was granted already (R347) -/
  rest     : Option (Bool × Nat × Bool)
  /-- the oldest first -/
  relays   : List Relayed
  /-- relayed requests that were closed without a GRANT: the side on which each went out, its REQ, and the requester's (R348) -/
  late     : List (Bool × BitVec 16 × BitVec 16)
  nextEast : Bool
  nextReq  : BitVec 16
  nextLoan : BitVec 16
  /-- selected cuts ahead of a lease end: FREE expected at that end is below FREE by this much (R353) -/
  ahead    : Nat
  shedding : Bool
  evt      : Word
  ie       : Word
  cnt      : Vector Word 6
  loans    : Vector Loan 32
  deriving DecidableEq, Repr

inductive LinkState where
  | isolated | seek | up | relay | asleep | miswire | closing
  deriving DecidableEq, Repr

/-- A GRANT or LAPSE sent, for the audit (R356 to R358). -/
structure Xfer where
  xid    : BitVec 16
  amount : Nat
  /-- 1 s after the end of its lease, in µs: without an ACK it is open until then -/
  till   : Nat
  acked  : Bool
  deriving DecidableEq, Repr

/-- One link port. -/
structure LinkPort where
  st      : LinkState
  ver     : Nat
  txSeq   : BitVec 4
  rxSeq   : Option (BitVec 4)
  /-- frames waiting, the first one in flight when `att` is not 0 -/
  txq     : List LinkFrame
  att     : Nat
  /-- the frame of the kinds that are not acknowledged (ACK, HELLO) sent last -/
  line    : Option LinkFrame
  partner : Option (BitVec 48 × Word)
  partnerSleep : Option Nat
  /-- the port was CLOSING when its partner announced sleep -/
  closed  : Bool
  xidTx   : BitVec 16
  xidRx   : BitVec 16
  xfers   : List Xfer
  burst   : Bool
  /-- the token in flight has gone out behind a wake burst already (R361) -/
  tokAgain : Bool
  cnt     : Vector Word 6
  deriving DecidableEq, Repr

structure Lnk where
  w       : LinkPort
  e       : LinkPort
  node    : Option Nat
  west    : Bool
  ring    : Bool
  overId  : Bool
  chainSeen : Bool
  /-- WAVE_UID of the wave that the node took last: in a ring its originator's (R345) -/
  waveUid : BitVec 48
  candidate : Bool
  auditNo : BitVec 16
  auditOn : Bool
  auditOut : Bool
  slotUs  : Option Nat
  /-- the slot's guard has ended without the token, and the node stays awake until it comes (R361) -/
  auditWait : Bool
  /-- a wake burst on LKW has ended rest, and no frame has come there since (R361) -/
  woken     : Bool
  evt     : Word
  ie      : Word
  tag     : Word
  aud     : Word
  nodes   : BitVec 16
  audErr  : Word
  audLost : Word
  enumCnt : Word
  deriving DecidableEq, Repr

/-! ## Two-wire targets -/

structure Twi where
  straps   : BitVec 3
  index    : Index
  offsets  : Vector Nat 48
  metCopy  : Vector (Option (Port × List Word)) 4
  cisCopy  : Option (List Word)
  /-- committed words that have not yet reached their registers (R383) -/
  commits  : List (Index × Word)
  /-- the bytes that the target last sent, with none for a byte answered N -/
  reply    : List Byte
  /-- TWM transactions whose address is acknowledged and whose SCL is stretched until registers are served, oldest first (R57, R388) -/
  stretched : List TwmOp
  nak      : Bool
  evt      : Word
  ie       : Word
  cnt      : Vector Word 20
  deriving DecidableEq, Repr

/-! ## Measurement and tallies -/

/-- Tally record kinds (R318). -/
inductive TallyKind where
  | interval | warning | stop | clear
  deriving DecidableEq, Repr

/-- The record being written (R319, R320). -/
structure TallyJob where
  kind   : TallyKind
  snap   : Bool
  pages  : Nat
  seq    : Nat
  deriving DecidableEq, Repr

/-- A calibration group (R308 to R310). -/
structure Grp where
  slot    : Nat
  /-- the relief modulator converts beside the working one, or calibrates itself -/
  beside  : Bool
  standIn : Bool
  relf    : Bool
  cycles  : Nat
  deriving DecidableEq, Repr

/-- PREF_IN anchoring of one die (R313, R314): correction in ppm. -/
structure Pref where
  ppm  : Int
  bad  : Bool
  good : Nat
  first : Bool
  deriving DecidableEq, Repr

structure Mtr where
  evt     : Word
  ie      : Word
  cnt     : Vector Word 7
  grp     : Vector Grp 6
  pref0   : Pref
  pref1   : Pref
  clears  : List Port
  nSamp   : Nat
  /-- HOLD_SNS at the capacitor, in mV: the last eleven samples, newest last -/
  holdMv  : List Nat
  tseq    : Nat
  starts  : Nat
  reqs    : List TallyKind
  /-- requests that failed the hold-up check and are checked again every second (R327) -/
  recheck : Bool
  job     : Option TallyJob
  lastWarn : Option Nat
  firstDone : Bool
  erase   : Option Nat
  suspended : Bool
  /-- the block whose erase was due while another ran (R321) -/
  eraseDue : Option Nat
  blankPtr : Bool
  staging : List Host.Cell
  calibrated : Bool
  deriving DecidableEq, Repr

/-! ## Pumps -/

/-- Where an operand lies once its specifier has been evaluated (R277, R280): an immediate's value, a register, a data address, an
I/O entry, or an accumulator with its part (0 whole, 1 high, 2 low, 3 guard). -/
inductive PyPlace where
  | imm (w : Word) | reg (r : Fin 16) | mem (a : Nat) | io (i : Nat) | acc (a : Fin 4) (part : Nat)
  deriving DecidableEq, Repr

/-- A stage instruction in the stage unit (R296): the writes it holds, what they touch, and its busy cycles left. -/
structure StageJob where
  y     : Word
  s1    : Word
  s2    : Word
  cAddr : Nat
  cLen  : Nat
  sAddr : Nat
  v     : PyPlace
  mods  : List (Fin 16)
  left  : Nat
  deriving DecidableEq, Repr

/-- The sample a pump runs (R246). -/
structure PumpRun where
  port    : Port
  preset  : Bool
  late    : Bool
  pc      : Nat
  /-- the stack limit -/
  stack   : Nat
  g       : Vector Word 16
  acc     : Vector Acc 4
  mv      : Word
  mi      : Word
  user    : Word
  io      : Vector Word 12
  /-- the coefficient lines and the state line loaded at dispatch (R245) -/
  coefLn  : List Byte
  stLn    : List Byte
  stWritten : Bool
  /-- local memory -/
  loc     : List Host.Cell
  stage   : Option StageJob
  cycles  : Nat
  /-- trough grants whose cycles are still to be counted -/
  grants  : Nat
  /-- the number of this sample, for what is undefined at its dispatch -/
  k       : Nat
  deriving DecidableEq, Repr

structure Pmp where
  pumps   : Vector (Option PumpRun) 24
  /-- the alternation pointer of each pump: true names its clockwise side (R247) -/
  cw      : Vector Bool 24
  /-- the side of each home pump's next equal-distance steal (R248) -/
  homeCw  : Vector Bool 24
  evt     : Word
  ie      : Word
  waitMax : Nat
  stealCnt : Word
  ovrCnt  : Word
  busyCyc : Nat
  load    : Nat
  troughPtr : Nat
  coefQ   : List (Port × Fin 256 × Word)
  deriving DecidableEq, Repr

/-! ## The yard -/

/-- What a transmission was, for the hand that learns of its result. -/
inductive TxKind where
  | accept | acceptSoft | acceptVcs | reject | wait | psRdy | psRdyVcs | caps | eprCaps | request | softReset
  | eprEnterAck | eprSucceeded | eprFailed | eprEnter | eprExit | vconnSwap | vdm | cable | alert | keepAlive | answer | hardReset
  deriving DecidableEq, Repr

/-- Events of R130 whose hand step has no row of its own, since the row of their cause has done all that follows (assumption 13). -/
inductive Note where
  | linkLost (d : WDie) | conn | grant | loan | dieTemp (d : Die) | sup | admin
  deriving DecidableEq, Repr

/-- What the crier announces (R372): a dip, its end, the reserve in use, or the return from it. -/
inductive InputCause where
  | dip | restored | reserve | normal
  deriving DecidableEq, Repr

/-- The events of the yard (R129, R130). -/
inductive EvCode where
  | hardReset
  | msg | txOk (k : TxKind) | txFail (k : TxKind) | sluice
  | timer (t : TimerId) (tag : BitVec 16)
  | guard | shed | crier (c : InputCause)
  | note (n : Note)
  deriving DecidableEq, Repr

/-- A ready event record. `port` none is the device-wide 63. -/
structure YardRec where
  port   : Option Port
  cls    : Nat
  ev     : EvCode
  shared : Bool
  time   : BitVec 24
  /-- its port has been reset, or its message has gone, since: the hand that takes it discards it (R136) -/
  dead   : Bool
  deriving DecidableEq, Repr

/-- A timer record, or an armed timer that waits for one (R129, R132). -/
structure TimerRec where
  port   : Port
  id     : TimerId
  expiry : Word
  tag    : BitVec 16
  /-- none: it still waits for a record -/
  place  : Option Bool
  deriving DecidableEq, Repr

/-- The hand's step that runs now, and the records that are free from its end: that of its event, and those of the timers it disarms
(R131). -/
structure HandStep where
  hand : Hand
  recs : List (Option Port × Bool)
  deriving DecidableEq, Repr

/-- A request at the yard arbiter. -/
structure YardReq where
  from' : Nat
  port  : Option Port
  cls   : Nat
  ev    : EvCode
  /-- its wait for a record has been counted (R131) -/
  full  : Bool
  deriving DecidableEq, Repr

structure Hnd where
  ready   : List YardRec
  timers  : List TimerRec
  reqs    : List YardReq
  ptr     : Nat
  tagNext : BitVec 16
  step    : Option HandStep
  evt     : Word
  ie      : Word
  sharedHwm : Nat
  stealCnt : Word
  fullCnt : Word
  stepMax : Nat
  deriving DecidableEq, Repr

/-! ## Guard, PWM and mux chain, device-wide parts -/

/-- One die's temperature (R123, R125): tenths of °C; `below` is the time in µs at which it fell 10 °C below DIE_CUT. -/
structure DieTemp where
  temp    : Int
  hottest : Nat
  cut     : Bool
  derate  : Bool
  below   : Option Nat
  deriving DecidableEq, Repr

structure GrdG where
  dies   : Vector DieTemp 3
  evt    : Word
  ie     : Word
  cutCnt : Word
  deriving DecidableEq, Repr

inductive SyncState where
  | internal | acquire | track | freerun
  deriving DecidableEq, Repr

/-- The sync tracker and the bank (R224, R229 to R232): lengths in fine steps. -/
structure Pwm where
  sync    : SyncState
  est     : Nat
  frame   : Nat
  misses  : Nat
  good    : Nat
  none'   : Nat
  /-- the window of the present frame is open (TRACK) -/
  window  : Bool
  err     : Int
  evt     : Word
  ie      : Word
  cnt     : Vector Word 5
  tap     : Nat
  /-- µs of SYNC_OUT's pulse that are left (R232) -/
  syncLeft : Nat
  /-- an accepted edge has come for the present frame's expected time, one early for that of the next, and any edge in the present frame
  (R229) -/
  nearSeen : Bool
  nextSeen : Bool
  anySeen : Bool
  /-- what the next frame adds to the estimate (R230, R231) -/
  corr    : Int
  deriving DecidableEq, Repr

/-- A waiting nibble update of the mux chain. -/
structure MuxReq where
  hand : Nat
  port : Port
  nib  : BitVec 4
  deriving DecidableEq, Repr

structure Mux where
  busy   : Bool
  ptr    : Nat
  reqs   : List MuxReq
  /-- an all-zero frame is due (R192) -/
  zero   : Bool
  /-- a frame has been latched since the reset, so the register image shows the latched one -/
  shown  : Bool
  next   : Vector (BitVec 4) 48
  latched : Vector (BitVec 4) 48
  frames : Word
  /-- cycles left of the update window of the present frame (R190) -/
  left   : Nat
  /-- the first cycle of that window, counted from 0, in which no grant has been made yet (R190) -/
  used   : Nat
  deriving DecidableEq, Repr

/-! ## One port -/

/-- The connection states (R91). -/
inductive ConnState where
  | disabled | unattSrc | attwaitSrc | attSrc | unattSnk | attwaitSnk | attSnk | errRecov | selftest | guardOff | fault
  deriving DecidableEq, Repr

structure Tc where
  st      : ConnState
  orient  : Bool
  ra      : Bool
  prp     : Nat
  vconn   : Bool
  vcoc    : Bool
  admEn   : Bool
  /-- an accessory or lone Ra seen and counted in this presentation (R96) -/
  accSeen : Bool
  backv   : Bool
  cc1     : Nat
  cc2     : Nat
  /-- the pin with Rd on which an attach attempt began: false is CC1 (R93, R141) -/
  pin     : Option Bool
  /-- tCCDebounce of the present attach attempt has ended (R141) -/
  ccDone  : Bool
  /-- the pin that VCONN has left and that is being discharged, true for CC2, and the AON time at which that ends at the latest
  (R103) -/
  dis     : Option (Bool × Nat)
  ampLast : Nat
  ampCapt : Nat
  evt     : Word
  ie      : Word
  cnt     : Vector Word 12
  deriving DecidableEq, Repr

/-- A message in a receive place. -/
structure RxMsg where
  sop : Sop
  msg : PdMsg
  deriving DecidableEq, Repr

/-- A message to transmit. -/
structure TxMsg where
  sop  : Sop
  kind : TxKind
  msg  : PdMsg
  deriving DecidableEq, Repr

/-- The port protocol layer (R105 to R112). -/
structure Prot where
  rx      : List RxMsg
  lastId  : List (Sop × BitVec 3)
  txq     : List TxMsg
  inProg  : Bool
  /-- the transmission awaiting its GoodCRC, with the attempts made -/
  await   : Option TxMsg
  tries   : Nat
  nextId  : List (Sop × BitVec 3)
  hrWait  : Bool
  /-- a transmission of Hard Reset in progress -/
  hrProg  : Bool
  /-- the GoodCRCs owed, one for each accepted packet, the oldest first -/
  goodCrc : List (Sop × BitVec 3)
  /-- AON time in µs at which the first of them starts (R109) -/
  gcAt    : Nat
  /-- amplitude of the packet being received -/
  cur     : Option Nat
  hrLate  : Bool
  deriving DecidableEq, Repr

inductive SrcState where
  | idle | startup | sendCaps | negotiate | admission | transition | ready | waitReq | softReset | hardReset | typecOnly
  deriving DecidableEq, Repr

inductive SnkState where
  | idle | startup | evaluate | select | transition | ready | waited | softReset | hardReset
  deriving DecidableEq, Repr

inductive EprState where
  | spr | entry | epr | exit
  deriving DecidableEq, Repr

/-- Contract kinds of PD_CONTRACT.KIND. -/
inductive Kind where
  | dflt | fixed | pps | eprFixed | avs
  deriving DecidableEq, Repr

/-- A contract: position, kind, voltage in mV, contract current in mA, Operating Current in mA, credits. -/
structure Contract where
  pos    : Nat
  kind   : Kind
  mv     : Nat
  ma     : Nat
  opMa   : Nat
  credits : Nat
  deriving DecidableEq, Repr

/-- An offered object with its template's kind. -/
structure Offered where
  kind : Nat
  pdo  : Pdo
  deriving DecidableEq, Repr

/-- The last offer (PD_OFFER) and the objects it carried, in message order. -/
structure Offer where
  budget : Nat
  bound  : Word
  pdos   : List Offered
  /-- P_ALLOW in µW when it was made -/
  allow  : Nat
  deriving DecidableEq, Repr

/-- PD_CABLE. -/
structure Cable where
  disc : Bool
  imax : Nat
  vmax : Nat
  epr  : Bool
  deriving DecidableEq, Repr

/-- The steps of a Hard Reset (R162). -/
inductive HrStep where
  | none | off | discharge | recover | restore
  deriving DecidableEq, Repr

/-- What a step orders the sluice to do; the limits in 10 mA units. -/
inductive SlcCmd where
  | on | off | ilim (ten : Nat)
  deriving DecidableEq, Repr

/-- What a step orders the loop framework to do; targets in mV. -/
inductive StgCmd where
  | start (mv : Nat) | stop | target (mv : Nat)
  deriving DecidableEq, Repr

/-- The policy machines of a port (R136). -/
structure Pd where
  src      : SrcState
  snk      : SnkState
  epr      : EprState
  vcs      : Nat
  /-- this port is the VCONN source of its attachment -/
  vconnSrc : Bool
  holdTwin : Bool
  holdCred : Bool
  shed     : Bool
  cut      : Nat
  hrc      : Nat
  contract : Option Contract
  /-- the request admitted and not yet in force -/
  want     : Option Contract
  charge   : Nat
  pledge   : Nat
  inflow   : Nat
  offer    : Offer
  cable    : Cable
  cabled   : Bool
  capsTry  : Nat
  waits    : Nat
  twinWaits : Nat
  noMove   : Bool
  due      : Bool
  spacing  : Bool
  hr       : HrStep
  snkHr    : Bool
  partnerEpr : Bool
  /-- the output was lost and the hand has not acted on it yet (R208) -/
  lost     : Bool
  /-- the port has given up VCONN in this attachment (R159) -/
  gaveVconn : Bool
  /-- a notice that the sink acts on when it is next in READY (R117) -/
  sinkDue  : Bool
  eprPend  : Bool
  exitPend : Bool
  vcsPend  : Bool
  trigger  : Bool
  ocp      : Bool
  alerts   : List AlertKind
  alertOut : Bool
  otpLast  : Bool
  /-- what the Source Input Change that waits announces (R174, R372) -/
  inCause  : Option InputCause
  /-- the PS_RDY of the transition in progress has been sent (R147) -/
  psRdyOut : Bool
  /-- the shortfall for which a held attach or a Request that got Wait asked, while it waits (R141, R145, R351) -/
  short    : Nat
  srcCaps  : List Pdo
  live     : List (TimerId × BitVec 16)
  slcq     : List SlcCmd
  stgq     : List StgCmd
  evt      : Word
  ie       : Word
  cnt      : Vector Word 13
  deriving DecidableEq, Repr

inductive VdmState where
  | idle | cableSop1 | cableSop2 | discId | discSvid | discModes | enter | dpStatus | dpConfig | mode | noMode
  deriving DecidableEq, Repr

/-- The VDM machine (R175 to R187). -/
structure VdmP where
  st      : VdmState
  ver     : Nat
  entry   : Nat
  left    : List Nat
  svids   : List (BitVec 16)
  rounds  : Nat
  entered : Bool
  hpd     : Bool
  intr    : Bool
  /-- the command awaiting its response -/
  out     : Option Vdm
  busies  : Nat
  tries   : Nat
  waiting : Bool
  lowTime : Bool
  lowHpd  : Bool
  lowIrq  : Bool
  ready   : Bool
  id      : Word
  cable   : Word
  attn    : Word
  /-- cable discovery beside the partner's machine (R180 to R182): idle, cableSop1 or cableSop2, its command that awaits a response,
  whether it gave way (R179), and the version used with the cable (R175) -/
  cab     : VdmState
  cabOut  : Option Vdm
  cabIntr : Bool
  cabVer  : Nat
  /-- the response on SOP″, which is recorded only (R182) -/
  sop2    : Option Vdm
  evt     : Word
  ie      : Word
  cnt     : Vector Word 7
  deriving DecidableEq, Repr

inductive SlcState where
  | off | ramp | on | limit | trip | retryWait | discharge | fault
  deriving DecidableEq, Repr

inductive RampPhase where
  | none | precharge | slope | enhance
  deriving DecidableEq, Repr

/-- The sluice (R195 to R221). -/
structure Slc where
  st      : SlcState
  /-- LIMIT was entered from ON -/
  limOn   : Bool
  phase   : RampPhase
  tcause  : Nat
  retries : Nat
  dsc     : Bool
  /-- the direction of this attachment: power flows in (R194) -/
  sink    : Bool
  onReq   : Bool
  offIn   : Bool
  offRun  : Bool
  retry   : Bool
  gck     : Bool
  /-- fault accumulator in sixteenths of a µs -/
  acc     : Nat
  window  : Bool
  /-- VBC, and VBS, has been seen below vSafe0V since the window opened (R218): the downstream node is VBC of a source, VBS of a sink -/
  seenLow : Bool
  seenLowS : Bool
  /-- VBC stands below vSafe0V, as seen last on any path -/
  low0    : Bool
  /-- the state and its LIMIT's origin from which DISCHARGE or TRIP was entered, and the AON time then (R216) -/
  from'   : Option (SlcState × Bool × Nat)
  /-- the AON time from which on V_GS is held: in ON, or at SRC (R195, R197, R198) -/
  gateAt  : Nat
  ilim    : Nat
  tRamp   : Nat
  tDisch  : Nat
  offt    : Nat
  evt     : Word
  ie      : Word
  cnt     : Vector Word 8
  deriving DecidableEq, Repr

/-- The stage, its reference generator and its two channels (R223 to R242): µV, and M in units of 2^-28. -/
structure Stg where
  target  : Nat
  kind    : Kind
  ref     : Int
  trim    : Int
  den     : Bool
  pwm     : Bool
  stopping : Bool
  hold    : Bool
  rev     : Bool
  band    : Nat
  limpPi  : Bool
  ePrev   : Int
  da      : Nat
  db      : Nat
  m       : Nat
  settled : Bool
  meas    : LoopMeas
  /-- VBS and VIN in mV, as measured last while a start command is held (R234, R261) -/
  vbs0    : Nat
  vin0    : Nat
  /-- period starts that pass before PWM begins (R234) -/
  wait    : Nat
  /-- the index in its frame of the next period (R224) -/
  k       : Nat
  /-- falling edges of PWA and PWB in the present period, in fine steps; 0 is low throughout (R227) -/
  fallA   : Nat
  fallB   : Nat
  /-- the odd twin's contract set the stage voltage (R236) -/
  byOdd   : Bool
  deriving DecidableEq, Repr

/-- The loop slot (R247 to R268). -/
structure Loop where
  /-- LOOP_CTL.MODE as last written (R7) -/
  ctl     : Bool
  auto    : Bool
  host    : Bool
  held    : Bool
  preset  : Bool
  /-- the transfer to AUTO came from a host write (R260) -/
  fromHost : Bool
  cc      : Bool
  limp    : Bool
  lcause  : Nat
  orun    : Nat
  manPend : Bool
  first   : Bool
  skip    : Bool
  /-- a trigger issued at the period start that has not yet reached PMP -/
  trig    : Bool
  ready   : Bool
  reach   : Nat
  /-- the order of triggers among the ready samples (R247) -/
  order   : Nat
  running : Bool
  io      : Vector Word 12
  /-- M committed on time for the next period start -/
  commit  : Option Word
  mduty   : Word
  mheld   : Word
  m       : Word
  /-- ISET in units of 0.1 mA (R257) -/
  iset    : Nat
  cycMax  : Nat
  cycLast : Nat
  wait    : Nat
  trapCode : Nat
  trapAt  : Nat
  user    : Word
  evt     : Word
  ie      : Word
  cnt     : Vector Word 4
  deriving DecidableEq, Repr

/-- A modulator's coefficients in force and the result rejected last (R309), in ppm of full scale; stale flag (R310). -/
structure Modl where
  off   : Int
  gain  : Int
  rej   : Option (Int × Int)
  stale : Bool
  aside : Bool
  deriving DecidableEq, Repr

/-- Metering of a port (R315, R330). Energy in units of 2^-32 mWh, charge of 2^-32 mAh, on-time in ms. -/
structure Met where
  eOut   : Nat
  eIn    : Nat
  cOut   : Nat
  cIn    : Nat
  onMs   : Nat
  contracts : Nat
  trips  : Nat
  epoch  : Nat
  vbc    : Int
  vbs    : Int
  i      : Int
  p      : Int
  sVbc   : Int
  sVbs   : Int
  sI     : Int
  sP     : Int
  clipWin : Bool
  range  : Bool
  noaccF : Bool
  rangeF : Bool
  mods   : Vector Modl 3
  evt    : Word
  ie     : Word
  calCnt : Word
  rejCnt : Word
  deriving DecidableEq, Repr

/-- The run of one pin: µs of the first reading of the wet run, flood run and dry run in progress, and of the latest reading
(R115). -/
structure PinRun where
  wet   : Option Nat
  flood : Option Nat
  dry   : Option Nat
  last  : Option Nat
  deriving DecidableEq, Repr

/-- The guard of a port (R113 to R128). -/
structure GrdP where
  wet    : Bool
  flood  : Bool
  corr   : Bool
  hot    : Bool
  ntcf   : Bool
  dieHot : Bool
  wasF   : Nat
  fNtc   : Nat
  frame  : Nat
  ccFrame : Option Bool
  us     : Nat
  msn    : PinRun
  cc1    : PinRun
  cc2    : PinRun
  corrN  : Nat
  corrDry : Option Nat
  z      : Nat
  zcc1   : Nat
  zcc2   : Nat
  vdc    : Int
  temp   : Int
  /-- the thermistor's readings of the last second, at most 100, with their AON times; none: out of bounds (R121) -/
  readings : List (Nat × Option Int)
  ntcOk  : Nat
  hotBelow : Option Nat
  /-- F was 0 without a cut at the last evaluation (R125, assumption 99) -/
  zeroF  : Bool
  /-- notices for the hand: an offer is due -/
  notice : Bool
  evt    : Word
  ie     : Word
  cnt    : Vector Word 5
  deriving DecidableEq, Repr

/-- Fault states and port reset (R392 to R394). -/
structure CntP where
  fetg  : Bool
  fets  : Bool
  dscf  : Bool
  limp  : Bool
  phyx  : Bool
  first : Nat
  busy  : Bool
  /-- the port reset waits for the limp PI (R394) -/
  limpWait : Bool
  /-- the codes of the faults entered during that wait, which the reset does not clear (R393) -/
  since : List Nat
  /-- the port reset has run before the ports are enabled, and the port waits for that (R50, R52) -/
  waitOn : Bool
  evt   : Word
  ie    : Word
  prstCnt  : Word
  faultCnt : Word
  deriving DecidableEq, Repr

structure PortState where
  cfg  : PortCfg
  /-- the pins have left their reset states (R17) -/
  live : Bool
  tc   : Tc
  prot : Prot
  pd   : Pd
  vdm  : VdmP
  slc  : Slc
  stg  : Stg
  loop : Loop
  met  : Met
  grd  : GrdP
  cnt  : CntP
  /-- stage and slot before the first command that reached the generator in the present period: a later one replaces it (R233) -/
  prior : Option (Stg × Loop)
  /-- the sluice before the ramp or the trip that it entered last, and the AON time of that: what coincides may undo its counts (R216) -/
  slcWas : Option (Nat × Slc)
  deriving DecidableEq, Repr

/-! ## Memories -/

/-- The trough (R243): listed bytes, and for each port the ROM coefficient set that its unlisted coefficient bytes read from. -/
structure Trough where
  cells : List Host.Cell
  rom   : Vector (Option (Bool × Nat)) 48
  deriving DecidableEq, Repr

/-- Program memory (R243): the ROM default programs, or loaded code. -/
structure Prog where
  rom   : Bool
  cells : List Host.Cell
  deriving DecidableEq, Repr

/-- The state of the device, and the queue of the commands that wait. -/
structure State where
  dev     : Dev
  clk     : Clk
  alm     : Alm
  sup     : Sup
  cis     : Cis
  lnk     : Lnk
  twi     : Twi
  mtr     : Mtr
  pmp     : Pmp
  hnd     : Hnd
  grd     : GrdG
  pwm     : Pwm
  mux     : Mux
  ports   : Vector PortState 48
  trough  : Trough
  prog    : Prog
  /-- how many free values have been drawn: the model's own field (assumption 3) -/
  draws   : Nat
  /-- the commands that wait, first in, first out -/
  pending : List Instr
  deriving DecidableEq, Repr

/-! ## Reset values -/

def Thermal.factory : Thermal := ⟨60, 80, 90, 50, 3950, 100⟩

/-- The register reset values of a port's AL fields; the fields that no register shows take the factory defaults of R88. -/
def PortCfg.reset (p : Nat) : PortCfg where
  enabled := true
  role := 0
  rp := 0
  vconnSrc := false
  drp := false
  dowser := false
  ntc := false
  eprOk := false
  form := false
  fsw := 500
  prog := 0
  coef := 0
  shed := 128
  slew := 10
  tSettle := 500
  ilim := 150
  ramp := 2
  faultT := 2
  tripK := 3
  retry := 4
  tGck := 3
  shunt := 2000
  imax := 150
  snkI := 0
  snkV := 0
  twin := false
  phase := p * 1365
  stack := 0
  sampleAt := 0
  presetAt := 0
  list := [255, 255, 255, 255]
  caps := [⟨1, 0, 500, 0, 90⟩]
  therm := Thermal.factory

/-- The factory supervisor values of R363. -/
def PowerCfg.factory : PowerCfg := ⟨4200, 100, 3800, 4400, 4000, 50, 50, 5, 1, true, true⟩

/-- The reset values of the device-wide AL fields. -/
def DevCfg.reset (k : Code) : DevCfg where
  feat := 0
  restEn := false
  restIdle := 10
  pref := false
  syncTrack := false
  syncDrive := false
  route := List.replicate 24 0
  home := 2160
  guard := 0
  resHome := 2160
  resGuard := 0
  sysTotal := 2160
  tShed := 2000
  linkW := false
  linkE := false
  hops := 0
  lease := 0
  audit := 0
  protoMax := 1
  sleepOk := false
  xformer := false
  lendKeep := 0
  altmode := false
  svids := []
  auxEn := 0
  baseA := 0
  baseB := 0
  baseC := 0
  timing := List.replicate 4 ⟨6, 0, false⟩
  zWet := 200
  zDry := 500
  vCorr := 150
  tDry := 60
  tWet := 100
  dieDerate := match k with | .e => 110 | .c => 95
  dieCut := match k with | .e => 125 | .c => 110
  tallyEn := false
  interval := 0
  size := 0
  holdC := 0
  holdVmin := 0
  setBytes := 256

def Dev.reset : Dev :=
  ⟨.e, .reset, none, true, 0, 0, 0, 1#32, 0, false, false, false, 0#32, 1#32, true, true, true⟩

def D2d.reset : D2d := ⟨false, 0, 0#8, false, false, 0#32⟩

def Clk.reset : Clk := ⟨true, false, false, false, false, false, 0#32, 0#32, 0x0F#32, D2d.reset, D2d.reset⟩

def Alm.reset (k : Code) : Alm :=
  ⟨15, 15, 0, 0, false, false, 0, false, false, false, 0, 0, 0, 0x08#32, 0#32, 0, 0, none, none, none, DevCfg.reset k⟩

def Sup.reset : Sup :=
  ⟨.normal, PowerCfg.factory, none, true, false, false, false, false, false, 0, none, false, 0, 0, 0, 0, none, none, 0, 0, false, [],
   0#32, 0x14#32, Vector.replicate 8 0#32, 0#32, Vector.replicate 8 0#32, some [0x200#32, 0#32, 0#32]⟩

def Loan.none : Loan := ⟨false, false, false, false, 0, 0, 0#16, 0, 0, 0, 0, false, 0⟩

def Cis.reset : Cis :=
  ⟨0, false, none, none, 0, none, [], [], true, 0#16, 0#16, 0, false, 0#32, 1#32, Vector.replicate 6 0#32, Vector.replicate 32 Loan.none⟩

def LinkPort.reset : LinkPort :=
  ⟨.isolated, 0, 0#4, none, [], 0, none, none, none, false, 0#16, 0#16, [], false, false, Vector.replicate 6 0#32⟩

def Lnk.reset : Lnk :=
  ⟨LinkPort.reset, LinkPort.reset, none, false, false, false, false, 0#48, false, 0#16, false, false, none, false, false, 0#32, 0xE0#32, 0#32,
   0#32, 0#16, 0#32, 0#32, 0#32⟩

def Twi.reset : Twi :=
  ⟨0#3, 0#16, Vector.replicate 48 0, Vector.replicate 4 none, none, [], [], [], false, 0#32, 0#32, Vector.replicate 20 0#32⟩

def Pref.reset : Pref := ⟨0, false, 0, true⟩

def Grp.reset : Grp := ⟨0, false, false, false, 0⟩

def Mtr.reset : Mtr :=
  ⟨0#32, 0x1E#32, Vector.replicate 7 0#32, Vector.replicate 6 Grp.reset, Pref.reset, Pref.reset, [], 0, [], 0, 0, [],
   false, none, none, false, none, false, none, true, [], false⟩

def Pmp.reset : Pmp :=
  ⟨Vector.replicate 24 none, Vector.replicate 24 true, Vector.replicate 24 true, 0#32, 0#32, 0, 0#32, 0#32, 0, 0, 0, []⟩

def Hnd.reset : Hnd := ⟨[], [], [], 0, 0#16, none, 0#32, 0#32, 0, 0#32, 0#32, 0⟩

def GrdG.reset : GrdG := ⟨Vector.replicate 3 ⟨0, 0, false, false, none⟩, 0#32, 0x07#32, 0#32⟩

/-- One frame of 1 ms in fine steps (R224). -/
def frameSteps : Nat := 76800000

def Pwm.reset : Pwm :=
  ⟨.internal, frameSteps, frameSteps, 0, 0, 0, false, 0, 0#32, 2#32, Vector.replicate 5 0#32, 130, 0, false, false, false, 0⟩

def Mux.reset : Mux :=
  ⟨false, 0, [], false, false, Vector.replicate 48 0#4, Vector.replicate 48 0#4, 0#32, 0, 0⟩

def Tc.reset : Tc :=
  ⟨.disabled, false, false, 0, false, false, true, false, false, 0, 0, none, false, none, 0, 0, 0#32, 0x10#32, Vector.replicate 12 0#32⟩

def Prot.reset : Prot := ⟨[], [], [], false, none, 0, [], false, false, [], 0, none, false⟩

def Offer.none : Offer := ⟨0, 0#32, [], 0⟩

def Pd.reset : Pd where
  src := .idle
  snk := .idle
  epr := .spr
  vcs := 0
  vconnSrc := false
  holdTwin := false
  holdCred := false
  shed := false
  cut := 0
  hrc := 0
  contract := none
  want := none
  charge := 0
  pledge := 0
  inflow := 0
  offer := Offer.none
  cable := ⟨false, 0, 0, false⟩
  cabled := false
  capsTry := 0
  waits := 0
  twinWaits := 0
  noMove := false
  due := false
  spacing := true
  hr := .none
  snkHr := false
  partnerEpr := false
  lost := false
  gaveVconn := false
  sinkDue := false
  eprPend := false
  exitPend := false
  vcsPend := false
  trigger := false
  ocp := false
  alerts := []
  alertOut := false
  otpLast := false
  inCause := none
  psRdyOut := false
  short := 0
  srcCaps := []
  live := []
  slcq := []
  stgq := []
  evt := 0#32
  ie := 0x8000#32
  cnt := Vector.replicate 13 0#32

def VdmP.reset : VdmP :=
  ⟨.idle, 21, 0, [], [], 0, false, false, false, none, 0, 0, false, false, false, false, false, 0#32, 0#32, 0#32, .idle, none, false,
   21, none, 0#32, 0#32,
   Vector.replicate 7 0#32⟩

def Slc.reset : Slc :=
  ⟨.off, false, .none, 0, 0, false, false, false, false, false, false, false, 0, false, false, false, false, none, 0, 0, 0, 0, 0, 0#32, 0x700#32,
   Vector.replicate 8 0#32⟩

def Stg.reset : Stg :=
  ⟨0, .dflt, 0, 0, false, false, false, false, false, 3, false, 0, 0, 0, 0, false, ⟨0, 0, 0, 0⟩, 0, 0, 0, 0, 0, 0, false⟩

def Loop.reset : Loop :=
  ⟨false, false, false, false, false, false, false, false, 0, 0, false, false, false, false, false, 0, 0, false, Vector.replicate 12 0#32, none,
   0#32, 0#32, 0#32, 0, 0, 0, 0, 0, 0, 0#32, 0#32, 1#32, Vector.replicate 4 0#32⟩

def Met.reset : Met :=
  ⟨0, 0, 0, 0, 0, 0, 0, 0, 0, 0, 0, 0, 0, 0, 0, 0, false, false, false, false, Vector.replicate 3 ⟨0, 0, none, false, false⟩,
   0#32, 0#32, 0#32, 0#32⟩

def PinRun.none : PinRun := ⟨Option.none, Option.none, Option.none, Option.none⟩

def GrdP.reset : GrdP where
  wet := false
  flood := false
  corr := false
  hot := false
  ntcf := false
  dieHot := false
  wasF := 100
  fNtc := 100
  frame := 0
  ccFrame := none
  us := 0
  msn := PinRun.none
  cc1 := PinRun.none
  cc2 := PinRun.none
  corrN := 0
  corrDry := none
  z := 0xFFFF
  zcc1 := 0xFFFF
  zcc2 := 0xFFFF
  vdc := 0
  temp := 0
  readings := []
  ntcOk := 0
  hotBelow := none
  zeroF := false
  notice := false
  evt := 0#32
  ie := 0#32
  cnt := Vector.replicate 5 0#32

def CntP.reset : CntP := ⟨false, false, false, false, false, 0, false, false, [], false, 0#32, 1#32, 0#32, 0#32⟩

def PortState.reset (p : Nat) : PortState :=
  ⟨PortCfg.reset p, false, Tc.reset, Prot.reset, Pd.reset, VdmP.reset, Slc.reset, Stg.reset, Loop.reset, Met.reset,
   GrdP.reset, CntP.reset, none, none⟩

def Trough.reset : Trough := ⟨[], Vector.replicate 48 none⟩

/-- Right after a standby power-on reset: the device is held in reset and waits for RESET_RELEASE (R29, R47). -/
def State.reset : State where
  dev := Dev.reset
  clk := Clk.reset
  alm := Alm.reset .e
  sup := Sup.reset
  cis := Cis.reset
  lnk := Lnk.reset
  twi := Twi.reset
  mtr := Mtr.reset
  pmp := Pmp.reset
  hnd := Hnd.reset
  grd := GrdG.reset
  pwm := Pwm.reset
  mux := Mux.reset
  ports := Vector.ofFn (fun p : Port => PortState.reset p)
  trough := Trough.reset
  prog := ⟨false, []⟩
  draws := 0
  pending := []

end Sys2Proof.Machine
end

