-- ==== Sys2Proof/Machine/Bits.lean ====
section
/-! DEFINITION. Bit fields, saturating counters, big-endian byte strings and the four CRCs of the manual (R66, R107, R337, R377). -/

namespace Sys2Proof.Machine

/-- A Bool as a bit of weight 2^i. -/
def bitAt (i : Nat) (b : Bool) : Nat := if b then 2 ^ i else 0

/-- A value in a field of w bits from bit i up. -/
def field (i w v : Nat) : Nat := (v % 2 ^ w) * 2 ^ i

/-- Bits [i+w-1:i] of a word. -/
def slice (w : Word) (i n : Nat) : Nat := (w.toNat / 2 ^ i) % 2 ^ n

/-- The low n bits of a two's complement integer. -/
def twos (n : Nat) (v : Int) : Nat := (v % (2 ^ n : Nat)).toNat

/-- Increment of a 32-bit saturating counter (R395). -/
def satInc (w : Word) : Word := if w = 0xFFFFFFFF#32 then w else w + 1#32

/-- Saturation of a Nat at n bits. -/
def satN (n v : Nat) : Nat := min v (2 ^ n - 1)

/-- One more in counter i of a block (R395). -/
def bump {n : Nat} (v : Vector Word n) (i : Fin n) : Vector Word n := v.set i (satInc v[i])

/-- A latched event bit sets (R396). -/
def setBit (w : Word) (i : Nat) : Word := w ||| (1#32 <<< i)

/-- A W1C write: the bits written 1 clear (R7). -/
def w1c (w wr : Word) : Word := w &&& ~~~wr

/-- An RW write to the bits of a mask (R7, R8). -/
def rwMask (mask wr : Word) : Word := wr &&& mask

/-- A big-endian number. -/
def beNat (l : List Byte) : Nat := l.foldl (fun a b => a * 256 + b.toNat) 0

/-- The n bytes of a number, most significant first. -/
def beBytes : Nat → Nat → List Byte
  | 0, _ => []
  | n + 1, v => BitVec.ofNat 8 (v / 256 ^ n) :: beBytes n v

/-- n bytes from offset o of an image. -/
def bytesAt (l : List Byte) (o n : Nat) : List Byte := (l.drop o).take n

/-- A big-endian field of an image; bytes beyond its end read 0. -/
def fieldAt (l : List Byte) (o n : Nat) : Nat := beNat ((bytesAt l o n) ++ List.replicate (n - (bytesAt l o n).length) 0#8)

/-- The words of a byte string, four bytes each, big-endian; a partial word at the end is left out (R383). -/
def wordsOf : List Byte → List Word
  | a :: b :: c :: d :: t => (a ++ b ++ c ++ d) :: wordsOf t
  | _ => []

/-- The four bytes of a word, most significant first (R381). -/
def wordBytes (w : Word) : List Byte :=
  [w.extractLsb' 24 8, w.extractLsb' 16 8, w.extractLsb' 8 8, w.extractLsb' 0 8]

/-- One bit of a reflected CRC over a 32-bit register. -/
def crcBitR (poly : Word) (c : Word) : Word := if c.getLsbD 0 then (c >>> 1) ^^^ poly else c >>> 1

/-- One byte of a reflected 32-bit CRC. -/
def crcByteR (poly : Word) (c : Word) (b : Byte) : Word :=
  Nat.rec (c ^^^ b.setWidth 32) (fun _ x => crcBitR poly x) 8

/-- CRC-32C of R66: polynomial 0x1EDC_6F41 reflected, initial and final XOR 0xFFFF_FFFF. -/
def crc32c (l : List Byte) : Word := ~~~(l.foldl (crcByteR 0x82F63B78#32) 0xFFFFFFFF#32)

/-- CRC-32 of R107: polynomial 0x04C1_1DB7 reflected, initial value 0xFFFF_FFFF, complemented. -/
def crc32 (l : List Byte) : Word := ~~~(l.foldl (crcByteR 0xEDB88320#32) 0xFFFFFFFF#32)

/-- One bit of the unreflected CRC-16. -/
def crcBit16 (c : BitVec 16) : BitVec 16 := if c.getLsbD 15 then (c <<< 1) ^^^ 0x1021#16 else c <<< 1

/-- CRC-16 of R337: polynomial 0x1021, initial value 0xFFFF. -/
def crc16 (l : List Byte) : BitVec 16 :=
  l.foldl (fun c b => Nat.rec (c ^^^ (b.setWidth 16 <<< 8)) (fun _ x => crcBit16 x) 8) 0xFFFF#16

/-- One bit of the PEC. -/
def crcBit8 (c : Byte) : Byte := if c.getLsbD 7 then (c <<< 1) ^^^ 0x07#8 else c <<< 1

/-- PEC of R377: CRC-8 with polynomial 0x07 and initial value 0. -/
def pec (l : List Byte) : Byte :=
  l.foldl (fun c b => Nat.rec (c ^^^ b) (fun _ x => crcBit8 x) 8) 0#8

/-- Entry i of a list used as a table. -/
def tab {α : Type} (l : List α) (i : Nat) (d : α) : α := l.getD i d

/-- Clamp of an integer; the lower bound wins. -/
def clampI (x lo hi : Int) : Int := max lo (min x hi)

end Sys2Proof.Machine
end

