-- ==== Sys2Proof/Machine/Ops.lean ====
section
/-! DEFINITION. The named operations over the state: ports, events and counters, memories, free values, the ledger (R331), the
yard and its timers (R129 to R136), and the queues of commands that a hand's step leaves behind (R135). -/

namespace Sys2Proof.Machine

/-! ## Ports -/

/-- Port p. -/
def State.port (s : State) (p : Port) : PortState := s.ports[p]

/-- Port p changed by f, and nothing else. -/
def State.onPort (s : State) (p : Port) (f : PortState → PortState) : State :=
  { s with ports := s.ports.set p (f s.ports[p]) }

/-- Every port changed by f. -/
def State.onPorts (s : State) (f : PortState → PortState) : State := { s with ports := Vector.ofFn fun p : Port => f s.ports[p] }

/-- The 48 ports in order. -/
def allPorts : List Port := List.finRange 48

/-- f run for every port of a list, in order. -/
def State.forPorts (s : State) (l : List Port) (f : State → Port → State) : State := l.foldl f s

/-- The wellhead die of a port. -/
def dieOf (p : Port) : WDie := if p.val < 24 then .w0 else .w1

/-- The sibling of a port: 2k for 2k + 1 and the other way about (R73). -/
def sibOf (p : Port) : Port := if p.val % 2 = 0 then ⟨(p.val + 1) % 48, Nat.mod_lt _ (by decide)⟩ else ⟨p.val - 1, by omega⟩

/-- The port whose stage, reference generator and loop slot serve port p (R237). -/
def State.stageOf (s : State) (p : Port) : Port := if (s.port p).cfg.twin ∧ p.val % 2 = 1 then sibOf p else p

/-- The die-to-die link of a die. -/
def State.d2 (s : State) (d : WDie) : D2d := match d with | .w0 => s.clk.d0 | .w1 => s.clk.d1

/-- Die-to-die link of a die changed. -/
def State.onD2 (s : State) (d : WDie) (f : D2d → D2d) : State :=
  match d with
  | .w0 => { s with clk.d0 := f s.clk.d0 }
  | .w1 => { s with clk.d1 := f s.clk.d1 }

/-- The die of port p is lost (R45). -/
def State.lost (s : State) (p : Port) : Bool := (s.d2 (dieOf p)).d2df

/-- W0 can be heard: its link is trained and not lost (R56, R375). -/
def State.heard (s : State) : Bool := s.clk.d0.trained && !s.clk.d0.d2df

/-- VCONN_IN of the die of port p is at 4.5 V or more (R31). -/
def State.vconnOk (s : State) (p : Port) : Bool := match dieOf p with | .w0 => s.dev.vconnIn0 | .w1 => s.dev.vconnIn1

/-- The supervisor as the core knows it: it is not in NORMAL, and WRN is set; live while W0 is heard, else as last received (R374, R375). -/
def State.supSeen (s : State) : Bool × Bool :=
  match s.heard, s.sup.held with
  | false, some (w :: _) => (decide (w.extractLsb' 0 4 ≠ 0#4), w.getLsbD 4)
  | _, _ => (decide (s.sup.st ≠ .normal), s.sup.wrn)

/-- The device runs: ports are enabled and nothing holds it (R52, R58). -/
def State.running (s : State) : Bool := s.dev.phase = .run

/-- The PWM bank and the sync tracker run: from the apply step on, but for rest and its exit (R20, R52, R61, R229). -/
def State.bankRuns (s : State) : Bool := match s.dev.phase with | .restore | .cal | .run => true | _ => false

/-- The ports have been enabled by PORTS_ENABLED, and the registers are served: in run and in rest exit (R52, R61). -/
def State.portsOn (s : State) : Bool :=
  match s.dev.phase with | .run | .wakeLinks | .wakeCal => true | _ => false

/-- The ports have been enabled by PORTS_ENABLED since the last device reset (R52, R58). -/
def State.started (s : State) : Bool :=
  match s.dev.phase with | .run | .rest | .wakePll | .wakeLinks | .wakeCal => true | _ => false

/-- The port works: the device runs, the port's pins are live and its die is there (R17, R18). -/
def State.works (s : State) (p : Port) : Bool := s.running && (s.port p).live && !s.lost p

/-- Some port fault state holds (R392). -/
def CntP.any (c : CntP) : Bool := c.fetg || c.fets || c.dscf || c.limp || c.phyx

/-- Attached as source or as sink. -/
def Tc.isSrc (t : Tc) : Bool := t.st = .attSrc
def Tc.isSnk (t : Tc) : Bool := t.st = .attSnk
def Tc.attached (t : Tc) : Bool := t.isSrc || t.isSnk

/-- The port's present role: what it is attached or attaching as, or presents, else what its class says (R89, R194, R196). -/
def PortState.sinkRole (x : PortState) : Bool :=
  match x.tc.st with
  | .attSnk => true
  | .attwaitSnk => true
  | .unattSnk => true
  | .attSrc => false
  | .attwaitSrc => false
  | .unattSrc => false
  | _ => x.cfg.role ≠ 0

/-- The port's pins keep their reset states though it has been enabled: it is disabled, or its CC PHY has failed (R17, R99). -/
def PortState.quiet (x : PortState) : Bool := decide (x.tc.st = .disabled) || x.cnt.phyx

/-- The sibling of a twinned port is attached (R169). -/
def State.sibAttached (s : State) (p : Port) : Bool := (s.port p).cfg.twin && (s.port (sibOf p)).tc.attached

/-! ## Free values -/

/-- One free value drawn (assumption 3). -/
def State.draw (s : State) : Nat × State := (Config.free s.draws, { s with draws := s.draws + 1 })

/-- A free value between two bounds. -/
def State.drawIn (s : State) (lo hi : Nat) : Nat × State :=
  (Config.between s.draws lo hi, { s with draws := s.draws + 1 })

/-! ## Arbiters and host writes -/

/-- The requester nearest at or after a round-robin pointer (R41, R428). -/
def rrPick (ptr n : Nat) (want : Nat → Bool) : Option Nat :=
  ((List.range n).map fun k => (ptr + k) % n).find? want

/-- The pointer of an arbiter of n requesters after a grant to requester k (R41). -/
def ptrAfter (n k : Nat) : Nat := (k + 1) % n

/-- The flash controller's pointer after an operation of the loader (0), the tally writer (1) or the host read path (2) (R428). -/
def flashAfter (k : Nat) : Nat := ptrAfter 3 k

/-- The cistern request port grants requester k: a hand by its number, the commons link 16, the crier 17 (R41, R428). -/
def State.cisGrant (s : State) (k : Nat) : State := { s with cis.ptr := ptrAfter 18 k }

/-- Time passes: n µs of AON time and of the supervisor's, and of XREF time while XREF runs (assumption 2). -/
def State.pass (s : State) (n : Nat) (xref : Bool) : State :=
  { s with dev := { s.dev with us := if xref then s.dev.us + n else s.dev.us, aon := s.dev.aon + n }
           sup.now := s.sup.now + n
           pwm.syncLeft := if xref then s.pwm.syncLeft - n else s.pwm.syncLeft
           mux.left := if xref then s.mux.left - 10 * n else s.mux.left }

/-- TWM is served: from the PLLs' lock on, and in the stop phase (R61, R388). In rest a transaction first wakes the device. -/
def State.served (s : State) : Bool :=
  match s.dev.phase with
  | .links | .read | .apply | .restore | .cal | .run | .wakeLinks | .wakeCal => true
  | _ => false

/-- A write that needs the unlock takes effect if the unlock is open; else the word is refused if it would have acted (R387). -/
def State.locked (s : State) (acts : Bool) (f : State → State) : State :=
  if s.dev.unlock then f s
  else if acts then { s with twi.evt := setBit s.twi.evt 0, twi.cnt := bump s.twi.cnt 2 }
  else s

/-- Committed words reach their registers in order: this word of this index is the next one, or none waits (R383). -/
def State.inOrder (s : State) (i : Nat) (w : Word) : Bool :=
  match s.twi.commits with
  | [] => true
  | (j, v) :: _ => decide (j.toNat = i) && decide (v = w)

/-- A word reaches its register by the register's own row: where registers are served, and in its order among the committed words, out of
which it is taken (R383, assumption 16). -/
def State.hostWrite (s : State) (i : Nat) (w : Word) (f : State → State) : Res State :=
  if s.served && s.inOrder i w then .next (f { s with twi.commits := s.twi.commits.tail }) else .next s

/-- Word index of a port's register (R6). -/
def portReg (p : Port) (off : Nat) : Nat := 0x1000 + 0x100 * p.val + off

/-! ## Events and counters of a port -/

def State.tcEvt (s : State) (p : Port) (i : Nat) : State := s.onPort p fun x => { x with tc.evt := setBit x.tc.evt i }
def State.tcCnt (s : State) (p : Port) (i : Fin 12) : State := s.onPort p fun x => { x with tc.cnt := bump x.tc.cnt i }
def State.pdEvt (s : State) (p : Port) (i : Nat) : State := s.onPort p fun x => { x with pd.evt := setBit x.pd.evt i }
def State.pdCnt (s : State) (p : Port) (i : Fin 13) : State := s.onPort p fun x => { x with pd.cnt := bump x.pd.cnt i }
def State.vdmEvt (s : State) (p : Port) (i : Nat) : State := s.onPort p fun x => { x with vdm.evt := setBit x.vdm.evt i }
def State.vdmCnt (s : State) (p : Port) (i : Fin 7) : State := s.onPort p fun x => { x with vdm.cnt := bump x.vdm.cnt i }
def State.slcEvt (s : State) (p : Port) (i : Nat) : State := s.onPort p fun x => { x with slc.evt := setBit x.slc.evt i }
def State.slcCnt (s : State) (p : Port) (i : Fin 8) : State := s.onPort p fun x => { x with slc.cnt := bump x.slc.cnt i }
def State.loopEvt (s : State) (p : Port) (i : Nat) : State := s.onPort p fun x => { x with loop.evt := setBit x.loop.evt i }
def State.loopCnt (s : State) (p : Port) (i : Fin 4) : State := s.onPort p fun x => { x with loop.cnt := bump x.loop.cnt i }
def State.grdEvt (s : State) (p : Port) (i : Nat) : State := s.onPort p fun x => { x with grd.evt := setBit x.grd.evt i }
def State.grdCnt (s : State) (p : Port) (i : Fin 5) : State := s.onPort p fun x => { x with grd.cnt := bump x.grd.cnt i }
def State.cisEvt (s : State) (i : Nat) : State := { s with cis.evt := setBit s.cis.evt i }
def State.cisCnt (s : State) (i : Fin 6) : State := { s with cis.cnt := bump s.cis.cnt i }
/-- The crier can post to the core: W0 is heard (R372, R375). -/
def State.crierOn (s : State) : Bool := s.heard
/-- Supervisor events and counters lie on the core die: while W0 is not heard they wait for its link (R375). -/
def State.supEvt (s : State) (i : Nat) : State :=
  if s.heard then { s with sup.evt := setBit s.sup.evt i } else { s with sup.late := setBit s.sup.late i }
def State.supCnt (s : State) (i : Fin 8) : State :=
  if s.heard then { s with sup.cnt := bump s.sup.cnt i } else { s with sup.lateCnt := bump s.sup.lateCnt i }
def State.mtrEvt (s : State) (i : Nat) : State := { s with mtr.evt := setBit s.mtr.evt i }
def State.mtrCnt (s : State) (i : Fin 7) : State := { s with mtr.cnt := bump s.mtr.cnt i }
def State.pwmCnt (s : State) (i : Fin 5) : State := { s with pwm.cnt := bump s.pwm.cnt i }
def State.twiCnt (s : State) (t : Target) (i : Fin 5) : State :=
  let b : Nat := match t with | .twm => 0 | .twa => 5 | .twb => 10 | .twc => 15
  { s with twi.cnt := bump s.twi.cnt ⟨(b + i.val) % 20, Nat.mod_lt _ (by decide)⟩ }
def State.lnkEvt (s : State) (i : Nat) : State := { s with lnk.evt := setBit s.lnk.evt i }

/-! ## Memories: byte lists in one canonical form -/

/-- Addresses rise strictly from lo on, and no entry equals what an unlisted address reads as. -/
def memWfFrom (dflt : Nat → Byte) (lo : Nat) : List Host.Cell → Bool
  | [] => true
  | (a, b) :: t => decide (lo ≤ a) && decide (b ≠ dflt a) && memWfFrom dflt (a + 1) t

/-- The canonical form of a memory. -/
def memWf (dflt : Nat → Byte) (m : List Host.Cell) : Bool := memWfFrom dflt 0 m

/-- One byte of a memory. -/
def memRead (dflt : Nat → Byte) : List Host.Cell → Nat → Byte
  | [], a => dflt a
  | (x, b) :: t, a => if x = a then b else memRead dflt t a

/-- A memory without the entry of an address. -/
def memErase : List Host.Cell → Nat → List Host.Cell
  | [], _ => []
  | (x, b) :: t, a => if x = a then t else (x, b) :: memErase t a

/-- A memory with an entry put in its place. -/
def memPut (b : Byte) : List Host.Cell → Nat → List Host.Cell
  | [], a => [(a, b)]
  | (x, c) :: t, a => if a < x then (a, b) :: (x, c) :: t else if a = x then (x, b) :: t else (x, c) :: memPut b t a

/-- One byte written; writing what an unlisted address reads as removes the entry. -/
def memWrite (dflt : Nat → Byte) (m : List Host.Cell) (a : Nat) (b : Byte) : List Host.Cell :=
  if b = dflt a then memErase m a else memPut b m a

/-- Bytes written from an address on. -/
def memWrites (dflt : Nat → Byte) (m : List Host.Cell) (a : Nat) : List Byte → List Host.Cell
  | [] => m
  | b :: t => memWrites dflt (memWrite dflt m a b) (a + 1) t

/-- n bytes read from an address on. -/
def memReads (dflt : Nat → Byte) (m : List Host.Cell) (a : Nat) : Nat → List Byte
  | 0 => []
  | n + 1 => memRead dflt m a :: memReads dflt m (a + 1) n

/-- A memory that holds a byte string from an address on and nothing else. -/
def memOf (dflt : Nat → Byte) (a : Nat) : List Byte → List Host.Cell
  | [] => []
  | b :: t => if b = dflt a then memOf dflt (a + 1) t else (a, b) :: memOf dflt (a + 1) t

/-- A memory without the entries from lo up to, not including, hi. -/
def memClear (m : List Host.Cell) (lo hi : Nat) : List Host.Cell := m.filter fun x => !(decide (lo ≤ x.1) && decide (x.1 < hi))

/-- What an unlisted byte of a memory without reset contents reads as (assumption 8). -/
def zeroByte (_ : Nat) : Byte := 0#8

/-- A pair of 32-bit words, each by its value, in rising order and never equal: the lower and the upper bound (R263). -/
def boundPair (a b top : Int) : Int × Int :=
  let lo := min a b
  let hi := max a b
  if lo < hi then (lo, hi) else if hi < top then (lo, hi + 1) else (lo - 1, hi)

/-- The free word at an offset of a ROM coefficient set. -/
def romWord (long : Bool) (khz o : Nat) : Word :=
  (Config.romCoef long khz o ++ Config.romCoef long khz (o + 1) ++ Config.romCoef long khz (o + 2) ++ Config.romCoef long khz (o + 3) :
    BitVec 32)

/-- A byte of a stage record of a ROM coefficient set, at offset k of the record, of which f is the free byte: a long record's EXP lies in −24
to +7, and reserved bytes are 0 (R264). -/
def romRecord (long : Bool) (k : Nat) (f : Byte) : Byte :=
  if long then
    if k = 0x0F then BitVec.ofInt 8 ((f.toNat % 32 : Nat) - 24) else if 0x10 ≤ k then 0#8 else f
  else if 0x16 ≤ k then 0#8 else f

/-- NV and NI of a ROM coefficient set (R263). -/
def romNv (long : Bool) (khz : Nat) : Nat :=
  let f := (Config.romCoef long khz 1).toNat
  if long then 4 + f % 5 else 1 + f % 3
def romNi (long : Bool) (khz : Nat) : Nat := 1 + (Config.romCoef long khz 2).toNat % 3

/-- A byte of a ROM coefficient set: free, but for what its header and its records must meet (R263, R264, R267, assumption 5). -/
def romSet (long : Bool) (khz o : Nat) : Byte :=
  let f := Config.romCoef long khz o
  let of' (at' : Nat) (v : Int) : Byte := (BitVec.ofInt 32 v).extractLsb' (8 * (3 - (o - at'))) 8
  let signed (lo hi : Nat) : Int × Int := boundPair (romWord long khz lo).toInt (romWord long khz hi).toInt 2147483647
  if o = 0 then (if long then 1#8 else 0#8)
  else if o = 1 then BitVec.ofNat 8 (romNv long khz)
  else if o = 2 then BitVec.ofNat 8 (romNi long khz)
  else if o = 3 then f &&& 1#8
  else if o = 0x18 then f &&& 0x7F#8
  else if o = 0x1A ∨ o = 0x1B ∨ (0x36 ≤ o ∧ o < 0x40) then 0#8
  else if 0x1C ≤ o ∧ o < 0x20 then of' 0x1C (signed 0x1C 0x20).1
  else if 0x20 ≤ o ∧ o < 0x24 then of' 0x20 (signed 0x1C 0x20).2
  else if 0x24 ≤ o ∧ o < 0x28 then of' 0x24 (signed 0x24 0x28).1
  else if 0x28 ≤ o ∧ o < 0x2C then of' 0x28 (signed 0x24 0x28).2
  else if 0x2C ≤ o ∧ o < 0x30 then of' 0x2C (boundPair (romWord long khz 0x2C).toNat (romWord long khz 0x30).toNat 4294967295).1
  else if 0x30 ≤ o ∧ o < 0x34 then of' 0x30 (boundPair (romWord long khz 0x2C).toNat (romWord long khz 0x30).toNat 4294967295).2
  else if o = 0x34 then BitVec.ofNat 8 ((900 + (romWord long khz 0x34).toNat % 5101) / 256)
  else if o = 0x35 then BitVec.ofNat 8 ((900 + (romWord long khz 0x34).toNat % 5101) % 256)
  else if 0x40 ≤ o ∧ o < 0x40 + (if long then 20 else 24) * (romNv long khz + romNi long khz) then
    romRecord long ((o - 0x40) % (if long then 20 else 24)) f
  else f

/-- What an unlisted byte of the trough reads as: a byte of the ROM coefficient set that the slot was loaded with, else 0. -/
def Trough.dflt (t : Trough) (a : Nat) : Byte :=
  if h : a / 4096 < 48 then
    match t.rom[a / 4096] with
    | some (long, khz) => if a % 4096 < (if long then 512 else 256) then romSet long khz (a % 4096) else 0#8
    | none => 0#8
  else 0#8

def Trough.read (t : Trough) (a : Nat) : Byte := memRead t.dflt t.cells a
def Trough.word (t : Trough) (a : Nat) : Word := BitVec.ofNat 32 (beNat (memReads t.dflt t.cells a 4))
def Trough.write (t : Trough) (a : Nat) (l : List Byte) : Trough := { t with cells := memWrites t.dflt t.cells a l }
def Trough.wf (t : Trough) : Bool := memWf t.dflt t.cells

/-- A byte of program memory: an unlisted one is 0 (R291). The ROM programs have no bytes here (assumption 5). -/
def Prog.read (m : Prog) (a : Nat) : Byte := memRead zeroByte m.cells a
def Prog.wf (m : Prog) : Bool := memWf zeroByte m.cells

/-- Trough address of port p's slot (R243). -/
def slotAt (p : Port) : Nat := 4096 * p.val

/-- The port data and state line of a port's trough slot cleared (R244). -/
def State.slotClear (s : State) (p : Port) : State :=
  { s with trough := { s.trough with cells := memClear s.trough.cells (slotAt p + 0x400) (slotAt p + 0xC00) } }

/-- Every sample of a port is aborted: it commits nothing and stores nothing, and its slot has none in progress (R50, R268, R298). -/
def State.abortSamples (s : State) (p : Port) : State :=
  { (s.onPort p fun x => { x with loop := { x.loop with running := false } }) with
    pmp.pumps := Vector.ofFn fun i => match s.pmp.pumps[i] with
      | some x => if x.port = p then none else some x
      | none => none }

/-! ## The ledger (R331) -/

def State.homeNow (s : State) : Nat := if s.cis.reserve then s.alm.cfg.resHome else s.alm.cfg.home
def State.guardNow (s : State) : Nat := if s.cis.reserve then s.alm.cfg.resGuard else s.alm.cfg.guard

/-- Sum of the amounts of the loans of one kind in force. -/
def loanSum (v : Vector Loan 32) (lent : Bool) : Nat :=
  v.toList.foldl (fun a l => if l.valid && (l.lent == lent) then a + l.amount else a) 0

def State.borrowed (s : State) : Nat := loanSum s.cis.loans false
def State.lent (s : State) : Nat := loanSum s.cis.loans true
def State.inflow (s : State) : Nat := s.ports.toList.foldl (fun a x => a + x.pd.inflow) 0
def State.pledged (s : State) : Nat := s.ports.toList.foldl (fun a x => a + x.pd.pledge) 0
def State.charged (s : State) : Nat := s.ports.toList.foldl (fun a x => a + x.pd.charge) 0
def State.held (s : State) : Int := s.homeNow + s.borrowed - s.lent + s.inflow
def State.committed (s : State) : Nat := s.charged + s.pledged
/-- The ledger is empty until the apply step of R52 gives the cistern its profile (R333). -/
def State.cisOn (s : State) : Bool :=
  match s.dev.phase with
  | .reset | .clock | .pll | .links | .read | .apply => false
  | _ => true
def State.free (s : State) : Int := if s.cisOn then s.held - s.committed - s.guardNow else 0
/-- Selected cuts not yet credited (R166). -/
def State.cuts (s : State) : Nat := s.ports.toList.foldl (fun a x => a + x.pd.cut) 0
/-- D of R166 for a deficit now, and for one ahead of a lease end (R353). -/
def State.dNow (s : State) : Int := -s.free + s.cis.ahead - s.cuts
/-- The default charge of a class Rp level (R141). -/
def defaultCharge (rp : Nat) : Nat := tab [45, 75, 150] rp 150
/-- The Type-C current of a class Rp level in mA (R72, R200). -/
def typeCma (rp : Nat) : Nat := tab [900, 1500, 3000] rp 3000
/-- The spare of R334. -/
def State.spare (s : State) : Nat := if s.cis.reserve then 0 else (s.free - s.alm.cfg.lendKeep).toNat

/-! ## The yard -/

/-- The records that are free from the end of the step that runs (R131). -/
def Hnd.ending (h : Hnd) : List (Option Port × Bool) := match h.step with | some x => x.recs | none => []

/-- Records in use: a port's own, and the shared ones (R131). -/
def Hnd.ownUsed (h : Hnd) (p : Port) : Nat :=
  (h.ready.filter fun r => !r.shared && r.port = some p).length +
  (h.timers.filter fun t => t.place = some false && t.port = p).length +
  (h.ending.filter fun r => !r.2 && r.1 = some p).length
def Hnd.sharedUsed (h : Hnd) : Nat :=
  (h.ready.filter (·.shared)).length + (h.timers.filter fun t => t.place = some true).length + (h.ending.filter (·.2)).length
def Hnd.inUse (h : Hnd) : Nat := h.ready.length + (h.timers.filter fun t => t.place.isSome).length + h.ending.length

/-- The record a request may use: the port's own 128 first, then the shared 2,048, of which 16 are kept for class 0 (R131).
The answer is whether the record is shared. -/
def Hnd.findRec (h : Hnd) (p : Option Port) (cls : Nat) : Option Bool :=
  match p with
  | some q => if h.ownUsed q < 128 then some false else if h.sharedUsed < (if cls = 0 then 2048 else 2032) then some true else none
  | none => if h.sharedUsed < (if cls = 0 then 2048 else 2032) then some true else none

/-- The high-water mark after a change (R131, R395). -/
def Hnd.mark (h : Hnd) : Hnd := { h with sharedHwm := max h.sharedHwm h.sharedUsed }

/-- A block asks the yard arbiter for an event (R428, R130). -/
def State.post (s : State) (from' : Nat) (p : Option Port) (cls : Nat) (e : EvCode) : State :=
  { s with hnd.reqs := s.hnd.reqs ++ [⟨from', p, cls, e, false⟩] }

/-- The port's own block asks (requester p of R428). -/
def State.postPort (s : State) (p : Port) (cls : Nat) (e : EvCode) : State := s.post p.val (some p) cls e

/-- A notice that no row takes (R130): the port's own block asks, or a device-wide requester. -/
def State.note (s : State) (from' : Nat) (p : Option Port) (cls : Nat) (n : Note) : State := s.post from' p cls (.note n)

/-- The connection machine of port p reports a change of its state (class 2, R130). -/
def State.noteConn (s : State) (p : Port) : State := s.note p.val (some p) 2 .conn

/-- The minimum and maximum of a timer in µs (R137, R177, R138, R174, R180). -/
def timerBounds : TimerId → Nat × Nat
  | .senderResponse => (27000, 33000)
  | .vconnStable => (50000, 55000)
  | .typeCSendSourceCap => (100000, 200000)
  | .srcTransition => (25000, 35000)
  | .transitionLimit => (500000, 500000)
  | .waitWindow => (200000, 210000)
  | .rejectResend => (100000, 100000)
  | .sinkWaitCap => (310000, 620000)
  | .psTransition => (450000, 550000)
  | .sinkRequest => (100000, 110000)
  | .psHardReset => (25000, 35000)
  | .srcRecover => (660000, 1000000)
  | .sinkHardReset => (2000000, 2000000)
  | .ppsTimeout => (12000000, 15000000)
  | .sourceEprKeepAlive => (750000, 1000000)
  | .sinkEprKeepAlive => (375000, 500000)
  | .vconnSourceOn => (100000, 100000)
  | .shedLimit => (500000, 510000)
  | .reofferSpacing => (1000000, 1000000)
  | .alertWait => (1000000, 1000000)
  | .discoverIdentity => (40000, 50000)
  | .cableLimit => (235000, 235000)
  | .cableResponse => (24000, 30000)
  | .partnerDiscovery => (5000, 6000)
  | .vdmBusy => (50000, 55000)
  | .vdmSenderResponse => (24000, 30000)
  | .vdmWaitModeEntry => (40000, 50000)
  | .irqHpdLow => (700, 800)
  | .receiverResponse => (15000, 15000)
  | .firstSourceCap => (250000, 250000)
  | .safe0V => (650000, 650000)
  | .srcTurnOn => (275000, 275000)
  | .enterEpr => (500000, 500000)

/-- The timers of R137 that bound what the port itself does: nothing follows from their expiry (assumption 13). -/
def timerBound : TimerId → Bool
  | .receiverResponse => true
  | .firstSourceCap => true
  | .safe0V => true
  | .srcTurnOn => true
  | .enterEpr => true
  | _ => false

/-- Timer records freed: those that a hand's step frees stay in use to its end (R131). -/
def Hnd.freeTimers (h : Hnd) (f : TimerRec → Bool) : Hnd :=
  { h with
    timers := h.timers.filter fun r => !f r
    step := h.step.map fun x => { x with
      recs := x.recs ++ (h.timers.filter f).filterMap fun r => r.place.map fun b => (some r.port, b) } }

/-- The record of timer t of port p. -/
def isTimer (p : Port) (t : TimerId) (r : TimerRec) : Bool := decide (r.port = p) && decide (r.id = t)

/-- A timer disarmed: its record is freed and its generation is no longer the context's, so an expiry already accepted is stale
(R132). -/
def State.disarm (s : State) (p : Port) (t : TimerId) : State :=
  { (s.onPort p fun x => { x with pd.live := x.pd.live.filter fun e => e.1 ≠ t }) with
    hnd := s.hnd.freeTimers (isTimer p t) }

/-- A timer's record is written anew: an armed timer keeps the record it has, and its place among those that wait. -/
def Hnd.rearm (h : Hnd) (r : TimerRec) : Hnd :=
  { h with timers := h.timers.map fun x => if isTimer r.port r.id x then { r with place := x.place } else x }

/-- A timer takes a record, or waits for one; the wait counts once (R132). -/
def Hnd.armNew (h : Hnd) (r : TimerRec) : Hnd :=
  let place := h.findRec (some r.port) 2
  let h := { h with timers := h.timers ++ [{ r with place := place }] }
  if place.isNone then { h with evt := setBit h.evt 0, fullCnt := satInc h.fullCnt } else h

/-- A timer armed or re-armed: EXPIRY, in XREF time modulo 2^32, and a new TAG are fixed now (R129, R132). The time lies between the
timer's bounds. -/
def State.arm (s : State) (p : Port) (t : TimerId) : State :=
  let (d, s) := s.drawIn (timerBounds t).1 (timerBounds t).2
  let tag := s.hnd.tagNext
  let s := s.onPort p fun x => { x with pd.live := (t, tag) :: x.pd.live.filter fun e => e.1 ≠ t }
  let r : TimerRec := ⟨p, t, BitVec.ofNat 32 (s.dev.us + d), tag, none⟩
  let h : Hnd := { s.hnd with tagNext := tag + 1#16 }
  { s with hnd := (if h.timers.any (isTimer p t) then h.rearm r else h.armNew r).mark }

/-- Every timer of a port disarmed. -/
def State.disarmAll (s : State) (p : Port) : State :=
  { (s.onPort p fun x => { x with pd.live := [] }) with hnd := s.hnd.freeTimers fun r => decide (r.port = p) }

/-- Records, requests and context of a port whose die is lost are freed (R45, R48). -/
def State.yardClear (s : State) (p : Port) : State :=
  let s := s.disarmAll p
  { s with hnd.ready := s.hnd.ready.filter fun r => r.port ≠ some p
           hnd.reqs := s.hnd.reqs.filter fun r => r.port ≠ some p }

/-- A port reset clears the port's context and timers; an event that is already ready is discarded when a hand takes it (R48, R136). -/
def State.yardDrop (s : State) (p : Port) : State :=
  let s := s.disarmAll p
  { s with hnd.ready := s.hnd.ready.map fun r => if r.port = some p then { r with dead := true } else r
           hnd.reqs := s.hnd.reqs.filter fun r => r.port ≠ some p }

/-- The home hand of a port (R133). -/
def homeHand (p : Port) : Nat := p.val / 3

/-- The earliest accepted among the records of the lowest class. Records stand in order of acceptance. -/
def earliest (l : List YardRec) : Option YardRec :=
  l.foldl (fun best r => match best with
    | none => some r
    | some b => if r.cls < b.cls then some r else some b) none

/-- The event that free hand h chooses (R133): class 0 of any port; else lowest class of its home ports; else lowest class of any
other port or the device-wide port. -/
def Hnd.choose (h : Hnd) (hand : Hand) : Option YardRec :=
  match h.ready.find? (fun r => r.cls = 0) with
  | some r => some r
  | none =>
    match earliest (h.ready.filter fun r => match r.port with | some p => homeHand p = hand.val | none => false) with
    | some r => some r
    | none => earliest h.ready

/-- Nothing follows from the event: its port has been reset since, its message has gone, or all that follows was done with its cause
(R136, assumption 13). -/
def YardRec.silent (r : YardRec) : Bool := r.dead || match r.ev with | .note _ => true | .timer t _ => timerBound t | _ => false

/-- The most POL cycles that a step on an event takes: 0.3 µs for a Hard Reset, 1.2 µs for any other (R135, R400). -/
def EvCode.stepMax : EvCode → Nat
  | .hardReset => 120
  | _ => 480

/-- Hand h begins its step on record r: a steal counts, and the step's length enters HND_STEP_MAX (R131, R133, R135, R400). -/
def State.beginStep (s : State) (hand : Hand) (r : YardRec) : State :=
  let steal := match r.port with | some q => decide (homeHand q ≠ hand.val) && decide (r.cls ≠ 0) | none => false
  let (n, s) := s.drawIn 1 r.ev.stepMax
  { s with hnd := { s.hnd with
    ready := s.hnd.ready.erase r
    step := some ⟨hand, [(r.port, r.shared)]⟩
    stealCnt := if steal then satInc s.hnd.stealCnt else s.hnd.stealCnt
    stepMax := max s.hnd.stepMax n } }

/-- The step ends: the records of its event and of the timers it disarmed are free (R131). -/
def State.endStep (s : State) : State := { s with hnd.step := none }

/-- Hand h runs its steps on the events that it chooses first and from which nothing follows: each is discarded by a step (R131). -/
def State.skipSilent (hand : Hand) : Nat → State → State
  | 0, s => s
  | n + 1, s =>
    match s.hnd.choose hand with
    | some r => if r.silent then State.skipSilent hand n (s.beginStep hand r).endStep else s
    | none => s

/-- The sixteen hands of a running device discard what is silent at the head of their choice. -/
def State.skipAll (s : State) : State :=
  if s.running then (List.finRange 16).foldl (fun s h => State.skipSilent h s.hnd.ready.length s) s else s

/-- Hand h begins a step on the event it chooses, when that is event e of port p. -/
def State.take (s : State) (hand : Hand) (p : Option Port) (e : EvCode → Bool) : Option (EvCode × State) :=
  let s := State.skipSilent hand s.hnd.ready.length s
  match s.hnd.choose hand with
  | none => none
  | some r => if r.port = p && e r.ev && !r.silent then some (r.ev, s.beginStep hand r) else none

/-- A command by which a hand of a running device takes event e of port p: the step f runs to its end (R133, R135). -/
def State.handStep (s : State) (hand : Hand) (p : Option Port) (e : EvCode → Bool) (f : EvCode → State → State) : Res State :=
  if !s.running then .next s else
  match s.take hand p e with
  | some (c, s) => .next (f c s).endStep
  | none => .next s

/-- The hand whose step runs; for what the table gives no hand, the port's home hand. -/
def State.handNow (s : State) (p : Port) : Nat := match s.hnd.step with | some x => x.hand.val | none => homeHand p

/-- A step of hand h on a message event of port p: the oldest received message is taken out of its place (R108). -/
def State.takeMsg (s : State) (hand : Hand) (p : Port) (f : RxMsg → Bool) : Option (RxMsg × State) :=
  match (s.port p).prot.rx with
  | [] => none
  | m :: t =>
    if f m then
      match s.take hand (some p) (fun e => e = .msg) with
      | some (_, s) => some (m, s.onPort p fun x => { x with prot.rx := t })
      | none => none
    else none

/-- A step of hand h on the expiry of one of some timers of port p; an expiry whose TAG is not the context's is stale, and the step discards
it (R132). -/
def State.timersStep (s : State) (hand : Hand) (p : Port) (ts : TimerId → Bool) (f : TimerId → State → State) : Res State :=
  s.handStep hand (some p) (fun e => match e with | .timer u _ => ts u | _ => false) fun c s =>
    match c with
    | .timer t tag =>
      if (s.port p).pd.live.contains (t, tag) then
        f t (s.onPort p fun x => { x with pd.live := x.pd.live.filter fun e => e.1 ≠ t })
      else s
    | _ => s

/-- A step of hand h on the expiry of timer t of port p. -/
def State.timerStep (s : State) (hand : Hand) (p : Port) (t : TimerId) (f : State → State) : Res State :=
  s.timersStep hand p (fun u => decide (u = t)) fun _ => f

/-! ## MessageIDs (R108, R109) -/

def idOf (l : List (Sop × BitVec 3)) (k : Sop) : Option (BitVec 3) := (l.find? fun e => decide (e.1 = k)).map (·.2)

def setId (l : List (Sop × BitVec 3)) (k : Sop) (i : BitVec 3) : List (Sop × BitVec 3) :=
  (k, i) :: l.filter fun e => decide (e.1 ≠ k)

/-- The MessageID of the next transmission on an SOP* kind. -/
def Prot.txId (t : Prot) (k : Sop) : BitVec 3 := (idOf t.nextId k).getD 0#3

/-- A transmission has ended for good: the next one takes the next MessageID. -/
def Prot.txDone (t : Prot) (k : Sop) : Prot :=
  { t with await := none, tries := 0, nextId := setId t.nextId k (t.txId k + 1#3) }

/-! ## What a step leaves behind (R135) -/

/-- A message handed to the protocol layer; in the stop phase the hands start no new message (R49). -/
def State.send (s : State) (p : Port) (kd : Sop) (k : TxKind) (m : PdMsg) : State :=
  if s.dev.stop.isSome then s else s.onPort p fun x => { x with prot.txq := x.prot.txq ++ [⟨kd, k, m⟩] }

def State.slcCmd (s : State) (p : Port) (c : SlcCmd) : State := s.onPort p fun x => { x with pd.slcq := x.pd.slcq ++ [c] }
def State.stgCmd (s : State) (p : Port) (c : StgCmd) : State := s.onPort p fun x => { x with pd.stgq := x.pd.stgq ++ [c] }

end Sys2Proof.Machine
end

