-- ==== Sys2Proof/Machine/PortOps.lean ====
section
/-! DEFINITION. What several blocks share about one port: the mux nibble (R188, R189), the end of a mode (R184), the release of its
credits (R164), detach, ErrorRecovery (R97), GUARD_OFF (R116, R117, R125), the port fault states (R219, R392, R393), the stage's
stop (R223, R234) and the cistern's deficit and shed (R166). -/

namespace Sys2Proof.Machine

/-! ## Codes -/

/-- TC_STAT.STATE (R91). -/
def ConnState.code : ConnState → Nat
  | .disabled => 0 | .unattSrc => 1 | .attwaitSrc => 2 | .attSrc => 3 | .unattSnk => 4 | .attwaitSnk => 5
  | .attSnk => 6 | .errRecov => 7 | .selftest => 8 | .guardOff => 9 | .fault => 15

/-- SLC_STAT.STATE (R195). -/
def SlcState.code : SlcState → Nat
  | .off => 0 | .ramp => 1 | .on => 2 | .limit => 3 | .trip => 4 | .retryWait => 5 | .discharge => 6 | .fault => 7

/-- The unattached state of a port's role (R91). -/
def unattOf (role : Nat) : ConnState := if role = 0 then .unattSrc else .unattSnk

/-! ## Mux chain requests -/

/-- A port's nibble (R188, R189). -/
def State.nibble (s : State) (p : Port) : BitVec 4 :=
  let x := s.port p
  let m := x.vdm.entered && decide (x.vdm.st = .mode)
  if s.alm.cfg.altmode && x.tc.attached then
    BitVec.ofNat 4 (bitAt 0 x.tc.orient +
      (if m then field 1 2 (tab (s.alm.cfg.svids.map SvidEntry.muxSel) x.vdm.entry 0) else 0) + bitAt 3 (m && x.vdm.hpd))
  else 0#4

/-- The requests that hand k may put to the mux arbiter: its oldest one, unless another hand's older one is for the same port, since a
port's updates keep the order of the steps that issued them (R193). -/
def Mux.head (m : Mux) (k : Nat) : Option MuxReq :=
  match m.reqs.find? fun r => decide (r.hand = k) with
  | some r => if m.reqs.find? (fun q => decide (q.port = r.port)) = some r then some r else none
  | none => none

/-- The cycle of the update window in which the next grant can be made: the present one, or the first without a grant (R190). -/
def Mux.cycle (m : Mux) : Nat := max (16 - m.left) m.used

/-- One grant of the mux chain arbiter: the requester nearest at or after the pointer writes its nibble, in a cycle of its own (R41,
R190). -/
def Mux.grant (m : Mux) : Mux :=
  match rrPick m.ptr 16 (fun k => (m.head k).isSome) with
  | none => m
  | some k =>
    match m.head k with
    | none => m
    | some r => { m with ptr := ptrAfter 16 k, reqs := m.reqs.erase r, next := m.next.set r.port r.nib, used := m.cycle + 1 }

/-- Grants while the update window is open, one in each of its cycles (R190). -/
def Mux.window : Nat → Mux → Mux
  | 0, m => m
  | n + 1, m => if m.reqs.isEmpty then m else Mux.window n m.grant

/-- A nibble update is issued: it joins the present frame if its update window is still open, else it waits for the next (R190). -/
def Mux.issue (m : Mux) (r : MuxReq) : Mux :=
  let m := { m with reqs := m.reqs ++ [r] }
  if m.busy ∧ 0 < m.left ∧ m.cycle < 16 then m.grant else m

/-- A hand's step issues a nibble update (R135, R190); the port's home hand stands for a step that the table gives no hand. -/
def State.muxUpdate (s : State) (p : Port) : State :=
  if s.alm.cfg.altmode then { s with mux := s.mux.issue ⟨s.handNow p, p, s.nibble p⟩ } else s

/-! ## VDM and messages -/

/-- VDM timers disarmed. -/
def State.vdmQuiet (s : State) (p : Port) : State :=
  [TimerId.discoverIdentity, .cableLimit, .cableResponse, .partnerDiscovery, .vdmBusy, .vdmSenderResponse, .vdmWaitModeEntry, .irqHpdLow].foldl
    (fun s t => s.disarm p t) s

/-- The end of a mode without Exit Mode (R184), and of any VDM exchange. -/
def State.endMode (s : State) (p : Port) : State :=
  let was := (s.port p).vdm.entered
  let s := s.vdmQuiet p
  let s := s.onPort p fun x => { x with vdm := { x.vdm with
    st := .idle, entry := 0, left := [], svids := [], rounds := 0, entered := false, hpd := false, intr := false, out := none,
    busies := 0, tries := 0, waiting := false, lowTime := false, lowHpd := false, lowIrq := false, ready := false
    cab := .idle, cabOut := none, cabIntr := false } }
  if was then s.vdmEvt p 2 else s

/-- The messages of a port have gone: a hand that takes one of their events discards it, and those not yet accepted are withdrawn. -/
def State.dropMsgs (s : State) (p : Port) : State :=
  { s with hnd.ready := s.hnd.ready.map fun r => if r.port = some p ∧ r.ev = .msg then { r with dead := true } else r
           hnd.reqs := s.hnd.reqs.filter fun r => !(decide (r.port = some p) && decide (r.ev = .msg)) }

/-- The protocol layer emptied: nothing waits to be sent or to be taken. -/
def State.protReset (s : State) (p : Port) : State :=
  (s.onPort p fun x => { x with prot := Prot.reset }).dropMsgs p

/-! ## The stage -/

/-- DEN and both outputs low at once, target and REF 0, no triggers (R223). -/
def Stg.halt (g : Stg) : Stg :=
  { g with target := 0, kind := .dflt, ref := 0, trim := 0, den := false, pwm := false, stopping := false,
           band := 3, limpPi := false, settled := false, da := 0, db := 0, hold := false, wait := 0, fallA := 0, fallB := 0 }

/-- A port reset of the loop slot: MANUAL with M = 0; its events, its enables, and what its last samples showed stay (R48, R252). -/
def Loop.portReset (l : Loop) : Loop :=
  { Loop.reset with evt := l.evt, ie := l.ie, cycLast := l.cycLast, wait := l.wait, trapCode := l.trapCode, trapAt := l.trapAt
                    user := l.user }

/-- CNT_FLT.FIRST of the fault states that hold after others were cleared (R393). -/
def CntP.firstOf (c : CntP) : Nat :=
  if c.fetg then 1 else if c.fets then 2 else if c.dscf then 3 else if c.limp then 4 else if c.phyx then 5 else 0

/-- The fault states that hold when a port reset is accepted are cleared; those entered since then, while it waited for the limp PI, stay
(R393, R394). -/
def CntP.clear (c : CntP) : CntP :=
  let d := { c with fetg := c.fetg && c.since.contains 1, fets := c.fets && c.since.contains 2, dscf := c.dscf && c.since.contains 3
                    limp := false, phyx := c.phyx && c.since.contains 5, limpWait := false, since := [] }
  { d with first := d.firstOf }

/-- VBS stands below vSafe0V, as measured last. -/
def PortState.vbsLow (x : PortState) : Bool := decide (x.stg.meas.vbs < 800000)

/-- A window of the FET-short check opens: it has seen nothing yet, and what the one before it had seen is cleared (R218). -/
def Slc.openWindow (c : Slc) : Slc := { c with window := true, seenLow := false, seenLowS := false }

/-- SLC_STAT.FCAUSE and CNT_FLT.FIRST codes (R393). -/
inductive FaultKind where
  | fetg | fets | dscf | limp | phyx
  deriving DecidableEq, Repr

def FaultKind.code : FaultKind → Nat
  | .fetg => 1 | .fets => 2 | .dscf => 3 | .limp => 4 | .phyx => 5

def CntP.put (c : CntP) (k : FaultKind) : CntP :=
  let c := { c with first := if c.first = 0 then k.code else c.first, evt := setBit c.evt 0, faultCnt := satInc c.faultCnt
                    since := if c.limpWait then k.code :: c.since else c.since }
  match k with
  | .fetg => { c with fetg := true }
  | .fets => { c with fets := true }
  | .dscf => { c with dscf := true }
  | .limp => { c with limp := true }
  | .phyx => { c with phyx := true }

def CntP.has (c : CntP) : FaultKind → Bool
  | .fetg => c.fetg | .fets => c.fets | .dscf => c.dscf | .limp => c.limp | .phyx => c.phyx

/-- The sluice of a port that enters a fault state (R219): in FETG and FETS the discharge FET is on while VBC stands above vSafe0V; in
LIMP the sluice passes through DISCHARGE. DESIGN CHOICE (assumption 109): a window of the FET-short check that is open stays open in FAULT, of
which R218 does not speak. -/
def Slc.fault (c : Slc) (k : FaultKind) (sink : Bool) : Slc :=
  let d := { c with st := .fault, limOn := false, phase := .none, onReq := false, offIn := false, retry := false, from' := none }
  match k with
  | .fetg => { d with dsc := !c.low0 }
  | .fets => { d with dsc := !c.low0 }
  | .dscf => { d with dsc := false }
  | .phyx => { d with dsc := false }
  | .limp =>
    match c.st with
    | .off => { d with dsc := false }
    | .retryWait => { d with dsc := false }
    | .fault => { d with dsc := c.dsc }
    | _ => { d with st := .discharge, dsc := !sink }

/-- The fault that governs the power path: the first of those that hold, but for FETS, which always does (R219, R393). -/
def CntP.governs (c : CntP) : Option FaultKind :=
  if c.fets then some .fets
  else match c.first with | 1 => some .fetg | 3 => some .dscf | 4 => some .limp | 5 => some .phyx | _ => none

/-! ## What coincides at the sluice (R216) -/

/-- The sluice as a RAMP or a TRIP found it that began at AON time t. -/
def PortState.wasAt (x : PortState) (t : Nat) : Option Slc :=
  match x.slcWas with
  | some (u, c) => if u = t then some c else none
  | none => none

/-- A RAMP or a TRIP begins at AON time t: what it finds is kept, unless an earlier one of the same microsecond has left its own. -/
def PortState.keepWas (t : Nat) (x : PortState) : PortState := { x with slcWas := some (t, (x.wasAt t).getD x.slc) }

/-- Event bit i and its counter as they were: the happening that changed them has lost. -/
def Slc.undoAt (c was : Slc) (i : Fin 8) : Slc :=
  { c with evt := if was.evt.getLsbD i.val then c.evt else w1c c.evt (1#32 <<< i.val), cnt := c.cnt.set i (if was.cnt[i] < c.cnt[i] then was.cnt[i] else c.cnt[i]) }

/-- The event and the counter of a trip's cause (R204 to R206, R199). -/
def tripBit : Nat → Fin 8
  | 1 => 2 | 2 => 3 | 3 => 4 | _ => 5

/-- The sluice as if its RAMP, and the TRIP after it, had not begun. -/
def Slc.undo (c was : Slc) : Slc :=
  { (c.undoAt was 0).undoAt was 6 with
    st := was.st, limOn := was.limOn, phase := was.phase, window := was.window, dsc := was.dsc, tcause := was.tcause, retries := was.retries }

/-- A RAMP or a TRIP that began at AON time t, the microsecond at hand, loses to a fault state and has not happened. -/
def PortState.undo (t : Nat) (x : PortState) : PortState :=
  match x.wasAt t, x.slc.st with
  | some was, .ramp => { x with slc := x.slc.undo was }
  | some was, .trip => { x with
      slc := (x.slc.undoAt was (tripBit x.slc.tcause)).undo was
      met := { x.met with trips := if x.met.trips = 0xFFFFFFFF then x.met.trips else x.met.trips - 1 } }
  | _, _ => x

/-- A port reset clears the guard's conditions and restarts their timers: a condition that is still present sets again after its full set
time (R128); what the block last measured stays. -/
def GrdP.portReset (g : GrdP) : GrdP :=
  { GrdP.reset with
    evt := g.evt, ie := g.ie, us := g.us, frame := g.frame, z := g.z, zcc1 := g.zcc1, zcc2 := g.zcc2, vdc := g.vdc, temp := g.temp
    fNtc := g.fNtc, wasF := g.wasF }

/-- What a port reset does to the port itself as it runs: blocks, counters, the fault states that held when it was accepted, the loop slot,
and the sluice that leaves FAULT for OFF, or takes the path of a fault that came since (R48, R50, R128, R219, R221, R393, R394). DESIGN
CHOICE (assumption 109): SLC_STAT.RETRIES and TCAUSE are no counters of R48 and stay. -/
def PortState.beginReset (x : PortState) : PortState :=
  let c := { x.cnt.clear with busy := true }
  let k := { x.slc with cnt := Slc.reset.cnt, onReq := false, retry := false, gck := false }
  { x with
    tc := { x.tc with cnt := Tc.reset.cnt }
    prot := Prot.reset
    pd := { Pd.reset with evt := x.pd.evt, ie := x.pd.ie }
    vdm := { VdmP.reset with evt := x.vdm.evt, ie := x.vdm.ie }
    slc := match c.governs with
      | some f => k.fault f x.sinkRole
      | none => if k.st = .fault then { k.openWindow with st := .off, dsc := false } else k
    grd := x.grd.portReset
    cnt := c
    loop := x.loop.portReset
    stg := { x.stg with hold := false }
    prior := none, slcWas := none }

/-- A port reset accepted in LIMP while DEN is high: it waits for the limp PI (R394). -/
def PortState.awaitReset (x : PortState) : PortState := { x with cnt := { x.cnt with busy := true, limpWait := true, since := [] } }

/-- The stage that serves port p is halted: it runs again only on a new start command, so neither twin's hand holds it on and a start
that was held is gone; a mode write that waited for a trigger takes effect (R223, R259). -/
def State.stageHalt (s : State) (p : Port) : State :=
  let s := if (s.port p).cfg.twin then
      (s.onPort p fun x => { x with stg := { x.stg with hold := false } }).onPort (sibOf p) fun x => { x with stg := { x.stg with hold := false } }
    else s
  s.onPort (s.stageOf p) fun x => { x with
    prior := none
    stg := x.stg.halt
    loop := if x.loop.manPend then { x.loop with auto := false, host := true, manPend := false, preset := false, ready := false
                                                 trig := false, held := false }
            else { x.loop with ready := false, trig := false, held := false } }

/-! ## Credits -/

/-- The port's whole charge, pledge and inflow released (R164). -/
def State.release (s : State) (p : Port) : State :=
  s.onPort p fun x => { x with pd := { x.pd with charge := 0, pledge := 0, inflow := 0, cut := 0 } }

/-- FREE became negative (CIS_EVT.DEFICIT). -/
def State.noteFree (s : State) (old : Int) : State := if 0 ≤ old ∧ s.free < 0 then (s.cisEvt 0).cisCnt 5 else s

/-! ## Leaving an attachment -/

/-- The policy state of a port that is not attached: only the registers that no detach clears (PD_OFFER describes the last offer),
and the commands already issued, stay. -/
def Pd.detached (d : Pd) : Pd :=
  { Pd.reset with hrc := d.hrc, evt := d.evt, ie := d.ie, cnt := d.cnt, slcq := d.slcq, stgq := d.stgq, charge := d.charge
                  pledge := d.pledge, inflow := d.inflow, cut := d.cut, ocp := d.ocp
                  offer := { Pd.reset.offer with budget := d.offer.budget, bound := d.offer.bound } }

/-- VCONN goes, if it was applied: for at most 35 ms from AON time `aon` on the wellhead discharges the pin that carried it (R103). -/
def Tc.vconnOff (t : Tc) (aon : Nat) : Tc := { t with vconn := false, dis := if t.vconn then some (!t.orient, aon + 35000) else t.dis }

/-- VCOC ends with the attachment (R102). -/
def Tc.leave (t : Tc) (st : ConnState) : Tc :=
  { t with st := st, orient := false, ra := false, prp := 0, vconn := false, vcoc := false, backv := false, accSeen := false, pin := none, ccDone := false }

/-- The attachment or attach attempt of port p ends and the connection machine goes to st: modes, contract, credits, timers and
waiting messages end, the sluice gets its off request and the stage its stop (R100, R117, R162, R164, R184, R196). -/
def State.leave (s : State) (p : Port) (st : ConnState) : State :=
  let was := (s.port p).tc.attached
  let busy := was || decide ((s.port p).tc.st = .attwaitSrc)
  let s := s.endMode p
  let s := s.disarmAll p
  let s := s.protReset p
  let s := s.release p
  let s := (s.onPort p fun x => { x with tc := (x.tc.vconnOff s.dev.aon).leave st, pd := x.pd.detached }).noteConn p
  let s := if was then (s.tcEvt p 1).muxUpdate p else s
  let s := if was then s.slcCmd p .off else s
  if busy then s.stgCmd p .stop else s

/-- A detach is acted on: the CC PHY tests itself again, or GUARD_OFF if a guard condition stands (R91, R99, R128). -/
def State.detach (s : State) (p : Port) : State := s.leave p .selftest

/-- A guard condition that keeps the port in GUARD_OFF (R128). DESIGN CHOICE (assumption 99): so does an F of 0 that no cut has brought, for
which R125 gives the way in and R128 no way out. -/
def GrdP.off (g : GrdP) : Bool := g.wet || g.flood || g.hot || g.dieHot || g.zeroF

/-- GUARD_OFF (R116, R117, R125): every state except DISABLED and FAULT passes to it. -/
def State.guardOff (s : State) (p : Port) : State :=
  match (s.port p).tc.st with
  | .disabled => s
  | .fault => s
  | .guardOff => s
  | _ => s.leave p .guardOff

/-- ErrorRecovery (R97, R161). -/
def State.errRecov (s : State) (p : Port) : State := ((s.leave p .errRecov).tcEvt p 2).tcCnt p 1

/-! ## Shedding (R166) -/

/-- Order of shedding: SHED lowest first, then the higher port number. -/
def shedBefore (s : State) (p q : Port) : Bool :=
  decide ((s.port p).cfg.shed < (s.port q).cfg.shed) ||
  (decide ((s.port p).cfg.shed = (s.port q).cfg.shed) && decide (q.val < p.val))

/-- The first of a list of ports in shedding order. -/
def shedFirst (s : State) (l : List Port) : Option Port :=
  l.foldl (fun b p => match b with
    | none => some p
    | some q => if shedBefore s p q then some p else some q) none

/-- One selection: s is the lower of D and the charge less 45 credits (R166, R167). -/
def State.shedPort (s : State) (p : Port) : State :=
  let c := (s.port p).pd.charge
  let cut := min s.dNow.toNat (c - 45)
  let s := s.onPort p fun x => { x with pd := { x.pd with shed := true, cut := cut } }
  let s := (s.pdEvt p 5).pdCnt p 8
  { s with cis.shedding := true }.post 49 (some p) 3 .shed

/-- Selection while D is above 0; each port at most once. -/
def State.shedCuts : Nat → State → State
  | 0, s => s
  | n + 1, s =>
    if s.dNow ≤ 0 then s else
    match shedFirst s (allPorts.filter fun p =>
      let x := s.port p
      x.tc.isSrc && decide (x.pd.cut = 0) && decide (45 < x.pd.charge)) with
    | none => s
    | some p => State.shedCuts n (s.shedPort p)

/-- A twin has left in the cistern's grant: its sibling's full capabilities are due again, and its hand is told (R165, R171). -/
def State.twinNotice (s : State) (p : Port) : State :=
  let q := sibOf p
  if (s.port p).cfg.twin && (s.port q).tc.isSrc then
    (s.onPort q fun x => { x with pd := { x.pd with noMove := false, twinWaits := 0, trigger := true } }).post 49 (some q) 3 .shed
  else if (s.port p).cfg.twin && decide ((s.port q).tc.st = .attwaitSrc) then s.post 49 (some q) 3 .shed
  else s

/-- Every source port is cut to 45 credits, or stands there, counting the cuts already selected (R166). -/
def State.allCut (s : State) : Bool := s.ports.toList.all fun x => !x.tc.isSrc || decide (x.pd.charge ≤ x.pd.cut + 45)

/-- Every source port cut and D still above 0: further ports go to ErrorRecovery in the same order (R166). -/
def State.shedErr : Nat → State → State
  | 0, s => s
  | n + 1, s =>
    if s.dNow ≤ 0 then s else
    match shedFirst s (allPorts.filter fun p =>
      let x := s.port p
      x.tc.isSrc && decide (0 < x.pd.charge)) with
    | none => s
    | some p => State.shedErr n ((s.errRecov p).twinNotice p)

/-- The shed ends when the deficit, or the one expected, is gone (R167): no cut counts any more, and the ports keep their offers. -/
def State.shedEnd (s : State) : State :=
  if s.cis.shedding ∧ s.cis.ahead ≤ s.free then
    { (s.onPorts fun x => { x with pd := { x.pd with cut := 0 } }) with cis.shedding := false }
  else s

/-- The cistern looks at its deficit after a change (R166, R167). -/
def State.shed (s : State) : State :=
  let s := State.shedCuts 48 s
  (if s.allCut then State.shedErr 48 s else s).shedEnd

/-- A ledger change at a grant of the cistern request port: DEFICIT is noticed against FREE before it, and the shed starts, grows or
ends (R156, R166, R332). The requester is the hand whose step runs, else the commons link (R428). -/
def State.ledger (s : State) (f : State → State) : State :=
  (((f s).noteFree s.free).shed).cisGrant (match s.hnd.step with | some x => x.hand.val | none => 16)

/-- A ledger change for port p that the table gives no hand: its home hand asks. -/
def State.ledgerOf (s : State) (p : Port) (f : State → State) : State := (s.ledger f).cisGrant (s.handNow p)

/-! ## A port reset runs (R50, R394) -/

/-- A change of the sluice's state is reported as a yard event of class 1 (R130). -/
def State.slcTo (s : State) (p : Port) (f : Slc → Slc) : State := (s.onPort p fun x => { x with slc := f x.slc }).postPort p 1 .sluice

/-- DISCHARGE from RAMP, ON or LIMIT at AON time t (R210); what it left is kept for what coincides (R216). -/
def Slc.discharge (t : Nat) (c : Slc) : Slc :=
  { c with st := .discharge, limOn := false, phase := .none, dsc := !c.sink, from' := some (c.st, c.limOn, t) }

/-- The effect of an off request (R196, R210, R213). -/
def State.slcOff (s : State) (p : Port) : State :=
  let s := s.onPort p fun x => { x with slc := { x.slc with onReq := false, retry := false } }
  match (s.port p).slc.st with
  | .ramp => s.slcTo p (Slc.discharge s.dev.aon)
  | .on => s.slcTo p (Slc.discharge s.dev.aon)
  | .limit => s.slcTo p (Slc.discharge s.dev.aon)
  | .trip => s.onPort p fun x => { x with slc := { x.slc with offIn := true } }
  | .retryWait => s.slcTo p fun c => { c with st := .off }
  | _ => s

/-- A port reset runs: the port's attachment ends, and with it its samples, its waiting events and its sluice's request; the stage stops unless
the sibling is attached or its hand holds it on, or the limp PI has it (R48, R50, R238). -/
def State.resetRun (s : State) (p : Port) : State :=
  let s := s.ledgerOf p fun s => s.leave p (if (s.port p).tc.st = .fault then .fault else .disabled)
  let s := (((s.abortSamples p).yardDrop p).slotClear p).slcOff p
  let kept := (s.port p).cfg.twin && ((s.port (sibOf p)).tc.attached || (s.port (sibOf p)).stg.hold)
  let s := if kept || (s.port (s.stageOf p)).cnt.limp then s else s.stageHalt p
  s.onPort p fun x => { x.beginReset with slc := { x.beginReset.slc with
    gateAt := if x.slc.st = .discharge ∧ x.beginReset.slc.st = .fault then s.dev.aon else x.beginReset.slc.gateAt } }

/-- A port reset that waited for the limp PI of stage p runs once DEN has fallen (R394). -/
def State.resetGo (s : State) (p : Port) : State :=
  if (s.port p).cnt.limpWait && !(s.port p).stg.den then (s.resetRun p).twinNotice p else s

/-- The stage that serves port p is cut, which ends a wait for its limp PI (R223, R394). -/
def State.stageCut (s : State) (p : Port) : State := (s.stageHalt p).resetGo (s.stageOf p)

/-! ## Port fault states -/

/-- What a fault state does to the stage (R219): LIMP leaves it to the limp PI; FETS cuts it, with no twin exception; and any other cuts it
unless the sibling is attached, or an earlier fault governs the power path (R393). -/
def State.faultStage (s : State) (p : Port) (k : FaultKind) : State :=
  match k with
  | .limp => s
  | .fets => s.stageCut p
  | _ => if s.sibAttached p || (s.port p).cnt.any then s else s.stageCut p

/-- The connection machine and the credits of a port that enters a fault state (R91, R100, R164; R252 keeps the credits of LIMP
until the sluice reaches OFF). -/
def State.faultLeave (s : State) (p : Port) (k : FaultKind) : State :=
  let x := s.port p
  let keep := decide (k = .limp) && decide (((x.slc.fault k x.sinkRole)).st = .discharge)
  s.ledgerOf p fun s => (s.leave p .fault).onPort p fun y => { y with
    pd := { y.pd with slcq := [], stgq := []
                      charge := if keep then x.pd.charge else 0
                      pledge := if keep then x.pd.pledge else 0
                      inflow := if keep then x.pd.inflow else 0 }
    stg := { y.stg with hold := false } }

/-- Entry into a port fault state (R91, R219, R392, R393), which wins over a RAMP or a TRIP of the same microsecond (R216); the sluice
reports its change of state (R194). -/
def State.fault (s : State) (p : Port) (k : FaultKind) : State :=
  if (s.port p).cnt.has k then s else
  let sink := (s.port p).sinkRole
  let first := !(s.port p).cnt.any
  let s := if first || decide (k = .fets) then s.onPort p (PortState.undo s.dev.aon) else s
  let s := s.faultStage p k
  let s := s.faultLeave p k
  let s := s.onPort p fun x => { x with
    cnt := x.cnt.put k
    slc := if first || decide (k = .fets) then { x.slc.fault k sink with gateAt := s.dev.aon } else x.slc }
  s.postPort p 0 .sluice

/-- A sluice that has still to reach OFF (R50, R192). -/
def Slc.open' (c : Slc) : Bool :=
  c.st = .ramp || c.st = .on || c.st = .limit || c.st = .trip || c.st = .discharge

end Sys2Proof.Machine
end

