-- ==== Sys2Proof/Machine/Operands.lean ====
section
/-! DEFINITION. How operand values are read: CC pin voltages against the thresholds of R90, output bands (R235), the active current
limit (R200), the band mapper (R226, R227), thermistor resistance to temperature (R121), the derating factors (R122 to R124) and
measured values in the I/O window's formats (R255). -/

namespace Sys2Proof.Machine

/-! ## CC pins (R90) -/

/-- What a source finds on a CC pin. -/
inductive SrcPin where
  | ra | rd | open'
  deriving DecidableEq, Repr

/-- Source-role classification at the port's own Rp level; mV. DESIGN CHOICE (assumption 108): here and in `snkPin` the comparators judge at
exactly the typical thresholds; R90 gives each an error of at most 20 mV either way, and no row tells it. -/
def srcPin (rp mv : Nat) : SrcPin :=
  if mv < tab [200, 400, 800] rp 800 then .ra
  else if mv ≤ tab [1600, 1600, 2600] rp 2600 then .rd
  else .open'

/-- Sink-role classification: 0 none, 1 Default, 2 1.5 A, 3 3.0 A, as TC_STAT.PRP; at the typical thresholds (assumption 108). -/
def snkPin (mv : Nat) : Nat := if mv ≤ 200 then 0 else if mv ≤ 660 then 1 else if mv ≤ 1230 then 2 else 3

/-- vSafe0V: VBC below 0.8 V (R93); mV. -/
def below0V (mv : Nat) : Bool := mv < 800

/-! ## Output bands (R235) -/

/-- The output stands in the band of a target; mV. -/
def inBand (kind : Kind) (target v : Nat) : Bool :=
  if target = 0 then v < 800
  else match kind with
    | .pps => decide ((v : Int) - target ≤ max (3 * target) 10000 / 100) && decide ((target : Int) - v ≤ max (3 * target) 10000 / 100)
    | .avs => decide ((v : Int) - target ≤ max (3 * target) 10000 / 100) && decide ((target : Int) - v ≤ max (3 * target) 10000 / 100)
    | _ => if target = 5000 then decide (4750 ≤ v) && decide (v ≤ 5500)
           else decide (20 * ((v : Int) - target) ≤ target) && decide (20 * ((target : Int) - v) ≤ target)

/-- In band at vSafe5V. -/
def in5V (v : Nat) : Bool := inBand .fixed 5000 v

/-! ## Readings of the modulators (R304, R313) -/

/-- The PREF_IN correction of a port's die. -/
def State.prefOf (s : State) (p : Port) : Pref := match dieOf p with | .w0 => s.mtr.pref0 | .w1 => s.mtr.pref1

/-- A conversion with the gain coefficient scaled by the correction k in force (R313). -/
def Pref.scale (f : Pref) (v : Int) : Int := v * (1000000 + f.ppm) / 1000000

/-- The shunt voltage in nV up to which a current is measured: that of 8 A, at most 64 mV (R304). -/
def shuntMax (shunt : Nat) : Nat := min 64000000 (8000 * shunt)

/-- A shunt voltage clipped at the range (R304). -/
def clipSh (shunt : Nat) (nv : Int) : Int := clampI nv (-(shuntMax shunt : Int)) (shuntMax shunt)

/-- The loop path's readings of a port (R255, R304, R305): the current is the shunt voltage divided by SHUNT. -/
def State.loopMeas (s : State) (p : Port) (m : LoopConv) : LoopMeas :=
  let f := s.prefOf p
  let r := (s.port p).cfg.shunt
  ⟨f.scale m.vbs, f.scale m.vbc, (clipSh r (f.scale m.sh) * 1000).tdiv r, m.vin⟩

/-! ## The active current limit (R200) -/

/-- ILIM_ACT in 10 mA units from the class ILIM in 10 mA units and I_C in mA. -/
def ilimAct (ilim icMa : Nat) : Nat := max ((min (40 * ilim) (5 * icMa) + 39) / 40) 50

/-- ILIM_ACT of a class with no contract in force, once the class is applied: 0 for a port without a class (assumption 72). -/
def PortCfg.firstIlim (c : PortCfg) : Nat := if c.enabled then ilimAct c.ilim (typeCma c.rp) else 0

/-- I_C of a port in mA: the contract's current, else the Type-C current of the class (R200). -/
def icOf (x : PortState) : Nat := match x.pd.contract with | some c => c.ma | none => typeCma x.cfg.rp

/-! ## The band mapper (R226, R227): M in units of 2^-28, duties as fractions -/

def oneM : Nat := 268435456

/-- m_max in units of 2^-28 for a switching frequency in kHz, rounded down. -/
def mMax (fsw : Nat) : Nat := (25000 - fsw) * oneM / 3750

/-- DA and DB as numerator and denominator, and the band: 0 buck, 1 transition, 2 boost. -/
def duties (fsw m : Nat) : (Nat × Nat) × (Nat × Nat) × Nat :=
  let m := min m (mMax fsw)
  if 20 * m < 17 * oneM then ((m, oneM), (0, 1), 0)
  else if 20 * m ≤ 23 * oneM then
    let n := 17 * 150000 * oneM + (20 * m - 17 * oneM) * (75000 - 20 * fsw)
    let d := 3000000 * oneM
    ((n, d), (d * m - n * oneM, d * m), 1)
  else ((25000 - fsw, 25000), (25000 * m - (25000 - fsw) * oneM, 25000 * m), 2)

/-- A duty in units of 2^-16, truncated (PWM_DUTY). -/
def duty16 (x : Nat × Nat) : Nat := min (x.1 * 65536 / x.2) 65535

/-- The falling edge of an output of a given duty in a period of T fine steps, rounded to the nearest step; an interval below 20 ns
(1,536 steps) is removed (R227). The answer 0 is low, and T high, for the whole period. -/
def fallStep (x : Nat × Nat) (T : Nat) : Nat :=
  let f := (2 * x.1 * T + x.2) / (2 * x.2)
  if f < 1536 then 0 else if T - f < 1536 then T else f

/-- PWA's falling edge: while it switches, its off-time is at least 40 ns, 3,072 steps (R227). -/
def fallA (x : Nat × Nat) (T : Nat) : Nat :=
  let f := fallStep x T
  if f = 0 ∨ f = T then f else min f (T - 3072)

/-- Falling edges of PWA and PWB in fine steps: forward DA and DB, reverse 1 - DB and 1 - DA. -/
def pwmFalls (fsw m T : Nat) (rev : Bool) : Nat × Nat :=
  let (a, b, _) := duties fsw m
  if rev then (fallA (b.2 - b.1, b.2) T, fallStep (a.2 - a.1, a.2) T) else (fallA a T, fallStep b T)

/-- Period k of a port, in fine steps from the frame's start (R224). -/
def periodAt (fsw phase frame k : Nat) : Nat := (2 * (k * 65536 + phase) * frame + 65536 * fsw) / (2 * 65536 * fsw)

/-- The length of period k of a frame, in fine steps (R224). -/
def periodLen (fsw phase frame k : Nat) : Nat := periodAt fsw phase frame (k + 1) - periodAt fsw phase frame k

/-! ## I/O window formats (R255) -/

/-- A voltage in µV as FR32 of 64 V full scale. -/
def voltFr (uv : Int) : Word := BitVec.ofInt 32 (clampI (uv * 2147483648 / 64000000) (-2147483648) 2147483647)

/-- A current in µA as FR32 of 8 A full scale. -/
def ampFr (ua : Int) : Word := BitVec.ofInt 32 (clampI (ua * 2147483648 / 8000000) (-2147483648) 2147483647)

/-- A ratio in units of 2^-28, clamped to m_max; 0 where the divisor is not above 0. -/
def ratioM (fsw : Nat) (a b : Int) : Nat := if b ≤ 0 then 0 else min (a.toNat * oneM / b.toNat) (mMax fsw)

/-! ## The thermistor (R121, R126): temperatures in thousandths of a °C -/

/-- Fixed point of the logarithm: 10^12. -/
def lnOne : Int := 1000000000000

/-- 2 artanh z for z in units of 10^-12, by its power series to the term z^15. -/
def lnSeries (z : Int) : Int :=
  let sq := z * z / lnOne
  let rec go : Nat → Int → Int → Int
    | 0, _, a => a
    | n + 1, t, a => go n (t * sq / lnOne) (a + t / (2 * (8 - (n + 1 : Int)) + 1))
  2 * go 8 z 0

/-- ln (a / b) in units of 10^-12, the ratio first halved or doubled into 1 to 2. -/
def lnRatio (a b : Nat) : Int :=
  if a = 0 ∨ b = 0 then 0 else
  let k : Int := (Nat.log2 (a * 2 ^ 64 / b) : Int) - 64
  let num : Int := if 0 ≤ k then a else (a * 2 ^ k.natAbs : Nat)
  let den : Int := if 0 ≤ k then (b * 2 ^ k.natAbs : Nat) else b
  k * 693147180560 + lnSeries ((num - den) * lnOne / (num + den))

/-- Temperature of a thermistor from the beta equation. -/
def ntcTemp (t : Thermal) (ohm : Nat) : Int :=
  let inv : Int := 1000000000000000 / 298150 * 1000 + 1000 * lnRatio ohm (100 * t.ntcNom) / t.ntcB
  if inv ≤ 0 then 1000000000 else 1000 * (1000 * lnOne) / inv - 273150

/-- R within the bounds of R126. -/
def ntcInBounds (t : Thermal) (ohm : Nat) : Bool := decide (ohm ≤ 50 * (100 * t.ntcNom)) && decide (100 * t.ntcNom ≤ 500 * ohm)

/-- The mean of a list of readings. -/
def meanInt (l : List Int) : Int := if l.isEmpty then 0 else l.foldl (· + ·) 0 / l.length

/-- F_ntc of R122 from the filtered temperature, in whole percent rounded down. -/
def fNtcOf (t : Thermal) (temp : Int) : Nat :=
  if temp < 1000 * t.tD1 then 100
  else if temp < 1000 * t.tD2 then
    ((100 * 1000 * ((t.tD2 : Int) - t.tD1) - (100 - (t.pMin : Int)) * (temp - 1000 * t.tD1)) /
      (1000 * ((t.tD2 : Int) - t.tD1))).toNat
  else if temp < 1000 * t.tCut then t.pMin
  else 0

/-- F_die of R123 from a die temperature in tenths of a °C; 0 while the die's cut holds. DESIGN CHOICE (assumption 107): between DIE_DERATE and
DIE_CUT it is rounded down to a whole percent; R123 gives no rounding. -/
def fDieOf (derate cut : Nat) (d : DieTemp) : Nat :=
  if d.cut then 0
  else if d.temp < 10 * derate then 100
  else if d.temp < 10 * cut then
    ((100 * 10 * ((cut : Int) - derate) - 50 * (d.temp - 10 * derate)) / (10 * ((cut : Int) - derate))).toNat
  else 0

/-- The die factor of a port: the lower of the core die's and its own wellhead die's (R123). -/
def State.fDie (s : State) (p : Port) : Nat :=
  let f (i : Fin 3) := fDieOf s.alm.cfg.dieDerate s.alm.cfg.dieCut s.grd.dies[i]
  min (f 0) (match dieOf p with | .w0 => f 1 | .w1 => f 2)

/-- F_ntc in force: 0 under a connector cut, P_MIN while NTCF lasts, 100 without a fitted NTC (R122, R125, R126). -/
def PortState.fNtcNow (x : PortState) : Nat :=
  if !x.cfg.ntc then 100 else if x.grd.hot then 0 else if x.grd.ntcf then x.cfg.therm.pMin else x.grd.fNtc

/-- The port factor F (R123). -/
def State.factor (s : State) (p : Port) : Nat := min (s.port p).fNtcNow (s.fDie p)

/-! ## Power of a class (R124) -/

/-- A template's features are not all set in FEAT (R74). -/
def featOff (feat : Nat) (t : Template) : Bool :=
  (decide (t.kind = 2) && !feat.testBit 0) || (decide (t.kind = 3) && !feat.testBit 1) ||
  (decide (t.kind = 4) && !feat.testBit 2) || (decide (0 < t.feat) && !feat.testBit (t.feat - 1))

/-- A template's power in units of 0.1 mW. -/
def tmplPower (t : Template) : Nat :=
  match t.kind with
  | 1 => t.v * t.limit
  | 2 => t.vmax * t.limit
  | 3 => t.v * t.limit
  | 4 => t.limit * 10000
  | _ => 0

/-- P_CLASS in units of 0.1 mW: the highest among the templates whose features are set; EPR ones only where EPR entry is accepted.
Template 1 is always offered. -/
def pClass (feat : Nat) (c : PortCfg) : Nat :=
  ((c.caps.zipIdx.filter fun t => decide (t.2 = 0) ||
      (!featOff feat t.1 && (decide (t.1.kind < 3) || c.eprOk))).map fun t => tmplPower t.1).foldl max 0

/-- P_ALLOW in credits for a factor in percent, rounded down (R124). -/
def pAllowOf (pc f : Nat) : Nat := f * pc / 100000

/-- P_ALLOW of a port now, in µW and so not rounded. -/
def State.pAllowUw (s : State) (p : Port) : Nat := s.factor p * pClass s.alm.cfg.feat (s.port p).cfg

/-- P_ALLOW of a port now, in credits. -/
def State.pAllow (s : State) (p : Port) : Nat := pAllowOf (pClass s.alm.cfg.feat (s.port p).cfg) (s.factor p)

end Sys2Proof.Machine
end

