-- ==== Sys2Proof/Machine/Almanac.lean ====
section
/-! DEFINITION. The almanac: reading, checking and choosing an image, and what it sets (R62 to R88, R263, R429). -/

namespace Sys2Proof.Machine

/-! ## Reading the flash -/

/-- n bytes of an image slot from offset o; what lies beyond the bytes programmed is erased flash. -/
def flashAt (l : List Byte) (o n : Nat) : List Byte :=
  let b := bytesAt l o n
  b ++ List.replicate (n - b.length) 0xFF#8

def u8 (l : List Byte) (o : Nat) : Nat := beNat (flashAt l o 1)
def u16 (l : List Byte) (o : Nat) : Nat := beNat (flashAt l o 2)
def u32 (l : List Byte) (o : Nat) : Nat := beNat (flashAt l o 4)
/-- A 32-bit two's complement field. -/
def i32 (l : List Byte) (o : Nat) : Int := (BitVec.ofNat 32 (u32 l o)).toInt

def within (lo hi v : Nat) : Bool := decide (lo ≤ v) && decide (v ≤ hi)

/-! ## The header (R64, R67 tests 1 to 5) -/

structure Header where
  magic    : Nat
  major    : Nat
  minor    : Nat
  hdrLen   : Nat
  seq      : Nat
  imgLen   : Nat
  secCount : Nat
  secTab   : Nat
  build    : Nat
  deriving DecidableEq, Repr

def headerOf (l : List Byte) : Header :=
  ⟨u32 l 0, u8 l 4, u8 l 5, u16 l 6, u32 l 8, u32 l 0xC, u16 l 0x10, u16 l 0x12, u32 l 0x14⟩

def Header.tableEnd (h : Header) : Nat := h.secTab + 12 * h.secCount

/-- Test 4. -/
def Header.rangesOk (h : Header) : Bool :=
  decide (32 ≤ h.hdrLen) && decide (h.hdrLen % 4 = 0) && within 64 1048576 h.imgLen && decide (h.imgLen % 4 = 0) &&
  within 1 64 h.secCount && decide (h.hdrLen ≤ h.secTab) && decide (h.secTab % 4 = 0) && decide (h.tableEnd ≤ h.imgLen - 4)

/-- The reject code of tests 1 to 5; 0 when they pass. `last` is the end of the image's slot in the flash. -/
def headerCode (f : Option Sfdp) (last : Nat) (l : List Byte) : Nat :=
  let h := headerOf l
  match f with
  | none => 1
  | some f =>
    if f.density < last then 1
    else if h.magic ≠ 0x414C4D4E then 2
    else if h.major ≠ 1 ∨ 3 < h.minor then 3
    else if !h.rangesOk then 4
    else if h.seq = 0 ∨ h.seq = 0xFFFFFFFF then 5
    else 0

/-! ## Sections (R65, R67 tests 7 to 9, R69, R429) -/

structure Section' where
  typ : Nat
  req : Bool
  off : Nat
  len : Nat
  deriving DecidableEq, Repr

def sectionsOf (l : List Byte) : List Section' :=
  let h := headerOf l
  (List.range h.secCount).map fun i =>
    let o := h.secTab + 12 * i
    ⟨u16 l o, (u16 l (o + 2)).testBit 0, u32 l (o + 4), u32 l (o + 8)⟩

/-- Two byte ranges have a byte in common. -/
def overlap (a n b m : Nat) : Bool := decide (max a b < min (a + n) (b + m))

/-- Test 7. -/
def tableOk (h : Header) (l : List Section') : Bool :=
  l.all (fun x => decide (x.off % 4 = 0) && decide (x.off + x.len ≤ h.imgLen) && !overlap x.off x.len 0 h.hdrLen &&
    !overlap x.off x.len h.secTab (12 * h.secCount) && !overlap x.off x.len (h.imgLen - 4) 4) &&
  decide (l.Pairwise fun x y => overlap x.off x.len y.off y.len = false)

def Section'.known (x : Section') : Bool := within 1 14 x.typ

/-- The defined length of a known section, with the count fields as written (R429). -/
def definedLen (b : List Byte) (typ : Nat) : Nat :=
  match typ with
  | 1 => 32
  | 2 => 4 + 32 * u8 b 0
  | 3 => 192
  | 4 => 4 + 96 * u8 b 0
  | 5 => 32
  | 6 => 24
  | 7 => 12
  | 8 => 8 + 12 * u8 b 1 + u32 b 4
  | 9 => 4 + u16 b 0 * u16 b 2
  | 10 => 324
  | 11 => 20
  | 12 => 12
  | 13 => 4 + 8 * u8 b 0
  | _ => 12

/-- The bytes of a count field that a body must hold before its defined length can be told (R429). -/
def countLen (typ : Nat) : Nat :=
  match typ with
  | 2 => 4 | 4 => 4 | 8 => 8 | 9 => 4 | 13 => 4
  | _ => 0

/-- The body of a section of the image. -/
def Section'.body (l : List Byte) (x : Section') : List Byte := flashAt l x.off x.len

/-- Test 9. -/
def presenceOk (l : List Byte) (t : List Section') : Bool :=
  (List.range 14).all (fun i => decide ((t.filter fun x => x.typ = i + 1).length ≤ 1)) &&
  (List.range 6).all (fun i => t.any fun x => x.typ = i + 1) &&
  (t.filter Section'.known).all fun x =>
    decide (countLen x.typ ≤ x.len) && decide (definedLen (x.body l) x.typ ≤ x.len)

/-- The body of the section of a type, if the image has it. -/
def findSec (l : List Byte) (t : List Section') (typ : Nat) : Option (List Byte) :=
  (t.find? fun x => x.typ = typ).map fun x => x.body l

/-! ## Field ranges (R67 test 10, R71 to R84, R263) -/

/-- The bodies of an image that has passed tests 1 to 9. -/
structure Bodies where
  device : List Byte
  classes : List Byte
  map    : List Byte
  caps   : List Byte
  power  : List Byte
  cistern : List Byte
  link   : Option (List Byte)
  prog   : Option (List Byte)
  coef   : Option (List Byte)
  alt    : Option (List Byte)
  two    : Option (List Byte)
  dowser : Option (List Byte)
  therm  : Option (List Byte)
  tally  : Option (List Byte)

def bodiesOf (l : List Byte) : Bodies :=
  let t := sectionsOf l
  let must (n : Nat) : List Byte := (findSec l t n).getD []
  { device := must 1, classes := must 2, map := must 3, caps := must 4, power := must 5, cistern := must 6
    link := findSec l t 7, prog := findSec l t 8, coef := findSec l t 9, alt := findSec l t 10, two := findSec l t 11
    dowser := findSec l t 12, therm := findSec l t 13, tally := findSec l t 14 }

/-- The FEAT bits that B0 knows (R71, R86). -/
def Bodies.feat (b : Bodies) : Nat := u32 b.device 0 % 64

/-- The loop programs run from the image: LOOP_PROG is there with a level B0 knows (R86). -/
def Bodies.ownProg (b : Bodies) : Option (List Byte) :=
  match b.prog with
  | some p => if u8 p 0 ≤ 2 then some p else none
  | none => none

/-- Offset of class c, of PORTMAP entry p, of template i of CAPS set k, of a LOOP_PROG entry, of a coefficient set. -/
def classAt (c : Nat) : Nat := 4 + 32 * c
def tmplAt (k i : Nat) : Nat := 4 + 96 * k + 4 + 8 * i
def setAt (k bytes : Nat) : Nat := 4 + k * bytes

/-- A port class (R72). -/
def classOk (b : Bodies) (c : Nat) : Bool :=
  let l := b.classes
  let o := classAt c
  let role := u8 l o
  decide (role ≤ 2) && (decide (role = 0) || b.feat.testBit 5) && decide (u8 l (o + 1) ≤ 2) && decide (u8 l (o + 3) ≤ 1) &&
  within 200 1000 (u16 l (o + 4)) &&
  (match b.ownProg with | some p => decide (u8 l (o + 6) < u8 p 1) | none => true) &&
  (match b.coef with
    | some k => decide (u8 l (o + 7) < u16 k 0) && decide (u8 k (setAt (u8 l (o + 7)) (u16 k 2)) = u8 l (o + 3))
    | none => true) &&
  decide (u8 l (o + 8) < u8 b.caps 0) && within 1 30 (u16 l (o + 0xA)) && within 50 5000 (u16 l (o + 0xC)) &&
  within 50 600 (u16 l (o + 0xE)) && decide (u8 l (o + 0x10) ≤ 7) && decide (u8 l (o + 0x11) ≤ 6) &&
  within 2 4 (u8 l (o + 0x12)) && decide (u8 l (o + 0x13) ≤ 6) && decide (u8 l (o + 0x14) ≤ 3) &&
  (match b.therm with | some t => decide (u8 l (o + 0x15) < u8 t 0) | none => true) &&
  within 500 10000 (u16 l (o + 0x16)) && within 50 600 (u16 l (o + 0x18)) && decide (u16 l (o + 0x1A) ≤ 500) &&
  (decide (u16 l (o + 0x1C) = 0) || within 50 480 (u16 l (o + 0x1C)))

/-- A port map entry, and its twin's (R73). -/
def mapOk (b : Bodies) (p : Nat) : Bool :=
  let c := u8 b.map (4 * p)
  let q := if p % 2 = 0 then p + 1 else p - 1
  let twin (i : Nat) : Bool := (u8 b.map (4 * i + 1)).testBit 0
  (decide (c = 0xFF) || decide (c < u8 b.classes 0)) &&
  (twin p == twin q) && (!twin p || (decide (c ≠ 0xFF) && decide (u8 b.map (4 * q) = c)))

/-- The voltage steps and ranges of a template of a kind (R74). DESIGN CHOICE (assumption 104): VMAX is bounded as V is, by 2,100 for PPS and
4,800 for AVS; the table gives VMAX the same units and steps and no upper bound. -/
def tmplRange (kind v vmax lim : Nat) : Bool :=
  match kind with
  | 0 => decide (vmax = 0)
  | 1 => [500, 900, 1500, 2000].contains v && decide (vmax = 0) && within 10 500 lim
  | 2 => within 330 2100 v && decide (v % 2 = 0) && within v 2100 vmax && decide (vmax % 2 = 0) && within 10 500 lim &&
         decide (lim % 5 = 0)
  | 3 => [2800, 3600, 4800].contains v && decide (vmax = 0) && within 10 500 lim
  | 4 => within 1500 4800 v && decide (v % 10 = 0) && within v 4800 vmax && decide (vmax % 10 = 0) && within 1 240 lim
  | _ => false

/-- Template i (from 0) of N in a set (R74). -/
def tmplOk (l : List Byte) (k n i : Nat) : Bool :=
  let o := tmplAt k i
  let kind := u8 l o
  (decide (i = 0) || decide (u8 l (o + 1) ≤ 32)) && tmplRange kind (u16 l (o + 2)) (u16 l (o + 4)) (u16 l (o + 6)) &&
  (if i = 0 then decide (kind = 1) && decide (u16 l (o + 2) = 500)
   else if i < 7 then decide (kind = 1) || decide (kind = 2) || (decide (kind = 0) && decide (8 ≤ n))
   else decide (kind = 3) || decide (kind = 4))

def capsOk (l : List Byte) : Bool :=
  within 1 16 (u8 l 0) && (List.range (u8 l 0)).all fun k =>
    let n := u8 l (4 + 96 * k)
    within 1 11 n && (List.range n).all fun i => tmplOk l k n i

def powerOk (l : List Byte) : Bool :=
  within 10 500 (u16 l 2) && within 4000 5800 (u16 l 8) && within 5 1000 (u16 l 0xA) && within 10 1000 (u16 l 0xC) &&
  within 1 60 (u8 l 0xE) && within 1 100 (u16 l 0x10) &&
  decide (900 ≤ u16 l 4) && decide (u16 l 4 < u16 l 0) && decide (u16 l 0 ≤ u16 l 6) && decide (u16 l 6 ≤ 6000)

def cisternOk (l : List Byte) : Bool :=
  decide (u32 l 0 ≤ 115200) && decide (u32 l 4 ≤ u32 l 0) && decide (u32 l 8 ≤ u32 l 0) && decide (u32 l 0xC ≤ u32 l 8) &&
  within (u32 l 0) 1887436800 (u32 l 0x10) && within 100 30000 (u16 l 0x14)

def linkOk (l : List Byte) : Bool :=
  within 1 8 (u8 l 1) && within 1 60 (u16 l 2) && within 10 3600 (u16 l 4) && decide (1 ≤ u8 l 6)

/-- LOOP_PROG (R78); STACK is not checked where the ROM programs run (R86). -/
def progOk (l : List Byte) : Bool :=
  let n := u8 l 1
  let len := u32 l 4
  decide (u8 l 0 ≠ 0) && within 1 64 n && decide (len % 2 = 0) && decide (len ≤ 131072) &&
  (List.range n).all fun i =>
    let o := 8 + 12 * i
    decide (u32 l o % 2 = 0) && decide (u32 l o < len) && decide (u32 l (o + 4) % 2 = 0) && decide (u32 l (o + 4) < len) &&
    (decide (2 < u8 l 0) || decide (u16 l (o + 8) ≤ 1024))

/-- A coefficient set from offset o (R263, R264). -/
def setOk (l : List Byte) (o bytes : Nat) : Bool :=
  let form := u8 l o
  let nv := u8 l (o + 1)
  let ni := u8 l (o + 2)
  decide (form ≤ 1) && (if form = 0 then within 1 3 nv else within 4 8 nv) && within 1 3 ni &&
  decide (i32 l (o + 0x1C) < i32 l (o + 0x20)) && decide (i32 l (o + 0x24) < i32 l (o + 0x28)) &&
  decide (u32 l (o + 0x2C) < u32 l (o + 0x30)) && within 900 6000 (u16 l (o + 0x34)) &&
  decide (0x40 + (if form = 0 then 24 else 20) * (nv + ni) ≤ bytes) &&
  (decide (form = 0) || (List.range (nv + ni)).all fun i =>
    let e := (BitVec.ofNat 8 (u8 l (o + 0x40 + 20 * i + 0xF))).toInt
    decide (-24 ≤ e) && decide (e ≤ 7))

def coefOk (l : List Byte) : Bool :=
  within 1 256 (u16 l 0) && decide (u16 l 2 % 4 = 0) && decide (u16 l 2 ≤ 1024) &&
  (List.range (u16 l 0)).all fun k => setOk l (setAt k (u16 l 2)) (u16 l 2)

def altOk (l : List Byte) : Bool :=
  let n := u8 l 0
  decide (n ≤ 16) &&
  (List.range n).all (fun i =>
    let o := 4 + 8 * i
    decide (u16 l o ≠ 0) && within 1 6 (u8 l (o + 2)) && decide (u8 l (o + 3) ≤ 2) && decide (u8 l (o + 4) ≤ 3)) &&
  (List.range 192).all fun i => decide (u8 l (132 + i) < n) || decide (u8 l (132 + i) = 0xFF)

def twoOk (l : List Byte) : Bool :=
  (List.range 3).all (fun i => [0x10, 0x20, 0x30, 0x40, 0x50, 0x60].contains (u8 l (1 + i))) &&
  (List.range 4).all fun i => decide (u8 l (4 + 4 * i) ≤ 63) && decide (u8 l (5 + 4 * i) ≤ 3)

def dowserOk (l : List Byte) : Bool :=
  within 1 1000 (u16 l 0) && decide (u16 l 0 < u16 l 2) && decide (u16 l 2 ≤ 2000) && within 10 1000 (u16 l 4) &&
  within 1 3600 (u16 l 6) && within 1 1000 (u16 l 8)

def thermOk (l : List Byte) : Bool :=
  within 1 8 (u8 l 0) && decide (60 ≤ u8 l 2) && decide (u8 l 2 < u8 l 3) && decide (u8 l 3 ≤ 150) &&
  (List.range (u8 l 0)).all fun i =>
    let o := 4 + 8 * i
    decide (u8 l o < u8 l (o + 1)) && decide (u8 l (o + 1) < u8 l (o + 2)) && decide (u8 l (o + 2) ≤ 150) &&
    decide (u8 l (o + 3) ≤ 100) && within 2000 6000 (u16 l (o + 4)) && within 10 1000 (u16 l (o + 6))

def tallyOk (l : List Byte) : Bool :=
  decide (u8 l 0 ≤ 1) && within 1 60 (u8 l 1) && within 2 4064 (u16 l 2) && decide (1 ≤ u16 l 4)

/-- Test 10. -/
def fieldsOk (b : Bodies) : Bool :=
  let opt (o : Option (List Byte)) (f : List Byte → Bool) : Bool := match o with | some l => f l | none => true
  within 1 60 (u8 b.device 5) && within 1 16 (u8 b.classes 0) && capsOk b.caps && powerOk b.power && cisternOk b.cistern &&
  opt b.link linkOk && opt b.prog progOk && opt b.coef coefOk && opt b.alt altOk && opt b.two twoOk && opt b.dowser dowserOk &&
  opt b.therm thermOk && opt b.tally tallyOk &&
  (List.range (u8 b.classes 0)).all (classOk b) && (List.range 48).all (mapOk b)

/-- The reject code of tests 6 to 10; 0 when they pass. -/
def fullCode (l : List Byte) : Nat :=
  let h := headerOf l
  let t := sectionsOf l
  if (crc32c (flashAt l 0 (h.imgLen - 4))).toNat ≠ u32 l (h.imgLen - 4) then 6
  else if !tableOk h t then 7
  else if t.any (fun x => !x.known && x.req) then 8
  else if !presenceOk l t then 9
  else if !fieldsOk (bodiesOf l) then 10
  else 0

/-! ## What an image holds -/

def templateAt (l : List Byte) (k i : Nat) : Template :=
  let o := tmplAt k i
  ⟨u8 l o, u8 l (o + 1), u16 l (o + 2), u16 l (o + 4), u16 l (o + 6)⟩

def thermalAt (t : Option (List Byte)) (i : Nat) : Thermal :=
  match t with
  | some l =>
    let o := 4 + 8 * i
    ⟨u8 l o, u8 l (o + 1), u8 l (o + 2), u8 l (o + 3), u16 l (o + 4), u16 l (o + 6)⟩
  | none => Thermal.factory

/-- The values of port p (R72 to R74, R78, R80, R83). A port without a class keeps the reset values. -/
def portOf (b : Bodies) (p : Nat) : PortCfg :=
  let c := u8 b.map (4 * p)
  let list := match b.alt with | some l => (List.range 4).map fun i => u8 l (132 + 4 * p + i) | none => [255, 255, 255, 255]
  if c = 0xFF then { PortCfg.reset p with enabled := false, phase := u16 b.map (4 * p + 2), list := list } else
  let l := b.classes
  let o := classAt c
  let opts := u8 l (o + 2)
  let k := u8 l (o + 8)
  let e (f : List Byte → Nat → Nat) (at' : Nat) : Nat :=
    match b.ownProg with | some g => f g (8 + 12 * u8 l (o + 6) + at') | none => 0
  { enabled := true, role := u8 l o, rp := u8 l (o + 1)
    vconnSrc := opts.testBit 0, drp := opts.testBit 1, dowser := opts.testBit 2, ntc := opts.testBit 3, eprOk := opts.testBit 4
    form := u8 l (o + 3) = 1, fsw := u16 l (o + 4), prog := u8 l (o + 6), coef := u8 l (o + 7), shed := u8 l (o + 9)
    slew := u16 l (o + 0xA), tSettle := u16 l (o + 0xC), ilim := u16 l (o + 0xE), ramp := u8 l (o + 0x10)
    faultT := u8 l (o + 0x11), tripK := u8 l (o + 0x12), retry := u8 l (o + 0x13), tGck := u8 l (o + 0x14)
    shunt := u16 l (o + 0x16), imax := u16 l (o + 0x18), snkI := u16 l (o + 0x1A), snkV := u16 l (o + 0x1C)
    twin := (u8 b.map (4 * p + 1)).testBit 0, phase := u16 b.map (4 * p + 2)
    sampleAt := e u32 0, presetAt := e u32 4, stack := e u16 8, list := list
    caps := (List.range (u8 b.caps (4 + 96 * k))).map (templateAt b.caps k)
    therm := thermalAt b.therm (u8 l (o + 0x15)) }

def powerOf (l : List Byte) : PowerCfg :=
  ⟨u16 l 0, u16 l 2, u16 l 4, u16 l 6, u16 l 8, u16 l 0xA, u16 l 0xC, u8 l 0xE, u16 l 0x10, (u8 l 0xF).testBit 0,
   (u8 l 0xF).testBit 1⟩

/-- Entry k of IRQ_ROUTE (R71). -/
def routeOf (l : List Byte) (k : Nat) : Nat := u8 l (8 + k / 4) / 4 ^ (3 - k % 4) % 4

/-- The tally region lies within the flash (R84). -/
def tallyFits (f : Option Sfdp) (size : Nat) : Bool :=
  match f with | some f => decide (0x200000 + 0x10000 * size ≤ f.density) | none => false

/-- The device-wide values (R69, R71, R76, R77, R80 to R84). -/
def devOf (code : Code) (f : Option Sfdp) (b : Bodies) : DevCfg :=
  let d := b.device
  let opts := u8 d 4
  let c := b.cistern
  let base : DevCfg := { DevCfg.reset code with
    feat := b.feat, restEn := opts.testBit 0, pref := opts.testBit 1, syncTrack := opts.testBit 2, syncDrive := opts.testBit 3
    restIdle := u8 d 5, route := (List.range 24).map (routeOf d)
    home := u32 c 0, guard := u32 c 4, resHome := u32 c 8, resGuard := u32 c 0xC, sysTotal := u32 c 0x10, tShed := u16 c 0x14 }
  let base := match b.link with
    | some l => { base with
        linkW := (u8 l 0).testBit 0, linkE := (u8 l 0).testBit 1, hops := u8 l 1, lease := u16 l 2, audit := u16 l 4
        protoMax := min (u8 l 6) 1, sleepOk := (u8 l 7).testBit 0, xformer := (u8 l 7).testBit 1, lendKeep := u16 l 8 }
    | none => base
  let base := match b.coef with | some l => { base with setBytes := u16 l 2 } | none => base
  let base := match b.alt with
    | some l => { base with
        altmode := true
        svids := (List.range (u8 l 0)).map fun i =>
          let o := 4 + 8 * i
          ⟨BitVec.ofNat 16 (u16 l o), u8 l (o + 2), u8 l (o + 3), u8 l (o + 4)⟩ }
    | none => base
  let base := match b.two with
    | some l => { base with
        auxEn := u8 l 0 % 8, baseA := u8 l 1, baseB := u8 l 2, baseC := u8 l 3
        timing := (List.range 4).map fun i => ⟨u8 l (4 + 4 * i), u8 l (5 + 4 * i), (u8 l (6 + 4 * i)).testBit 0⟩ }
    | none => base
  let base := match b.dowser with
    | some l => { base with zWet := u16 l 0, zDry := u16 l 2, vCorr := u16 l 4, tDry := u16 l 6, tWet := u16 l 8 }
    | none => base
  let base := match b.therm with | some l => { base with dieDerate := u8 l 2, dieCut := u8 l 3 } | none => base
  match b.tally with
  | some l => { base with
      tallyEn := decide (u8 l 0 = 1) && tallyFits f (u16 l 2), interval := u8 l 1, size := u16 l 2, holdC := u16 l 4
      holdVmin := u16 l 6 }
  | none => base

/-- What the apply step applies of a valid image (R67 to R88). -/
def imageOf (code : Code) (f : Option Sfdp) (src : Nat) (l : List Byte) : Image :=
  let h := headerOf l
  let b := bodiesOf l
  { seq := h.seq, build := h.build, fmtMajor := h.major, fmtMinor := h.minor, src := src
    featIgn := u32 b.device 0 / 64 * 64
    skip := (sectionsOf l).any fun x => !x.known
    romProg := b.ownProg.isNone
    talOff := match b.tally with | some t => !tallyFits f (u16 t 2) | none => false
    dev := devOf code f b
    ports := (List.range 48).map (portOf b)
    power := powerOf b.power
    code := match b.ownProg with | some g => flashAt g (8 + 12 * u8 g 1) (u32 g 4) | none => []
    sets := b.coef.map fun g => (List.range (u16 g 0)).map fun k => flashAt g (setAt k (u16 g 2)) (u16 g 2) }

/-- The values of a port under the ROM factory defaults (R88): the reset values, the dowser on. -/
def factoryPort (p : Nat) : PortCfg := { PortCfg.reset p with dowser := true }

/-- The ROM factory defaults (R88). -/
def factoryImage (code : Code) : Image :=
  { seq := 0, build := 0, fmtMajor := 0, fmtMinor := 0, src := 2, featIgn := 0, skip := false, romProg := true, talOff := false
    dev := DevCfg.reset code, ports := (List.range 48).map factoryPort, power := PowerCfg.factory, code := [], sets := none }

/-! ## The choice (R53, R68) -/

/-- What the read step finds: the reject codes, SECOND, the images rejected, and the image to apply. -/
structure Choice where
  rejA   : Nat
  rejB   : Nat
  second : Bool
  image  : Image

/-- The reject code of one image after the choice: its header's; else the full check's; else 0xF where the other was accepted first. -/
def choose (code : Code) (f : Option Sfdp) (a b : List Byte) : Choice :=
  let ha := headerCode f 0x100000 a
  let hb := headerCode f 0x200000 b
  let ca := decide (ha = 0)
  let cb := decide (hb = 0)
  let aFirst := ca && (!cb || decide ((headerOf b).seq ≤ (headerOf a).seq))
  let fa := if ca then fullCode a else ha
  let fb := if cb then fullCode b else hb
  if aFirst then
    if fa = 0 then ⟨0, if cb then 15 else hb, false, imageOf code f 0 a⟩
    else if cb && decide (fb = 0) then ⟨fa, 0, true, imageOf code f 1 b⟩
    else ⟨fa, fb, true, factoryImage code⟩
  else if cb then
    if fb = 0 then ⟨if ca then 15 else ha, 0, false, imageOf code f 1 b⟩
    else if ca && decide (fa = 0) then ⟨0, fb, true, imageOf code f 0 a⟩
    else ⟨fa, fb, true, factoryImage code⟩
  else ⟨ha, hb, false, factoryImage code⟩

/-- A code that stands for a rejection (R87). -/
def rejected (c : Nat) : Bool := decide (c ≠ 0) && decide (c ≠ 15)

/-- The access that the loader chooses from what the table advertises: 1-4-4, else 1-1-4, else 1-1-1; 4-byte addresses where the density
exceeds 16 MiB; the table's quad-enable method (R63). -/
def accessOf (f : Sfdp) : FlashAccess :=
  ⟨if f.fast144 then .m144 else if f.fast114 then .m114 else .m111, decide (0x1000000 < f.density), f.quad⟩

/-- ALMANAC_READ_DONE: SFDP, headers and the full check end, and the image to apply is chosen (R53, R63, R67, R68). -/
def execAlmanacReadDone (sfdp : Option Sfdp) (imgA imgB : List Byte) (s : State) : Res State :=
  if s.dev.phase = .read then
    let c := choose s.dev.code sfdp imgA imgB
    let n := if rejected c.rejA then satInc s.alm.rejCnt else s.alm.rejCnt
    .next { s with
      dev := { s.dev with phase := .apply, second := c.second }
      alm := { s.alm with
        rejA := c.rejA, rejB := c.rejB, sfdp := sfdp, chosen := some c.image, flash := sfdp.map accessOf
        flashPtr := flashAfter 0
        slow := match sfdp with | some f => decide ((accessOf f).mode ≠ .m144) | none => false
        rejCnt := if rejected c.rejB then satInc n else n } }
  else .next s

end Sys2Proof.Machine
end

