-- ==== Sys2Proof/Machine/LinkOps.lean ====
section
/-! DEFINITION. What the cistern and the commons link share: sending on a link port (R340), loan records (R348 to R350) and the
search for a loan (R347). -/

namespace Sys2Proof.Machine

def State.side (s : State) (east : Bool) : LinkPort := if east then s.lnk.e else s.lnk.w

def State.onSide (s : State) (east : Bool) (f : LinkPort → LinkPort) : State :=
  if east then { s with lnk.e := f s.lnk.e } else { s with lnk.w := f s.lnk.w }

def LinkSide.isEast : LinkSide → Bool
  | .west => false
  | .east => true

/-- Per-port link counters: 0 CRC, 1 RETRY, 2 FAIL, 3 LOST, 4 DRIFT, 5 BADFRM. -/
def State.lnkCnt (s : State) (east : Bool) (i : Fin 6) : State := s.onSide east fun l => { l with cnt := bump l.cnt i }

/-- DRIFT of a port: the guard of an audit slot was exceeded (R361). -/
def State.drift (s : State) (east : Bool) : State :=
  let s := s.lnkCnt east 4
  { s with lnk.evt := setBit s.lnk.evt 10 }

/-- An acknowledged frame joins the port's queue; the first one goes out at once (R340), or after a wake burst to a partner that
sleeps (R360). -/
def LinkPort.queue (l : LinkPort) (f : LinkFrame) : LinkPort :=
  { l with txq := l.txq ++ [f]
           att := if l.txq.isEmpty && decide (l.st ≠ .asleep) then 1 else l.att
           burst := l.burst || (l.txq.isEmpty && decide (l.st = .asleep)) }

def State.sendFrame (s : State) (east : Bool) (f : LinkFrame) : State := s.onSide east fun l => l.queue f

/-- A frame that is not acknowledged. -/
def State.sendLine (s : State) (east : Bool) (f : LinkFrame) : State := s.onSide east fun l => { l with line := some f }

/-- The next XID of a port, with the amount that it carries remembered for the audit; `ends` is its lease's end (R356, R357). -/
def State.nextXid (s : State) (east : Bool) (amount ends : Nat) : BitVec 16 × State :=
  let x := (s.side east).xidTx + 1#16
  (x, s.onSide east fun l => { l with xidTx := x, xfers := l.xfers ++ [⟨x, amount, ends + 1000000, false⟩] })

/-- The port carries loan frames, behind a wake burst if its partner sleeps: UP, but neither a RELAY port nor the closing hop of a ring, nor that
of a node without an ID (R341, R345, R346, R360). -/
def State.carries (s : State) (east : Bool) : Bool :=
  let l := s.side east
  !s.lnk.overId && (decide (l.st = .up) || (decide (l.st = .asleep) && decide (0 < l.ver) && !l.closed))

/-- GRANT, over a port that carries loans. -/
def State.sendGrant (s : State) (east : Bool) (req loan : BitVec 16) (amount leaseMs : Nat) : State :=
  if !s.carries east then s else
  let (x, s) := s.nextXid east amount (s.dev.aon + 1000 * leaseMs)
  s.sendFrame east (.grant req x loan amount leaseMs)

/-- LAPSE, over a port that carries loans. -/
def State.sendLapse (s : State) (east : Bool) (loan : BitVec 16) (amount ends : Nat) : State :=
  if !s.carries east then s else
  let (x, s) := s.nextXid east amount ends
  s.sendFrame east (.lapse x loan amount)

/-- The commons link runs: from the apply step on, and not in rest nor before its exit is complete (R55, R61, R360). -/
def State.linkRuns (s : State) : Bool := match s.dev.phase with | .restore | .cal | .run => true | _ => false

/-- The port may carry loans (R341, R346). -/
def State.sideUp (s : State) (east : Bool) : Bool := decide ((s.side east).st = .up) && !s.lnk.overId
/-- The port takes base frames (R341). -/
def LinkPort.isLinked (l : LinkPort) : Bool := l.st = .up || l.st = .relay || l.st = .closing

/-- The port has a partner that frames reach: one that sleeps is woken by a burst first (R360). -/
def LinkPort.reached (l : LinkPort) : Bool := l.isLinked || l.st = .asleep

/-- The state of a port whose partner is awake again: CLOSING if it was, else UP or RELAY by its common version (R341, R360). -/
def LinkPort.awakeSt (l : LinkPort) : LinkState := if l.closed then .closing else if 0 < l.ver then .up else .relay

/-! ## Frames on the line (R337 to R339, R357) -/

/-- TYPE of a frame. -/
def linkType : LinkFrame → BitVec 4
  | .hello _ => 0x0#4 | .ack _ => 0x1#4 | .enum _ _ _ => 0x2#4 | .enumDone _ _ => 0x3#4 | .audit _ => 0x4#4 | .auditRes _ _ _ => 0x5#4
  | .sleep _ => 0x6#4 | .req _ _ _ => 0x8#4 | .grant _ _ _ _ _ => 0x9#4 | .refuse _ => 0xA#4 | .renew _ _ _ => 0xB#4
  | .renewAck _ _ => 0xC#4 | .lapse _ _ _ => 0xD#4

/-- A frame that needs a common version. -/
def isLoanFrame (f : LinkFrame) : Bool := (linkType f).getLsbD 3

/-- The payload of the AUDIT token. -/
def auditBytes (t : AuditTok) : List Byte :=
  beBytes 2 t.auditNo.toNat ++ beBytes 2 t.nodes.toNat ++ beBytes 4 t.sysTotal.toNat ++ beBytes 4 t.homeSum.toNat ++
  beBytes 4 t.lentSum.toNat ++ beBytes 4 t.borrowedSum.toNat ++ beBytes 4 t.inTransit.toNat ++ beBytes 2 t.lastXidRx.toNat ++
  beBytes 2 t.period.toNat ++ beBytes 1 (bitAt 0 t.sysDiffers + bitAt 1 t.returnLeg) ++ beBytes 3 0

/-- The payload of a frame. -/
def linkPayload : LinkFrame → List Byte
  | .hello h => beBytes 1 h.protoMin ++ beBytes 1 h.protoMax ++ beBytes 1 (bitAt 0 h.sideEast) ++ beBytes 1 (bitAt 0 h.sleepOk) ++
      beBytes 6 h.uid.toNat ++ beBytes 4 h.tag.toNat ++ beBytes 2 0
  | .ack _ => []
  | .enum n u c => beBytes 2 n.toNat ++ beBytes 6 u.toNat ++ beBytes 1 (bitAt 0 c) ++ beBytes 1 0
  | .enumDone n c => beBytes 2 n.toNat ++ beBytes 1 (bitAt 0 c) ++ beBytes 1 0
  | .audit t => auditBytes t
  | .auditRes a r n => beBytes 2 a.toNat ++ beBytes 1 r.toNat ++ beBytes 1 0 ++ beBytes 2 n.toNat
  | .sleep w => beBytes 4 w
  | .req r a h => beBytes 2 r.toNat ++ beBytes 4 a ++ beBytes 1 h ++ beBytes 1 0
  | .grant r x l a ms => beBytes 2 r.toNat ++ beBytes 2 x.toNat ++ beBytes 2 l.toNat ++ beBytes 4 a ++ beBytes 2 ms
  | .refuse r => beBytes 2 r.toNat
  | .renew l a ms => beBytes 2 l.toNat ++ beBytes 4 a ++ beBytes 2 ms
  | .renewAck l k => beBytes 2 l.toNat ++ beBytes 4 k
  | .lapse x l a => beBytes 2 x.toNat ++ beBytes 2 l.toNat ++ beBytes 4 a

/-- The header of a frame that a port sends with its sequence number and the negotiated version: an ACK carries the SEQ that it
acknowledges, a base frame VER 0 (R338). -/
def linkHeader (seq : BitVec 4) (ver : Nat) (f : LinkFrame) : BitVec 16 :=
  linkType f ++ (match f with | .ack k => k | _ => seq) ++ BitVec.ofNat 2 (if isLoanFrame f then ver else 0) ++
    BitVec.ofNat 6 (linkPayload f).length

/-- Header and payload, which the check value covers. -/
def linkBody (seq : BitVec 4) (ver : Nat) (f : LinkFrame) : List Byte := beBytes 2 (linkHeader seq ver f).toNat ++ linkPayload f

/-- A frame as sent: preamble, start byte, header, payload and CRC-16 (R337). -/
def linkBytes (seq : BitVec 4) (ver : Nat) (f : LinkFrame) : List Byte :=
  0xAA#8 :: 0xAA#8 :: 0xB5#8 :: (linkBody seq ver f ++ beBytes 2 (crc16 (linkBody seq ver f)).toNat)

/-- Manchester code, most significant bit first: the two halves of each bit, true for high (R337). -/
def manchester (l : List Byte) : List Bool :=
  l.flatMap fun b => (List.range 8).flatMap fun i => if b.getLsbD (7 - i) then [false, true] else [true, false]

/-- The frame that a port sends now: the acknowledged one in flight, else the last of the others; a wake burst holds it back. -/
def LinkPort.sending (l : LinkPort) : Option LinkFrame :=
  if l.burst then none else if 0 < l.att then l.txq.head? else l.line

/-! ## The loan table -/

def State.loan (s : State) (i : Fin 32) : Loan := s.cis.loans[i]
def State.onLoan (s : State) (i : Fin 32) (f : Loan → Loan) : State :=
  { s with cis.loans := s.cis.loans.set i (f s.cis.loans[i]) }

/-- A free record. -/
def State.freeLoan (s : State) : Option (Fin 32) := (List.finRange 32).find? fun i => !s.cis.loans[i].valid

/-- The record of a loan by its kind, port and lender's ID. -/
def State.findLoan (s : State) (lent east : Bool) (id : BitVec 16) : Option (Fin 32) :=
  (List.finRange 32).find? fun i =>
    let l := s.cis.loans[i]
    l.valid && (l.lent == lent) && (l.east == east) && (l.id == id)

/-- A record freed; a record linked to it stands alone. -/
def State.dropLoan (s : State) (i : Fin 32) : State :=
  let l := s.loan i
  let s := s.onLoan i fun _ => Loan.none
  let s := { s with cis.ahead := s.cis.ahead - l.led }
  if l.relay then s.onLoan ⟨l.linked % 32, Nat.mod_lt _ (by decide)⟩ fun m => { m with relay := false, linked := 0 } else s

/-! ## Seeking a loan (R347) -/

def State.openReq (s : State) (east : Bool) : Option LoanReq := if east then s.cis.reqE else s.cis.reqW
def State.setReq (s : State) (east : Bool) (r : Option LoanReq) : State :=
  if east then { s with cis.reqE := r } else { s with cis.reqW := r }

/-- A REQ on one port; what an earlier request of that number is still remembered for ends (R348). -/
def State.askSide (s : State) (east : Bool) (amount hops : Nat) (second any : Bool) (up : Option (BitVec 16)) : State :=
  let id := s.cis.nextReq
  let s := { s with cis := { s.cis with
    nextReq := id + 1#16, late := s.cis.late.filter fun x => !(x.1 == east && x.2.1 == id) } }
  (s.setReq east (some ⟨id, amount, 0, hops, second, any, up⟩)).sendFrame east (.req id amount hops)

/-- Relayed requests that can go no further are given up: REFUSE for those of which this node has granted nothing (R348). -/
def State.refuseRelays (s : State) (gone : Relayed → Bool) : State :=
  (s.cis.relays.filter gone).foldl
    (fun s r => if r.granted || !s.carries (!r.east) then s else s.sendFrame (!r.east) (.refuse r.up))
    { s with cis := { s.cis with relays := s.cis.relays.filter fun r => !gone r } }

/-- Rounded up to a multiple of 10 credits. -/
def tens (n : Nat) : Nat := (n + 9) / 10 * 10

/-- The cistern seeks a loan of a shortfall: one request open at a time, first on the side whose turn it is, else on the other,
only on ports in UP and never on the reserve profile (R347, R354). What arises while a request is open waits for the next. -/
def State.seek (s : State) (short : Nat) : State :=
  if short = 0 ∨ s.cis.reserve then s
  else if s.cis.reqW.isSome || s.cis.reqE.isSome then { s with cis.short := s.cis.short + short }
  else
    let first := s.cis.nextEast
    let amount := tens (short + s.cis.short)
    if s.sideUp first then { s with cis.nextEast := !first, cis.short := 0 }.askSide first amount 1 false false none
    else if s.sideUp (!first) then { s with cis.nextEast := !first, cis.short := 0 }.askSide (!first) amount 1 true false none
    else s

end Sys2Proof.Machine
end

