-- ==== Sys2Proof/Machine/OfferOps.lean ====
section
/-! DEFINITION. What a port offers and requests: the Source_Capabilities of R142 and R143, the trigger of a new offer (R165), the
sink's choice of a request (R154, R155, R172), and the give-way of a VDM exchange (R179). -/

namespace Sys2Proof.Machine

/-! ## A VDM exchange gives way (R179) -/

/-- The timers of an exchange with the partner disarmed. -/
def State.vdmTimersOff (s : State) (p : Port) : State :=
  [TimerId.vdmBusy, .vdmSenderResponse, .vdmWaitModeEntry].foldl (fun s t => s.disarm p t) s

/-- The timers of an attempt at cable discovery disarmed; the limit of the whole discovery runs on (R180). -/
def State.cableTimersOff (s : State) (p : Port) : State :=
  [TimerId.discoverIdentity, .cableResponse].foldl (fun s t => s.disarm p t) s

/-- An exchange with the partner is in progress and has not given way. -/
def VdmP.sopBusy (m : VdmP) : Bool := m.out.isSome && !m.intr
/-- Cable discovery is in progress and has not given way. -/
def VdmP.cabBusy (m : VdmP) : Bool := decide (m.cab ≠ .idle) && !m.cabIntr

/-- A message of this kind waits for its first transmission. -/
def Prot.unsent (t : Prot) (k : TxKind) : Bool := (t.txq.drop (if 0 < t.tries then 1 else 0)).any fun m => decide (m.kind = k)

/-- Messages of some kinds are withdrawn: those that wait, and one that awaits its GoodCRC or its next try, which takes the next MessageID with
it. One on the line goes on (R109, R179, assumption 41). -/
def Prot.withdraw (t : Prot) (gone : TxKind → Bool) : Prot :=
  let u := { t with txq := t.txq.filter fun m => !gone m.kind }
  let tried := match t.await with | some m => some m | none => if 0 < t.tries then t.txq.head? else none
  match tried with
  | some m => if gone m.kind && !t.inProg then u.txDone m.sop else u
  | none => u

/-- A VDM exchange in progress is abandoned and marked interrupted, with the partner or with the cable. Cable discovery before the first
offer never is. DESIGN CHOICE (assumption 41): where one message abandons both, VDM_INTR_CNT counts once, of which R179 does not speak. -/
def State.vdmInterrupt (s : State) (p : Port) : State :=
  let m := (s.port p).vdm
  if (m.sopBusy || m.cabBusy) && decide ((s.port p).pd.src ≠ .startup) then
    let s := if m.sopBusy then
        (s.vdmTimersOff p).onPort p fun x => { x with
          vdm := { x.vdm with intr := true, waiting := false, busies := 0 }, prot := x.prot.withdraw (· = .vdm) }
      else s
    let s := if m.cabBusy then
        (s.cableTimersOff p).onPort p fun x => { x with vdm := { x.vdm with cabIntr := true }, prot := x.prot.withdraw (· = .cable) }
      else s
    (s.vdmEvt p 7).vdmCnt p 4
  else s

/-! ## The offer (R142, R143) -/

/-- PD_CABLE as limits: current in mA (R139, R181). -/
def Cable.ma (c : Cable) : Nat := if c.imax = 2 then 5000 else 3000
/-- Rated voltage in mV. -/
def Cable.mv (c : Cable) : Nat := tab [20000, 30000, 40000, 50000] c.vmax 50000

/-- The values of the moment at which an offer is built (R142). `low` are the bits of the terms that equal the budget. -/
structure OfferEnv where
  budget : Nat
  low    : Nat
  cable  : Cable
  stage  : Nat
  twinCut : Bool
  /-- the stage voltage, while the sibling is attached -/
  twin   : Option Nat
  noMove : Bool
  wet    : Bool
  epr    : Bool
  feat   : Nat

/-- The cable as the port may use it: a port that has lost VCONN takes it as 3 A, 20 V and no EPR (R31, R102), though PD_CABLE holds
what discovery found until the detach (R139). -/
def State.cableNow (s : State) (p : Port) : Cable :=
  let x := s.port p
  if x.tc.vcoc || !s.vconnOk p || (x.pd.vconnSrc && !x.tc.vconn) then ⟨false, 0, 0, false⟩ else x.pd.cable

/-- The environment of a port's offer. -/
def State.offerEnv (s : State) (p : Port) : OfferEnv :=
  let x := s.port p
  let a : Int := x.pd.charge + s.free
  let b : Int := s.pAllow p
  let c : Int := if 0 < x.pd.cut then (x.pd.charge : Int) - x.pd.cut else max a b
  let m := min (min a b) c
  let sib := match (s.port (sibOf p)).pd.contract with | some k => k.ma | none => 0
  { budget := m.toNat
    low := bitAt 0 (a = m) + bitAt 1 (b = m) + bitAt 6 (decide (0 < x.pd.cut) && decide (c = m))
    cable := s.cableNow p
    stage := if x.cfg.twin then 10 * x.cfg.imax - sib else 10 * x.cfg.imax
    twinCut := x.cfg.twin && decide (0 < sib)
    twin := if s.sibAttached p then some (s.port (s.stageOf p)).stg.target else none
    noMove := x.pd.noMove
    wet := x.grd.wet
    epr := x.pd.epr = .epr
    feat := s.alm.cfg.feat }

/-- The bits of the limits that bound a current: those at the minimum and below the template's own limit. -/
def OfferEnv.why (e : OfferEnv) (lim viaBudget : Nat) : Nat :=
  let i := min (min lim viaBudget) (min e.cable.ma e.stage)
  if i = lim then 0
  else (if viaBudget = i then e.low else 0) ||| bitAt 2 (e.cable.ma = i) |||
    (if e.stage = i then (if e.twinCut then 16 else 8) else 0)

/-- What becomes of one template: the object offered, if any, and the bits that it sets in PD_OFFER (R142). The range of a PPS object is the
rounded one, beside an attached sibling too (R169). -/
def OfferEnv.object (e : OfferEnv) (t : Template) (first : Bool) : Option Offered × Nat :=
  let v := 10 * t.v
  let top := if t.kind = 2 ∨ t.kind = 4 then 10 * t.vmax else v
  let moves := match e.twin with
    | none => false
    | some u =>
      if t.kind = 2 then !(decide ((v + 99) / 100 * 100 ≤ u) && decide (u ≤ top / 100 * 100))
      else if t.kind = 4 then !(decide (v ≤ u) && decide (u ≤ top)) else decide (v ≠ u)
  if !first && (decide (t.kind = 0) || decide (4 < t.kind) || featOff e.feat t) then (none, 0)
  else if e.wet && !first then (none, 32)
  else if decide (3 ≤ t.kind) && !(e.epr && e.cable.epr) then (none, 0)
  else if !first && (moves || (e.noMove && (decide (t.kind = 2) || decide (t.kind = 4)))) then (none, 16)
  else if e.cable.mv < top then (none, 4)
  else
    let lim := 10 * t.limit
    match t.kind with
    | 2 =>
      let lo := (v + 99) / 100 * 100
      let hi := top / 100 * 100
      if hi < lo then (none, 0) else
      let vb := e.budget * 100000 / hi
      let i := min (min lim vb) (min e.cable.ma e.stage) / 50 * 50
      if i < 500 then (none, 0) else (some ⟨2, .pps lo hi i⟩, e.why lim vb)
    | 4 =>
      let w := min (min t.limit (e.budget / 10)) (5 * top / 1000)
      if w < 15 then (none, 0)
      else (some ⟨4, .avs v top w⟩, if e.budget / 10 = w ∧ w < t.limit then e.low else 0)
    | k =>
      let vb := e.budget * 100000 / v
      let i := min (min lim vb) (min e.cable.ma e.stage) / 10 * 10
      if !first && decide (i < 100) then (none, 0) else (some ⟨k, .fixed v (max i 10)⟩, e.why lim vb)

/-- The objects of an offer in message order: in EPR mode the SPR ones are padded to seven (R142). -/
def padSpr (epr : Bool) (l : List Offered) : List Offered :=
  if epr then
    let a := l.filter fun o => decide (o.kind < 3)
    a ++ List.replicate (7 - a.length) ⟨0, .zero⟩ ++ l.filter fun o => decide (3 ≤ o.kind)
  else l

/-- The offer of R142 as of now. -/
def State.buildOffer (s : State) (p : Port) : Offer :=
  let x := s.port p
  let e := s.offerEnv p
  let r := x.cfg.caps.zipIdx.map fun t => e.object t.1 (t.2 = 0)
  { budget := e.budget
    bound := BitVec.ofNat 32 (r.foldl (fun a y => a ||| y.2) 0)
    pdos := padSpr (x.pd.epr = .epr ∨ x.pd.epr = .exit) (r.filterMap (·.1))
    allow := s.pAllowUw p }

/-- The class and the features accept EPR entry (R143, R150). -/
def State.eprClass (s : State) (p : Port) : Bool :=
  (s.port p).cfg.eprOk && (s.alm.cfg.feat.testBit 1 || s.alm.cfg.feat.testBit 2)

/-- The capabilities message of an offer, with the header bits of R143. -/
def State.capsMsg (s : State) (p : Port) (o : Offer) : SrcCaps :=
  { unconstrained := !s.cis.reserve, usbComm := false, dualRoleData := false, unchunked := false
    dualRolePower := (s.port p).cfg.role = 2
    eprCapable := s.eprClass p && (s.cableNow p).epr
    pdos := o.pdos.map (·.pdo) }

/-- EPR messages are in use: in EPR mode, and while it is left (R144, R151). -/
def Pd.eprMsgs (d : Pd) : Bool := d.epr = .epr || d.epr = .exit

/-- The source builds its offer and sends it as attempt n of SEND_CAPS (R138, R142, R165, R167). -/
def State.offerTry (s : State) (p : Port) (n : Nat) : State :=
  let s := s.vdmInterrupt p
  let o := s.buildOffer p
  let x := s.port p
  let s := s.onPort p fun x => { x with pd := { x.pd with
    src := .sendCaps, offer := o, capsTry := n, due := false, trigger := false, spacing := false } }
  let s := (s.arm p .reofferSpacing).disarm p .firstSourceCap
  let s := if x.pd.shed && !(x.pd.live.any fun e => e.1 = .shedLimit) then s.arm p .shedLimit else s
  let c := s.capsMsg p o
  if x.pd.eprMsgs then s.send p .sop .eprCaps (.eprSourceCap c) else s.send p .sop .caps (.sourceCap c)

/-- A fresh offer: its first attempt. -/
def State.offer (s : State) (p : Port) : State := s.offerTry p 1

/-- A trigger of R165: a source in READY offers now; else the trigger is held, and merges with one already held. -/
def State.offerDue (s : State) (p : Port) : State :=
  let x := s.port p
  if !x.tc.isSrc then s
  else if x.pd.src = .ready then s.offer p
  else s.onPort p fun x => { x with pd := { x.pd with trigger := true } }

/-! ## The sink's request (R154, R155, R172) -/

/-- The fixed object of a list that a test accepts, with its position. -/
def findFixed (l : List Pdo) (f : Nat → Bool) : Option (Nat × Nat × Nat) :=
  l.zipIdx.findSome? fun o => match o.1 with
    | .fixed mv ma => if f mv then some (o.2 + 1, mv, ma) else none
    | _ => none

/-- The highest SPR fixed voltage among the first seven objects (R154). -/
def topFixed (l : List Pdo) : Nat :=
  (l.take 7).foldl (fun a o => match o with | .fixed mv _ => max a mv | _ => a) 0

/-- The voltage of a contract that draws current. -/
def drawnAt (c : Option Contract) : Option Nat := match c with | some k => if 0 < k.opMa then some k.mv else none | none => none

/-- What a sink draws or is about to draw: the contract that it has asked for, once the partner may act on it, else the one in force
(R172). -/
def Pd.drawing (d : Pd) : Option Contract :=
  match d.snk with
  | .select => d.want.or d.contract
  | .transition => d.want.or d.contract
  | _ => d.contract

/-- The voltage the sink wants: SNK_V, or the highest SPR one; beside an attached twin, the stage voltage, which its own
contract or else the twin's gives if it draws current; under WET 5 V (R117, R154, R172). -/
def State.sinkWants (s : State) (p : Port) (l : List Pdo) : Nat :=
  let x := s.port p
  if x.grd.wet then 5000
  else if s.sibAttached p then (drawnAt x.pd.contract).getD ((drawnAt (s.port (sibOf p)).pd.drawing).getD 5000)
  else if x.cfg.snkV = 0 then topFixed l else 100 * x.cfg.snkV

/-- A contract kind of a position and voltage for a sink. -/
def sinkKind (pos : Nat) : Kind := if 8 ≤ pos then .eprFixed else .fixed

/-- The sibling draws at a voltage other than the one wanted, so the port draws nothing (R117, R172). -/
def State.stageApart (s : State) (p : Port) (want : Nat) : Bool :=
  s.sibAttached p && (match drawnAt (s.port (sibOf p)).pd.drawing with | some v => decide (v ≠ want) | none => false)

/-- The request object that the sink chooses from the capabilities received last. -/
def State.choose (s : State) (p : Port) : Contract × Rdo :=
  let x := s.port p
  let l := x.pd.srcCaps
  let want := s.sinkWants p l
  let allow := s.pAllow p
  match findFixed l (fun mv => decide (mv = want) && !s.stageApart p want) with
  | some (pos, mv, ma) =>
    let i := min (min (10 * x.cfg.snkI) ma) (allow * 100000 / max mv 1) / 10 * 10
    (⟨pos, sinkKind pos, mv, i, i, mv * i / 100000⟩, ⟨pos, i, i, mv, false⟩)
  | none =>
    let ma := match l with | .fixed _ ma :: _ => ma | _ => 0
    let i := if s.sibAttached p then 0 else min (10 * x.cfg.snkI) ma
    (⟨1, .fixed, 5000, i, i, 5000 * i / 100000⟩, ⟨1, i, i, 5000, true⟩)

/-- The sink asks for EPR mode: SNK_V above 20 V, the class, the feature, the partner and an SPR contract allow it, it has not asked
before, and WET does not hold it at 5 V (R117, R154, R155). -/
def State.wantsEpr (s : State) (p : Port) : Bool :=
  let x := s.port p
  decide (200 < x.cfg.snkV) && x.cfg.eprOk && s.alm.cfg.feat.testBit 1 && x.pd.partnerEpr && x.pd.contract.isSome &&
    decide (x.pd.epr = .spr) && !s.sibAttached p && !x.pd.eprPend && !x.grd.wet

/-- EVALUATE (R153 to R155): the sink first asks for EPR mode when SNK_V needs it and a contract is in force; else it requests. -/
def State.evaluate (s : State) (p : Port) : State :=
  let s := s.disarm p .sinkRequest
  if s.wantsEpr p then
    (s.onPort p fun x => { x with pd := { x.pd with snk := .ready, epr := .entry, eprPend := true } }).send p .sop .eprEnter
      (.eprMode .enter)
  else
    let (c, r) := s.choose p
    let a := s.pAllowUw p
    let s := s.onPort p fun x => { x with pd := { x.pd with snk := .select, want := some c, offer := { x.pd.offer with allow := a } } }
    if (s.port p).pd.eprMsgs then s.send p .sop .request (.eprRequest r) else s.send p .sop .request (.request r)

end Sys2Proof.Machine
end

