-- ==== Sys2Proof/Machine/TypeC.lean ====
section
/-! DEFINITION. The Type-C connection machine (R89 to R103): attach, detach, holds, self-test, toggling and VCONN. -/

namespace Sys2Proof.Machine

/-- The CC comparators of a port work: its pins are live and its die is there, in rest too (R90). -/
def State.ccRuns (s : State) (p : Port) : Bool :=
  (s.port p).live && !s.lost p &&
  (match s.dev.phase with | .run | .rest | .wakePll | .wakeLinks | .wakeCal => true | _ => false)

/-- The pin on which a source sees Rd, with nothing or Ra on the other: some false is CC1 (R91, R95). -/
def rdPin (rp cc1 cc2 : Nat) : Option Bool :=
  match srcPin rp cc1, srcPin rp cc2 with
  | .rd, .rd => none
  | .rd, _ => some false
  | _, .rd => some true
  | _, _ => none

/-- Ra on the pin that does not carry Rd. -/
def raOther (rp cc1 cc2 : Nat) : Bool :=
  match rdPin rp cc1 cc2 with
  | some false => srcPin rp cc2 = .ra
  | some true => srcPin rp cc1 = .ra
  | none => false

/-- An accessory or a lone Ra on a source's pins (R96). -/
def srcAccessory (rp cc1 cc2 : Nat) : Bool :=
  match srcPin rp cc1, srcPin rp cc2 with
  | .rd, .rd => true
  | .ra, .ra => true
  | .ra, .open' => true
  | .open', .ra => true
  | _, _ => false

/-- A sink sees Rp on exactly one pin: on both it is an accessory's (R91, R96). -/
def Tc.rpOne (t : Tc) : Bool := decide (0 < snkPin t.cc1) != decide (0 < snkPin t.cc2)

/-- An accessory or lone Ra is seen: once per presentation (R96). -/
def State.accessory (s : State) (p : Port) : State :=
  if (s.port p).tc.accSeen then s
  else ((s.onPort p fun x => { x with tc := { x.tc with accSeen := true } }).tcEvt p 7).tcCnt p 2

/-- The open-circuit voltage of a pin that presents Rp with nothing connected, in mV: 2.75 V to 3.465 V (R90, R403, assumption 79). -/
def openCc (p : Port) (cc2 : Bool) : Nat := 2750 + (Config.openMv p.val cc2).val

/-- A presentation begins in an unattached state: until the comparators report otherwise nothing is connected, so that a pin with Rp
reads the open-circuit voltage, and one with Rd 0 V (R90, assumption 79). -/
def Tc.fresh (t : Tc) (p : Port) (st : ConnState) : Tc :=
  { t with st := st, backv := false, accSeen := false, prp := 0, pin := none, ccDone := false
           cc1 := if st = .unattSrc then openCc p false else 0
           cc2 := if st = .unattSrc then openCc p true else 0 }

/-- The connection machine reports its change of state, if there was one (class 2, R130). -/
def State.noteFrom (s : State) (p : Port) (old : ConnState) : State := if (s.port p).tc.st = old then s else s.noteConn p

/-- The unattached state, or GUARD_OFF while a guard condition stands (R116, R128). -/
def State.toUnatt (s : State) (p : Port) : State :=
  (s.onPort p fun x => { x with tc := x.tc.fresh p (if x.grd.off then .guardOff else unattOf x.cfg.role) }).noteFrom p (s.port p).tc.st

/-- VBC of a port as last measured, in mV. -/
def PortState.vbcMv (x : PortState) : Nat := (x.stg.meas.vbc / 1000).toNat
def PortState.vbsMv (x : PortState) : Nat := (x.stg.meas.vbs / 1000).toNat

/-- What the sluice's checks see of VBC, below vSafe0V or not: the FET-short window has seen the node low, which is the downstream one of a
source port, and the discharge FET of FETG stays off once VBC is down, while that of FETS follows VBC (R218, R219). -/
def PortState.seeLow (x : PortState) (low : Bool) : PortState :=
  { x with slc := { x.slc with
      low0 := low
      seenLow := x.slc.seenLow || (x.slc.window && low)
      dsc := if x.slc.st = .fault then (if x.cnt.fets then !low else x.slc.dsc && !low) else x.slc.dsc } }

/-- VBC measured now. -/
def State.seeVbc (s : State) (p : Port) (mv : Nat) : State :=
  s.onPort p fun x => { x with stg := { x.stg with meas := { x.stg.meas with vbc := 1000 * (mv : Int) } } }.seeLow (below0V mv)

/-- VBC of a port in step 2 of a Hard Reset has fallen below vSafe0V behind a sluice that is OFF already: step 3 is due (R162). -/
def State.vbcFell (s old : State) (p : Port) : State :=
  let x := s.port p
  if x.tc.isSrc && decide (x.pd.hr = .discharge) && decide (x.slc.st = .off) && x.slc.low0 && !(old.port p).slc.low0 then
    s.postPort p 1 .sluice
  else s

/-- ILIM_ACT in 10 mA units, and ISET in 0.1 mA units, that go with a contract, or with none (R200, R257). -/
def PortState.limits (x : PortState) (c : Option Contract) : Nat × Nat :=
  let lim := ilimAct x.cfg.ilim (match c with | some c => c.ma | none => typeCma x.cfg.rp)
  let want := match c with
    | some c => if c.kind = .pps ∨ x.tc.isSnk then 10 * c.opMa else 11 * c.ma
    | none => 11 * typeCma x.cfg.rp
  (lim, min want (95 * lim))

/-- The limits of a contract commanded: the sluice's limit, and ISET of the stage unless the sibling is attached (R201, R238, R257).
`raise` says that only a raise takes effect now. -/
def State.limitsFor (s : State) (p : Port) (c : Option Contract) (raise : Bool) : State :=
  let x := s.port p
  let l := x.limits c
  let s := if raise && decide (l.1 ≤ x.slc.ilim) then s else s.slcCmd p (.ilim l.1)
  if s.sibAttached p then s
  else s.onPort (s.stageOf p) fun y =>
    if raise && decide (l.2 ≤ y.loop.iset) then y else { y with loop := { y.loop with iset := l.2 } }

/-- The limits of the port's present contract (R201). -/
def State.limitsNow (s : State) (p : Port) : State := s.limitsFor p (s.port p).pd.contract false

/-- VCONN on the inactive pin (R101): class bit, Ra and VCONN_IN; tVCONNStable and the discovery limit start with it (R139, R180). -/
def State.vconnOn (s : State) (p : Port) : State :=
  (((s.onPort p fun x => { x with tc := { x.tc with vconn := true, dis := none }, pd := { x.pd with vconnSrc := true, cabled := false } }).arm
    p .vconnStable).arm p .cableLimit)

/-- A source port supplies VCONN if it can; else its cable counts as discovered without success (R139). -/
def State.vconnTry (s : State) (p : Port) : State :=
  let x := s.port p
  if x.cfg.vconnSrc && x.tc.ra && s.vconnOk p && !x.tc.vcoc then s.vconnOn p
  else s.onPort p fun x => { x with pd := { x.pd with cabled := true } }

/-- What the crier announced still stands (R174, R372): in NORMAL with WRN set, in NORMAL with WRN clear, out of NORMAL, or in NORMAL. -/
def State.causeStands (s : State) : InputCause → Bool
  | .dip => !s.supSeen.1 && s.supSeen.2
  | .restored => !s.supSeen.1 && !s.supSeen.2
  | .reserve => s.supSeen.1
  | .normal => !s.supSeen.1

/-- ATT_SRC entered (R92, R95, R101, R138, R196). DESIGN CHOICE (assumption 88): VDM_CABLE and VDM_ID return to 0 at each attach, while
VDM_ATTN keeps the last Attention until a port reset; R181 gives no moment at which they clear. -/
def State.attachSrc (s : State) (p : Port) : State :=
  let s := s.onPort p fun x => { x with
    tc := { x.tc with st := .attSrc, orient := (rdPin x.cfg.rp x.tc.cc1 x.tc.cc2) == some true, backv := false
                      ra := raOther x.cfg.rp x.tc.cc1 x.tc.cc2 }
    pd := { x.pd with src := .startup, holdCred := false, holdTwin := false, lost := false, cable := ⟨false, 0, 0, false⟩, short := 0 }
    vdm := { x.vdm with ver := 21, cabVer := 21, sop2 := none, id := 0#32, cable := 0#32 }
    grd := { x.grd with cc1 := PinRun.none, cc2 := PinRun.none } }
  let s := ((s.tcEvt p 0).tcCnt p 0).noteConn p
  let s := s.vconnTry p
  let s := s.limitsNow p
  (s.slcCmd p .on).muxUpdate p

/-- ATT_SNK entered (R94, R95, R153, R196); VDM_CABLE and VDM_ID as in `State.attachSrc`. DESIGN CHOICE (assumption 110): the second sink twin's
on request, which R196 puts here while R172 keeps its sluice OFF, waits for a contract that draws current. -/
def State.attachSnk (s : State) (p : Port) : State :=
  let s := s.onPort p fun x => { x with
    tc := { x.tc with st := .attSnk, orient := decide (x.tc.cc1 < x.tc.cc2), prp := snkPin (max x.tc.cc1 x.tc.cc2), backv := false }
    pd := { x.pd with snk := .startup, holdTwin := false, lost := false, cabled := true }
    vdm := { x.vdm with ver := 21, cabVer := 21, sop2 := none, id := 0#32, cable := 0#32 }
    grd := { x.grd with cc1 := PinRun.none, cc2 := PinRun.none } }
  let s := ((s.tcEvt p 0).tcCnt p 0).noteConn p
  let s := s.arm p .sinkWaitCap
  let s := s.limitsNow p
  let s := if s.sibAttached p then s else s.slcCmd p .on
  s.muxUpdate p

/-- The stage that serves a port stands at vSafe5V (R170). -/
def State.stage5V (s : State) (p : Port) : Bool :=
  let x := s.port (s.stageOf p)
  x.stg.den && decide (x.stg.target = 5000) && decide (x.stg.ref = 5000000) && in5V x.vbsMv

/-- A twin may not attach yet (R170, R220, R242): its sibling is attached in the other role, or is in FETS or LIMP; or, for a source,
the stage does not stand at vSafe5V. -/
def State.twinHeld (s : State) (p : Port) (sink : Bool) : Bool :=
  let x := s.port p
  let y := s.port (sibOf p)
  x.cfg.twin && (y.cnt.fets || y.cnt.limp ||
    (y.tc.attached && (y.tc.isSnk != sink)) ||
    (!sink && !s.stage5V p))

/-- Rd is present on the pin on which the attempt began (R141). -/
def PortState.rdSame (x : PortState) : Bool := x.tc.pin.isSome && rdPin x.cfg.rp x.tc.cc1 x.tc.cc2 == x.tc.pin

/-- ISET of the Type-C current, with which a source's stage starts (R257). -/
def State.isetFirst (s : State) (p : Port) : State :=
  let l := (s.port p).limits none
  if s.sibAttached p then s
  else s.onPort (s.stageOf p) fun y => { y with loop := { y.loop with iset := l.2 } }

/-- Port p or its twin is in FETS, which keeps the stage off (R220). -/
def State.fetsPair (s : State) (p : Port) : Bool :=
  (s.port p).cnt.fets || ((s.port p).cfg.twin && (s.port (sibOf p)).cnt.fets)

/-- A start or a stop command of port p still waits to reach the bank (R135). -/
def PortState.stageAsked (x : PortState) : Bool :=
  x.pd.stgq.any fun | .start _ => true | .stop => true | _ => false

/-- The stage of a port in ATTWAIT_SRC is to be commanded to vSafe5V: nothing holds it down, the port does not hold it on yet, or holds on what
its sibling left at another voltage (R93, R170, R196, R220, R223). -/
def State.stageDue (s : State) (p : Port) : Bool :=
  let x := s.port p
  let g := (s.port (s.stageOf p)).stg
  decide (x.tc.st = .attwaitSrc) && x.slc.low0 && !x.tc.backv && s.dev.vauxOk && s.dev.stop.isNone && !s.fetsPair p && !s.lost p &&
  !(s.port (s.stageOf p)).cnt.limp && !x.stageAsked &&
  (!x.stg.hold || (!s.sibAttached p && (decide (g.target ≠ 5000) || g.stopping)))

/-- The hand of a port that has entered ATTWAIT_SRC commands the stage to vSafe5V, as it does on entry, once VBC is found below vSafe0V and
nothing holds the stage down any more (R196). DESIGN CHOICE (assumption 110): R196 names the entry alone, and gives no moment for a port whose
VBC falls later, or whose hold under R93 ends. -/
def State.stageUp (s : State) (p : Port) : State := if s.stageDue p then (s.isetFirst p).stgCmd p (.start 5000) else s

/-- The default charge is asked for once tCCDebounce has ended, while Rd is there on the same pin and VBC is below vSafe0V; the port
attaches at the grant, or is held for its twin or for credits (R93, R141, R170, R347). In the stop phase nothing attaches (R49). -/
def State.tryAttach (s : State) (p : Port) : State :=
  let x := s.port p
  let need := defaultCharge x.cfg.rp
  if !(x.rdSame && x.slc.low0) || s.dev.stop.isSome then s
  else if s.twinHeld p false then s.onPort p fun x => { x with pd := { x.pd with holdTwin := true } }
  else if s.free < need then
    let s := if x.pd.holdCred then s
      else ((s.onPort p fun x => { x with pd := { x.pd with holdCred := true } }).pdEvt p 4).pdCnt p 7
    (s.onPort p fun x => { x with pd := { x.pd with short := (need - s.free).toNat } }).seek (need - s.free).toNat
  else ((s.ledgerOf p fun s => s.onPort p fun x => { x with pd := { x.pd with charge := need } }).note 49 (some p) 3 .grant).attachSrc p

/-! ## Meanings -/

/-- The connection machine judges the CC pins as they stand (R90, R91, R96); `had` says that Rd stood on its pin before: where it returns
after tCCDebounce the hand asks again (R141). -/
def State.ccJudge (s : State) (p : Port) (had : Bool) : State :=
  let cc1 := (s.port p).tc.cc1
  let cc2 := (s.port p).tc.cc2
  let st := (s.port p).tc.st
  let s := if decide (st = .unattSnk) || decide (st = .attwaitSnk) || decide (st = .attSnk) then
    s.onPort p fun x => { x with tc := { x.tc with prp := snkPin (max cc1 cc2) } } else s
  let x := s.port p
  match x.tc.st with
    | .unattSrc =>
      let pin := rdPin x.cfg.rp cc1 cc2
      if pin.isSome then
        let s := (s.onPort p fun x => { x with tc := { x.tc with
          st := .attwaitSrc, accSeen := false, backv := false, pin := pin, ccDone := false } }).noteConn p
        if x.slc.low0 then (s.isetFirst p).stgCmd p (.start 5000) else s
      else if srcAccessory x.cfg.rp cc1 cc2 then s.accessory p
      else s.onPort p fun x => { x with tc := { x.tc with accSeen := false } }
    | .unattSnk =>
      match decide (0 < snkPin cc1), decide (0 < snkPin cc2) with
      | true, true => s.accessory p
      | false, false => s.onPort p fun x => { x with tc := { x.tc with accSeen := false } }
      | _, _ => (s.onPort p fun x => { x with tc := { x.tc with st := .attwaitSnk, accSeen := false } }).noteConn p
    | .attwaitSrc => if x.tc.ccDone && s.works p && !had then s.tryAttach p else s
    | _ => s

/-- Both pins as the comparators show them, in mV: a pin that VCONN has left is discharged until it stands below 0.8 V (R103). -/
def Tc.see (t : Tc) (cc1 cc2 : Nat) : Tc :=
  { t with cc1 := cc1, cc2 := cc2
           dis := match t.dis with
             | some (two, till) => if (if two then cc2 else cc1) < 800 then none else some (two, till)
             | none => none }

/-- CC_TERMINATION_SEEN: the CC comparators show both pins, in mV (R90). While a dowser frame disconnects a pin nothing is judged
(R113). -/
def execCcTerminationSeen (p : Port) (cc1 cc2 : Nat) (s : State) : Res State :=
  if !s.ccRuns p then .next s else
  let old := s.port p
  let s := s.onPort p fun x => { x with tc := x.tc.see cc1 cc2 }
  .next (if old.grd.ccFrame.isSome then s else s.ccJudge p old.rdSame)

/-- TCCDEBOUNCE_EXPIRY: tCCDebounce ends in an AttachWait state with VBC at vbc mV (R92 to R95, R141, R170). -/
def execTccdebounceExpiry (p : Port) (vbc : Nat) (s : State) : Res State :=
  if !s.works p then .next s else
  let x := s.port p
  .next <| match x.tc.st with
    | .attwaitSrc =>
      let s := (s.seeVbc p vbc).onPort p fun x => { x with tc := { x.tc with ccDone := true } }
      if !below0V vbc then
        if x.tc.backv then s
        else ((s.onPort p fun x => { x with tc := { x.tc with backv := true } }).tcEvt p 8).tcCnt p 11
      else (s.stageUp p).tryAttach p
    | .attwaitSnk =>
      let s := s.seeVbc p vbc
      if !x.tc.rpOne then s
      else if vbc ≤ 4000 then s.onPort p fun x => { x with tc := { x.tc with backv := true } }
      else if s.twinHeld p true then s.onPort p fun x => { x with pd := { x.pd with holdTwin := true } }
      else s.attachSnk p
    | _ => s

/-- SINK_VBUS_DETECT: VBC rises above 4.0 V, to vbc mV, in ATTWAIT_SNK after tCCDebounce (R94, R170). -/
def execSinkVbusDetect (p : Port) (vbc : Nat) (s : State) : Res State :=
  let x := s.port p
  if s.works p && decide (x.tc.st = .attwaitSnk) && x.tc.backv && decide (4000 < vbc) && x.tc.rpOne then
    let s := s.seeVbc p vbc
    if s.twinHeld p true then .next (s.onPort p fun x => { x with pd := { x.pd with holdTwin := true } })
    else .next (s.attachSnk p)
  else .next s

/-- BACKV_RELEASE: VBC of a port held in ATTWAIT_SRC under R93 falls to vbc mV. The stage, left down till now, is started as the port
attaches, or goes on waiting (assumption 110). -/
def execBackvRelease (p : Port) (vbc : Nat) (s : State) : Res State :=
  let x := s.port p
  if s.works p && decide (x.tc.st = .attwaitSrc) && x.tc.backv && below0V vbc then
    let s := (s.seeVbc p vbc).onPort p fun x => { x with tc := { x.tc with backv := false } }
    .next ((s.stageUp p).tryAttach p)
  else .next s

/-- TPDDEBOUNCE_EXPIRY: the termination has been absent for tPDDebounce in an AttachWait state (R91, R92). -/
def execTpddebounceExpiry (p : Port) (s : State) : Res State :=
  if !s.works p then .next s else
  .next <| match (s.port p).tc.st with
    | .attwaitSrc => (s.leave p .unattSrc).toUnatt p
    | .attwaitSnk => (s.leave p .unattSnk).toUnatt p
    | _ => s

/-- A port held for its twin in AttachWait goes on once nothing holds it (R170). -/
def State.twinRetry (s : State) (p : Port) : State :=
  let x := s.port p
  if !x.pd.holdTwin then s else
  match x.tc.st with
  | .attwaitSrc =>
    if s.twinHeld p false || !(x.slc.low0 && x.rdSame) then s
    else (s.onPort p fun x => { x with pd := { x.pd with holdTwin := false } }).tryAttach p
  | .attwaitSnk =>
    if s.twinHeld p true || x.vbcMv ≤ 4000 || !x.tc.rpOne then s else s.attachSnk p
  | _ => s

/-- The free stage is brought back to vSafe5V for a source twin: one that attaches, with VBC below vSafe0V, or one that is held at step 4 of
R162 (R170, R196, R238). Its ISET is that of the Type-C current (R257). -/
def State.twinStart (s : State) (p : Port) : State :=
  let x := s.port p
  if x.cfg.twin && !s.sibAttached p && ((decide (x.tc.st = .attwaitSrc) && x.slc.low0) ||
      (x.pd.holdTwin && x.tc.isSrc && decide (x.pd.hr = .restore))) then
    (s.isetFirst p).stgCmd p (.start 5000)
  else s

/-- The twin left behind gets its full capabilities (R165, R171), and a twin held for its sibling may attach (R170). -/
def State.twinFreed (s : State) (p : Port) : State :=
  if (s.port p).cfg.twin then
    let q := sibOf p
    let s := s.onPort q fun y => { y with pd := { y.pd with noMove := false, twinWaits := 0 } }
    let s := s.twinStart q
    let y := s.port q
    if y.tc.isSrc then s.offerDue q
    else if y.tc.isSnk then
      let s := if y.slc.onReq then s else s.slcCmd q .on
      if y.pd.snk = .ready then s.evaluate q else s
    else s.twinRetry q
  else s

/-- A port fault state entered, which a twin's sibling learns of as of a detach (R165, R170, R171). -/
def State.faultOn (s : State) (p : Port) (k : FaultKind) : State :=
  if (s.port p).tc.attached then (s.fault p k).twinFreed p else s.fault p k

/-- A twin's shared stage is gone: the sibling's hand learns that its output is lost (R220, R242). -/
def State.twinLost (s : State) (p : Port) : State :=
  if (s.port p).cfg.twin then
    (s.onPort (sibOf p) fun x => { x with pd := { x.pd with lost := x.pd.lost || x.tc.attached } }).postPort (sibOf p) 1 .sluice
  else s

/-- TSRCDISCONNECT_EXPIRY: CC above the Rd/open boundary for tSRCDisconnect in ATT_SRC (R91, R92, R164). -/
def execTsrcdisconnectExpiry (p : Port) (s : State) : Res State :=
  if s.works p && (s.port p).tc.isSrc then .next ((s.ledgerOf p fun s => s.detach p).twinFreed p) else .next s

/-- SINK_VBUS_LOST: VBC below 3.67 V for 10 ms in ATT_SNK while no Hard Reset is in progress (R91, R94, R156). -/
def execSinkVbusLost (p : Port) (s : State) : Res State :=
  if s.works p && (s.port p).tc.isSnk && !(s.port p).pd.snkHr then .next ((s.ledgerOf p fun s => s.detach p).twinFreed p) else .next s

/-- DRP_TOGGLE: the toggle time of the present presentation ends (R89, R91). DESIGN CHOICE (assumption 83): each toggle begins a new
presentation, so that an accessory which stands through it is counted anew, and a change from one kind of accessory to another without
the pins opening is no new presentation; R96 does not say what begins one. -/
def execDrpToggle (p : Port) (s : State) : Res State :=
  let x := s.port p
  if s.ccRuns p && decide (x.cfg.role = 2) && x.cfg.drp then
    .next <| match x.tc.st with
      | .unattSrc => (s.onPort p fun x => { x with tc := x.tc.fresh p .unattSnk }).noteConn p
      | .unattSnk => (s.onPort p fun x => { x with tc := x.tc.fresh p .unattSrc }).noteConn p
      | _ => s
  else .next s

/-- ERR_RECOV_END: 25 ms to 30 ms after ERR_RECOV was entered (R91, R97). -/
def execErrRecovEnd (p : Port) (s : State) : Res State :=
  if s.works p && decide ((s.port p).tc.st = .errRecov) then .next (s.toUnatt p) else .next s

/-- SELFTEST_RESULT: the CC PHY's self-test ends (R91, R99). -/
def execSelftestResult (p : Port) (pass : Bool) (s : State) : Res State :=
  if s.works p && decide ((s.port p).tc.st = .selftest) then
    if pass then .next (s.toUnatt p) else .next ((s.tcEvt p 4).faultOn p .phyx)
  else .next s

/-- VBC of a port in ATTWAIT_SRC whose tCCDebounce has ended falls below vSafe0V again: the hand asks again (R141). One held under R93 waits for
BACKV_RELEASE. -/
def State.vbcLow (s : State) (p : Port) : State :=
  let t := (s.port p).tc
  if decide (t.st = .attwaitSrc) && t.ccDone && !t.backv then s.tryAttach p else s

/-- VCONN_OVERCURRENT: VCONN's current has stood at its limit for 1 ms (R102, R103). -/
def execVconnOvercurrent (p : Port) (s : State) : Res State :=
  if s.works p && (s.port p).tc.vconn then
    let s := s.onPort p fun x => { x with tc := { x.tc.vconnOff s.dev.aon with vcoc := true } }
    .next ((s.tcEvt p 3).tcCnt p 3)
  else .next s

/-- VCONN_IN_LOW: a die's VCONN_IN falls below 4.5 V, and its ports supply no VCONN (R31, R103). -/
def execVconnInLow (d : WDie) (s : State) : Res State :=
  let s := match d with | .w0 => { s with dev.vconnIn0 := false } | .w1 => { s with dev.vconnIn1 := false }
  .next <| s.forPorts (allPorts.filter fun p => dieOf p = d) fun s p =>
    if (s.port p).tc.vconn then s.onPort p fun x => { x with tc := x.tc.vconnOff s.dev.aon } else s

/-- VCONN_IN_RECOVER: a die's VCONN_IN stands at 4.5 V again (R31). -/
def execVconnInRecover (d : WDie) (s : State) : Res State :=
  .next <| match d with | .w0 => { s with dev.vconnIn0 := true } | .w1 => { s with dev.vconnIn1 := true }

end Sys2Proof.Machine
end

