-- ==== Sys2Proof/Machine/Protocol.lean ====
section
/-! DEFINITION. The port protocol layer (R104 to R112): reception, GoodCRC, transmission, retries, capture and Hard Reset. -/

namespace Sys2Proof.Machine

/-! ## MessageIDs (R108, R109) -/

/-- The MessageID counters reset (R138). -/
def Prot.idsReset (t : Prot) : Prot := { t with lastId := [], nextId := [] }

/-- The port transmits, or owes a GoodCRC: no other transmission starts (R109). -/
def Prot.driving (t : Prot) : Bool := t.inProg || t.hrProg || !t.goodCrc.isEmpty

/-- The port drives the line at AON time `aon`, so that its receiver decodes nothing: a GoodCRC from its start on, which a packet of the partner
that began before it puts off (R108, R109, assumption 94). -/
def Prot.onLine (t : Prot) (aon : Nat) : Bool := t.inProg || t.hrProg || (!t.goodCrc.isEmpty && t.cur.isNone && decide (t.gcAt ≤ aon))

/-- Hard Reset commanded by a hand: everything that waits or awaits its GoodCRC is abandoned, with no failure reported (R109). -/
def Prot.hardReset (t : Prot) : Prot := { t with txq := [], await := none, tries := 0, hrWait := true }

/-- The protocol layer of port p works: attached, on a live port of a running device. -/
def State.bmcRuns (s : State) (p : Port) : Bool := s.works p && (s.port p).tc.attached

def State.onProt (s : State) (p : Port) (f : Prot → Prot) : State := s.onPort p fun x => { x with prot := f x.prot }

/-! ## Reception -/

/-- PREAMBLE_DETECTED: a preamble within the accepted bit rate and of a swing that the detector sees, with its amplitude estimate in mV,
while no packet is in progress (R105, R111, assumption 78). -/
def execPreambleDetected (p : Port) (amp kbps : Nat) (s : State) : Res State :=
  let t := (s.port p).prot
  if s.bmcRuns p && t.cur.isNone && !t.onLine s.dev.aon && decide (270 ≤ kbps) && decide (kbps ≤ 330) &&
      decide (Config.preambleMv.val ≤ amp) then
    .next (s.onProt p fun t => { t with cur := some amp })
  else .next s

/-- CAPTURE: the decision at bit 23 of a new preamble during a reception (R111). -/
def execCapture (p : Port) (amp : Nat) (s : State) : Res State :=
  match (s.port p).prot.cur with
  | none => .next s
  | some a =>
    if s.bmcRuns p && decide (3 * a ≤ 2 * amp) then
      let s := s.onPort p fun x => { x with
        prot := { x.prot with cur := some amp }, tc := { x.tc with ampCapt := amp, evt := setBit x.tc.evt 5 } }
      .next (s.tcCnt p 7)
    else .next s

/-- A recognised Hard Reset: the receive places are emptied and a class 0 event is posted (R110). -/
def State.hardResetSeen (s : State) (p : Port) : State :=
  let s := (s.dropMsgs p).onProt p fun t => { t with rx := [], cur := none, goodCrc := [], hrLate := false }
  s.postPort p 0 .hardReset

/-- HARD_RESET_ORDERED_SET: during a transmission it is recognised once that has ended (R109, R110). -/
def execHardResetOrderedSet (p : Port) (s : State) : Res State :=
  if !s.bmcRuns p then .next s
  else if (s.port p).prot.onLine s.dev.aon then .next (s.onProt p fun t => { t with hrLate := true })
  else .next (s.hardResetSeen p)

/-- What the checks of R106 and R107 make of a packet. -/
inductive RxVerdict where
  | hardReset | symbol | crc | silent | good
  deriving DecidableEq, Repr

/-- The port is the VCONN source and supplies VCONN (R106, R31, R102). -/
def PortState.vconnOn (x : PortState) : Bool := x.pd.vconnSrc && x.tc.vconn

/-- The checks in order: ordered set, SOP* kind, symbols and EOP, length, CRC. -/
def packetVerdict (k : Packet) (vconnSrc : Bool) : RxVerdict :=
  if k.goodK < 3 then .symbol
  else match k.sop with
  | .hardReset => .hardReset
  | .cableReset => .symbol
  | _ =>
    if decide (k.sop ≠ .sop) && !vconnSrc then .silent
    else if !k.symbolsOk || !k.eop || decide (30 < k.bytes.length) then .symbol
    else if crc32 k.bytes ≠ k.crc then .crc
    else .good

/-- A packet that passed the checks (R108, R109); its GoodCRC follows those that the line has put off. -/
def State.accept (s : State) (p : Port) (k : Packet) : State :=
  let t := (s.port p).prot
  match k.msg with
  | .goodCrc id =>
    match t.await with
    | some m =>
      if decide (m.sop = k.sop) && decide (t.txId m.sop = id) && !t.inProg then
        (s.onProt p fun t => t.txDone m.sop).postPort p 1 (.txOk m.kind)
      else s
    | none => s
  | _ =>
    if decide (idOf t.lastId k.sop = some k.msgId) && decide (k.msg ≠ .softReset) then
      (s.onProt p fun t => { t with goodCrc := t.goodCrc ++ [(k.sop, k.msgId)] }).tcCnt p 4
    else if 2 ≤ t.rx.length then s.tcCnt p 8
    else
      let s := s.onProt p fun t => { t with
        rx := t.rx ++ [⟨k.sop, k.msg⟩], lastId := setId t.lastId k.sop k.msgId, goodCrc := t.goodCrc ++ [(k.sop, k.msgId)] }
      ((s.tcCnt p 4).arm p .receiverResponse).postPort p 1 .msg

/-- The line becomes idle: the GoodCRC that is then owed, the packet's own or one that it has put off, starts 25 µs to 195 µs later (R108,
R109). -/
def State.lineIdle (s : State) (p : Port) : State :=
  let (d, s) := s.drawIn 25 195
  s.onProt p fun t => { t with gcAt := s.dev.aon + d }

/-- A packet has ended, with its amplitude (R108, R111). -/
def State.packetEnd (s : State) (p : Port) (amp : Nat) : State :=
  (s.lineIdle p).onPort p fun x => { x with prot := { x.prot with cur := none }, tc := { x.tc with ampLast := amp } }

/-- PACKET_RECEIVE: the packet in progress ends at its EOP or is dropped (R105 to R108, R111). -/
def execPacketReceive (p : Port) (k : Packet) (s : State) : Res State :=
  match (s.port p).prot.cur with
  | none => .next s
  | some a =>
    if !s.bmcRuns p then .next s else
    let s := s.packetEnd p a
    .next <| match packetVerdict k (s.port p).vconnOn with
      | .hardReset => s.hardResetSeen p
      | .symbol => s.tcCnt p 6
      | .crc => s.tcCnt p 5
      | .silent => s
      | .good => s.accept p k

/-! ## Transmission -/

/-- TRANSMIT_START: the line has been idle for tInterFrameGap; Hard Reset goes first (R109). -/
def execTransmitStart (p : Port) (s : State) : Res State :=
  let t := (s.port p).prot
  if !s.bmcRuns p || t.driving || t.cur.isSome then .next s
  else if t.hrWait then .next (s.onProt p fun t => { t with hrWait := false, hrProg := true })
  else if t.await.isSome then .next s
  else match t.txq with
    | [] => .next s
    | m :: q =>
      let s := s.onProt p fun t => { t with txq := q, inProg := true, await := some m, tries := t.tries + 1 }
      .next (if 0 < t.tries then s.tcCnt p 9 else s)

/-- A Hard Reset has been sent or received: tPSHardReset starts, and at a sink the recovery time beside it (R137, R162, R163). -/
def State.hrTimers (s : State) (p : Port) : State :=
  let s := s.arm p .psHardReset
  if (s.port p).tc.isSnk then s.arm p .sinkHardReset else s

/-- TRANSMIT_END: a transmission ends, a GoodCRC among the rest; the next GoodCRC owed waits for the idle line (R109). After a Hard Reset its
timers start (R137). A Hard Reset seen during the transmission is recognised now. -/
def execTransmitEnd (p : Port) (s : State) : Res State :=
  let x := s.port p
  if !(x.prot.inProg || x.prot.hrProg || (!x.prot.goodCrc.isEmpty && x.prot.cur.isNone)) then .next s else
  let s := s.onProt p fun t => { t with
    inProg := false, hrProg := false, hrLate := false
    goodCrc := if t.inProg || t.hrProg then t.goodCrc else t.goodCrc.drop 1 }
  let s := if (s.port p).prot.goodCrc.isEmpty then s else s.lineIdle p
  let s := if x.prot.hrProg && (x.tc.isSrc && decide (x.pd.src = .hardReset) || x.tc.isSnk && x.pd.snkHr) then s.hrTimers p else s
  .next (if x.prot.hrLate then s.hardResetSeen p else s)

/-- TRECEIVE_EXPIRY: no GoodCRC within tReceive: the message goes again, up to nRetryCount times, or has failed (R109). -/
def execTreceiveExpiry (p : Port) (s : State) : Res State :=
  let t := (s.port p).prot
  match t.await with
  | none => .next s
  | some m =>
    if t.inProg then .next s
    else if t.tries < 3 then .next (s.onProt p fun t => { t with await := none, txq := m :: t.txq })
    else
      let s := (s.onProt p fun t => t.txDone m.sop).tcEvt p 6
      .next ((s.tcCnt p 10).postPort p 1 (.txFail m.kind))

end Sys2Proof.Machine
end

