-- ==== Sys2Proof/Machine/PolicyOps.lean ====
section
/-! DEFINITION. Steps that the policy machines share: VDM commands (R175 to R183), Alerts (R174), READY (R138, R161, R165), EPR
answers (R150, R159), VCONN (R101, R158), and the escalation to Soft_Reset, Hard Reset and ErrorRecovery (R161 to R163). -/

namespace Sys2Proof.Machine

def State.onPd (s : State) (p : Port) (f : Pd → Pd) : State := s.onPort p fun x => { x with pd := f x.pd }
def State.onVdm (s : State) (p : Port) (f : VdmP → VdmP) : State := s.onPort p fun x => { x with vdm := f x.vdm }

/-! ## VDM commands -/

/-- The SOP* kind on which the command of a VDM state goes. -/
def VdmState.sop : VdmState → Sop
  | .cableSop1 => .sop1
  | .cableSop2 => .sop2
  | _ => .sop

/-- A VDM command sent in a state of the machine; it stays as the one awaiting its response. -/
def State.vdmSend (s : State) (p : Port) (st : VdmState) (v : Vdm) : State :=
  (s.onVdm p fun m => { m with st := st, out := some v, intr := false, waiting := false }).send p st.sop .vdm (.vdm v)

/-- A command of cable discovery, on SOP′ or SOP″ (R180, R182). -/
def State.cabSend (s : State) (p : Port) (st : VdmState) (v : Vdm) : State :=
  (s.onVdm p fun m => { m with cab := st, cabOut := some v, cabIntr := false }).send p st.sop .cable (.vdm v)

/-- Discover Identity (R180, R182, R183). -/
def discIdentityCmd (ver : Nat) : Vdm := ⟨0xFF00#16, ver, .discIdentity, .req, 0, .none⟩

/-- The next SOP′ attempt (R180). -/
def State.cableTry (s : State) (p : Port) : State :=
  (s.onVdm p fun m => { m with tries := m.tries + 1 }).cabSend p .cableSop1 (discIdentityCmd (s.port p).vdm.cabVer)

/-- Cable discovery that gave way goes on: its command again, at the version now in use, or the next attempt if it waited for one (R175,
R179, R180). -/
def State.cabAgain (s : State) (p : Port) : State :=
  let m := (s.port p).vdm
  if m.cabOut.isSome then s.cabSend p m.cab (discIdentityCmd m.cabVer) else s.cableTry p

/-- The pending command sent again, at the version now in use with the partner (R175, R178, R179). -/
def State.vdmAgain (s : State) (p : Port) : State :=
  match (s.port p).vdm.out with
  | some v => s.vdmSend p (s.port p).vdm.st { v with ver := (s.port p).vdm.ver }
  | none => s

/-- The SVID table entry in use. -/
def State.entryOfVdm (s : State) (p : Port) : SvidEntry := tab s.alm.cfg.svids (s.port p).vdm.entry ⟨0#16, 0, 0, 0⟩

/-- A command for the entry in use. -/
def State.entryCmd (s : State) (p : Port) (c : VdmCmd) (obj : Nat) (b : VdmBody) : Vdm :=
  ⟨(s.entryOfVdm p).svid, (s.port p).vdm.ver, c, .req, obj, b⟩

/-- NO_MODE (R183). -/
def State.noMode (s : State) (p : Port) : State :=
  (s.onVdm p fun m => { m with st := .noMode, out := none, intr := false, waiting := false, busies := 0, left := [] }).vdmEvt p 5

/-- Step 3 of R183: the first entry of what is left of the port list whose SVID the partner listed; Discover Modes for it, or
NO_MODE. -/
def State.nextEntry (s : State) (p : Port) : State :=
  let v := (s.port p).vdm
  let l := v.left.dropWhile fun e => !(decide (e < s.alm.cfg.svids.length) &&
    v.svids.contains (tab s.alm.cfg.svids e ⟨0#16, 0, 0, 0⟩).svid)
  match l with
  | [] => s.noMode p
  | e :: t =>
    let s := s.onVdm p fun m => { m with entry := e, left := t, busies := 0 }
    s.vdmSend p .discModes ⟨(s.entryOfVdm p).svid, v.ver, .discModes, .req, 0, .none⟩

/-- Cable discovery ends (R139, R180, R182): the first offer of STARTUP, or the answer to EPR entry that waits for it, follows. The partner's
own machine stands where it was. -/
def State.cableDone (s : State) (p : Port) (next : State → State) : State :=
  let s := (s.disarm p .cableLimit).cableTimersOff p
  let s := s.onPort p fun x => { x with
    vdm := { x.vdm with cab := .idle, cabOut := none, cabIntr := false, tries := 0 }
    pd := { x.pd with cabled := true } }
  let x := s.port p
  if x.pd.src = .startup ∧ in5V x.vbcMv then s.offer p
  else if x.pd.eprPend then next s
  else s

/-- Cable discovery failed: the cable is assumed (R139, R180). -/
def State.cableFailed (s : State) (p : Port) (next : State → State) : State :=
  ((s.onPd p fun d => { d with cable := ⟨false, 0, 0, false⟩ }).vdmEvt p 6).cableDone p next

/-- An SOP′ attempt failed: tDiscoverIdentity, or the end of discovery at the third (R180). -/
def State.cableTryFailed (s : State) (p : Port) (next : State → State) : State :=
  let s := s.cableTimersOff p
  if (s.port p).vdm.tries < 3 then (s.onVdm p fun m => { m with cabOut := none }).arm p .discoverIdentity
  else s.cableFailed p next

/-! ## Alerts (R174) -/

/-- A port in READY under an explicit contract, in which an Alert may go. -/
def PortState.alertReady (x : PortState) : Bool :=
  ((x.tc.isSrc && decide (x.pd.src = .ready)) || (x.tc.isSnk && decide (x.pd.snk = .ready))) && x.pd.contract.isSome

/-- The next Alert that waits, if the partner is in READY under a contract and none is out. -/
def State.alertTry (s : State) (p : Port) : State :=
  let d := (s.port p).pd
  if (s.port p).alertReady && !d.alertOut then
    match d.alerts with
    | [] => s
    | k :: t => (s.onPd p fun d => { d with
        alerts := t, alertOut := true }).send p .sop .alert (.alert k)
  else s

/-- An Alert of a Source Input Change is due on a port and not yet sent: it waits for its turn, or for the line (R373). -/
def PortState.inputDue (x : PortState) : Bool :=
  x.pd.alerts.contains .sourceInputChange || x.prot.txq.any fun m => decide (m.msg = .alert .sourceInputChange)

/-- A Source Input Change is due on a port, for what the crier announces (R372, R373): it merges with one that has not been sent. -/
def State.alertInput (s : State) (p : Port) (c : InputCause) : State :=
  let due := (s.port p).inputDue
  let s := s.onPd p fun d => { d with inCause := some c }
  if due then s else (s.onPd p fun d => { d with alerts := d.alerts ++ [.sourceInputChange] }).alertTry p

/-- F falls below 100 or returns to 100: an Operating Condition Change is due, behind those that its pacing still holds; on a port that is not in
READY the earlier change no longer stands, and the one Alert that waits is for the latest (R174). -/
def State.alertTemp (s : State) (p : Port) (derated : Bool) : State :=
  let d := (s.port p).pd
  if d.otpLast = derated then s
  else if d.alerts.contains .operatingCondition && !(s.port p).alertReady then s.onPd p fun d => { d with otpLast := derated }
  else (s.onPd p fun d => { d with otpLast := derated, alerts := d.alerts ++ [.operatingCondition] }).alertTry p

/-! ## READY -/

/-- The first entry of a source into READY arms partner discovery (R177, R183). -/
def State.firstReady (s : State) (p : Port) : State :=
  let x := s.port p
  if x.tc.isSrc && !x.vdm.ready then
    let s := s.onVdm p fun m => { m with ready := true }
    if s.alm.cfg.feat.testBit 3 && x.cfg.list.any (fun e => decide (e < 16)) then s.arm p .partnerDiscovery else s
  else s

/-- On entry to READY an Alert that waited goes only if its cause still stands (R174, assumption 103): of several Operating Condition Changes the
last, and a Source Input Change while what the crier announced last is so. -/
def Pd.alertsNow (d : Pd) (stands : InputCause → Bool) : List AlertKind :=
  let l := if d.inCause.any stands then d.alerts else d.alerts.filter fun k => decide (k ≠ .sourceInputChange)
  if 1 < l.count .operatingCondition then (l.filter fun k => decide (k ≠ .operatingCondition)) ++ [.operatingCondition] else l

/-- What a port does in READY: the VDM commands that gave way (R179), and an Alert that is due (R174). -/
def State.readyTail (s : State) (p : Port) : State :=
  let s := if (s.port p).vdm.cabIntr then s.cabAgain p else s
  let s := if (s.port p).vdm.intr then s.vdmAgain p else s
  (s.onPd p fun d => { d with alerts := d.alertsNow s.causeStands }).alertTry p

/-- Source READY entered: HRC returns to 0 (R161); a held trigger makes a new offer (R165). -/
def State.enterReady (s : State) (p : Port) : State :=
  let s := (s.onPd p fun d => { d with src := .ready, hrc := 0 }).firstReady p
  let d := (s.port p).pd
  if d.trigger || (d.due && d.spacing) then s.offer p else s.readyTail p

/-- Sink READY entered; a change that came before is acted on now (R117, R153). -/
def State.sinkReady (s : State) (p : Port) : State :=
  let due := (s.port p).pd.sinkDue
  let s := s.onPd p fun d => { d with snk := .ready, hrc := 0, sinkDue := false }
  if due then s.evaluate p else s.readyTail p

/-! ## VCONN and EPR entry -/

/-- This port may supply VCONN (R101, R158). -/
def State.canVconn (s : State) (p : Port) : Bool := (s.port p).cfg.vconnSrc && s.vconnOk p && !(s.port p).tc.vcoc

/-- VCONN taken while VCONN_IN allows it: applied to the inactive pin, and PS_RDY sent; a source then discovers the cable (R31, R101,
R158, R159, R180). DESIGN CHOICE (assumption 102): a source does so after a VCONN_Swap of its partner's too, of which R180 does not
speak. -/
def State.takeVconn (s : State) (p : Port) : State :=
  if !s.canVconn p then s.onPd p fun d => { d with vcs := 0 } else
  let s := s.onPd p fun d => { d with vcs := 2, gaveVconn := false }
  let s := if (s.port p).tc.isSrc then s.vconnOn p
    else s.onPort p fun x => { x with tc := { x.tc with vconn := true, dis := none }, pd := { x.pd with vconnSrc := true } }
  s.send p .sop .psRdyVcs .psRdy

/-- VCONN given up (R101, R103, R158). -/
def State.dropVconn (s : State) (p : Port) : State :=
  s.onPort p fun x => { x with
    tc := x.tc.vconnOff s.dev.aon, pd := { x.pd with vconnSrc := false, gaveVconn := x.pd.vconnSrc || x.pd.gaveVconn } }

/-- An explicit SPR contract is in force (R150). -/
def Pd.sprContract (d : Pd) : Bool :=
  match d.contract with
  | some c => decide (c.kind ≠ .eprFixed) && decide (c.kind ≠ .avs)
  | none => false

/-- An entry into EPR mode that was under way has failed (R150, R155). -/
def Pd.entryOff (d : Pd) : Pd := { d with epr := if d.epr = .entry then .spr else d.epr }

/-- EPR_Mode (Enter Failed) with a reason code of the PD specification: 1 cable not EPR-capable, 2 the cable is not discovered, 4
source not able, 0 no contract in force (R150, R159, assumption 37); EPR mode, where it is in force, goes on. -/
def State.eprFail (s : State) (p : Port) (reason : Nat) : State :=
  ((s.disarm p .enterEpr).onPd p fun d => { d.entryOff with eprPend := false }).send p .sop .eprFailed
    (.eprMode (.enterFailed reason))

/-- An EPR template that R142 would offer in EPR mode over an EPR cable. -/
def State.eprOffered (s : State) (p : Port) : Bool :=
  let e := { s.offerEnv p with epr := true, cable := ⟨true, 2, 3, true⟩ }
  (s.port p).cfg.caps.zipIdx.any fun t => decide (3 ≤ t.1.kind) && (e.object t.1 (t.2 = 0)).1.isSome

/-- The four checks of R150 and the answer. -/
def State.eprAnswer (s : State) (p : Port) : State :=
  let x := s.port p
  let s := s.onPd p fun d => { d with eprPend := false }
  if !(s.eprClass p && s.eprOffered p) then s.eprFail p 4
  else if !(s.cableNow p).epr then s.eprFail p 1
  else if !x.pd.sprContract then s.eprFail p 0
  else
    let s := (s.onPd p fun d => { d with epr := if d.eprMsgs then d.epr else .entry }).send p .sop .eprEnterAck (.eprMode .enterAck)
    (s.disarm p .enterEpr).send p .sop .eprSucceeded (.eprMode .enterSucceeded)

/-- The port's own VCONN_Swap is refused or fails: Enter Failed, as the cable is not discovered (R159). -/
def State.vcsFailed (s : State) (p : Port) : State :=
  let d := (s.port p).pd
  if d.vcsPend then
    let s := s.onPd p fun d => { d with vcsPend := false, vcs := 0 }
    if d.eprPend then s.eprFail p 2 else s
  else s

/-! ## Escalation -/

/-- A pledge that will not become a charge is released (R146). -/
def State.dropPledge (s : State) (p : Port) : State :=
  s.ledgerOf p fun s => s.onPd p fun d => { d with pledge := 0, want := none }

/-- Soft_Reset sent (R161); a VCONN_Swap of the port's that is under way has failed (R159). -/
def State.softReset (s : State) (p : Port) : State :=
  let s := (s.vdmInterrupt p).vcsFailed p
  let s := [TimerId.senderResponse, .waitWindow, .rejectResend, .srcTransition, .transitionLimit, .psTransition, .sinkRequest,
    .typeCSendSourceCap].foldl (fun s t => s.disarm p t) s
  let s := s.dropPledge p
  if !(s.port p).tc.attached then s else
  let s := s.onPort p fun x => { x with
    prot := x.prot.idsReset
    pd := if x.tc.isSrc then { x.pd with src := .softReset, vcs := 0, waits := 0, twinWaits := 0 }
          else { x.pd with snk := .softReset, vcs := 0 } }
  ((s.pdEvt p 3).pdCnt p 3).send p .sop .softReset .softReset

/-- Step 1 of R162 for a source, and the same for a sink (R156, R163): contract, EPR mode and alternate mode end; a source removes VCONN,
which a sink keeps (R158); a sink's inflow is withdrawn. DESIGN CHOICE (assumption 84): PD_EVT.EPR_EXIT does
not set here; R151 does not say whether it sets where a Hard Reset or a detach ends EPR mode, and the model sets it on EPR_Mode (Exit)
alone. -/
def State.hrBegin (s : State) (p : Port) : State :=
  let x := s.port p
  let s := (s.endMode p).disarmAll p
  let s := s.muxUpdate p
  let s := s.onPort p fun x => { x with
    tc := if x.tc.isSnk then x.tc else x.tc.vconnOff s.dev.aon
    prot := { x.prot with nextId := [], lastId := [] }
    pd := { x.pd with
      contract := none, want := none, epr := .spr, vcs := 0, vconnSrc := x.tc.isSnk && x.pd.vconnSrc, gaveVconn := false
      lost := false, sinkDue := false, capsTry := 0, waits := 0, twinWaits := 0
      due := false, spacing := true, trigger := false, eprPend := false, exitPend := false, vcsPend := false, cabled := false
      alertOut := false, partnerEpr := false, srcCaps := [], holdTwin := false } }
  if x.tc.isSrc then
    let s := s.onPd p fun d => { d with src := .hardReset, hr := .off }
    if x.pd.contract.isSome && x.cfg.twin && (s.port (sibOf p)).tc.isSrc then s.offerDue (sibOf p) else s
  else s.ledgerOf p fun s => s.onPd p fun d => { d with snk := .hardReset, snkHr := true, inflow := 0 }

/-- ErrorRecovery asked for by a hand, with the release of R164. -/
def State.toErrRecov (s : State) (p : Port) : State := (s.ledgerOf p fun s => s.errRecov p).twinFreed p

/-- Hard Reset sent, or ErrorRecovery when the count is already 2 (R161). In the stop phase the hands start no new message (R49). -/
def State.hardReset (s : State) (p : Port) : State :=
  if s.dev.stop.isSome then s
  else if 2 ≤ (s.port p).pd.hrc then s.toErrRecov p
  else
    let s := s.hrBegin p
    let s := s.onPort p fun x => { x with prot := x.prot.hardReset, pd := { x.pd with hrc := x.pd.hrc + 1 } }
    (s.pdEvt p 2).pdCnt p 2

/-- Step 3 of R162: the charge comes down to the default, the pledge is released, and a shed of the port is credited; tSrcRecover
starts. -/
def State.hrDischarged (s : State) (p : Port) : State :=
  let dflt := defaultCharge (s.port p).cfg.rp
  let s := s.ledgerOf p fun s => s.onPd p fun d => { d with
    charge := min d.charge dflt, pledge := 0, cut := 0, shed := false, hr := .recover }
  if (s.port p).tc.isSrc then (s.disarm p .safe0V).arm p .srcRecover else s

end Sys2Proof.Machine
end

