-- ==== Sys2Proof/Machine/PolicyMsg.lean ====
section
/-! DEFINITION. The steps that hands run on received messages and transmission results (R138 to R174). -/

namespace Sys2Proof.Machine

/-! ## Which row takes a message -/

/-- The rows of the table that take a received message. -/
inductive MsgRow where
  | request | eprRequest | softReset | accept | reject | wait | psRdy | sourceCap | eprSourceCap | getSourceCap | getSinkCap
  | getPpsStatus | getStatus | getRevision | eprEnter | eprExit | eprResponse | keepAlive | vconnSwap | prSwap | drSwap | frSwap
  | dataReset | notSupported | cableId | sop2Id | discId | discSvids | discModes | enterMode | dpStatus | dpConfig | vdmNak | vdmBusy
  | attention | vdmCommand | unstructured | unsupported
  deriving DecidableEq, Repr

/-- The row of a structured VDM on SOP. -/
def vdmRow (v : Vdm) : MsgRow :=
  match v.typ with
  | .nak => .vdmNak
  | .busy => .vdmBusy
  | .req => if v.cmd = .attention then .attention else .vdmCommand
  | .ack =>
    match v.cmd with
    | .discIdentity => .discId
    | .discSvids => .discSvids
    | .discModes => .discModes
    | .enterMode => .enterMode
    | .dpStatus => .dpStatus
    | .dpConfigure => .dpConfig
    | _ => .vdmCommand

/-- The row of a received message. -/
def rowOf (m : RxMsg) : MsgRow :=
  match m.sop with
  | .sop =>
    match m.msg with
    | .request _ => .request
    | .eprRequest _ => .eprRequest
    | .softReset => .softReset
    | .accept => .accept
    | .reject => .reject
    | .wait => .wait
    | .psRdy => .psRdy
    | .sourceCap _ => .sourceCap
    | .eprSourceCap _ => .eprSourceCap
    | .getSourceCap => .getSourceCap
    | .getSinkCap => .getSinkCap
    | .getPpsStatus => .getPpsStatus
    | .getStatus => .getStatus
    | .getRevision => .getRevision
    | .eprMode .enter => .eprEnter
    | .eprMode .exit => .eprExit
    | .eprMode _ => .eprResponse
    | .eprKeepAlive => .keepAlive
    | .vconnSwap => .vconnSwap
    | .prSwap => .prSwap
    | .drSwap => .drSwap
    | .frSwap => .frSwap
    | .dataReset => .dataReset
    | .notSupported => .notSupported
    | .vdm v => vdmRow v
    | .unstructuredVdm => .unstructured
    | _ => .unsupported
  | .sop1 => match m.msg with | .vdm v => if v.typ = .req then .unsupported else .cableId | _ => .unsupported
  | .sop2 => match m.msg with | .vdm v => if v.typ = .req then .unsupported else .sop2Id | _ => .unsupported
  | _ => .unsupported

/-- The message is no VDM and came on SOP: a VDM exchange gives way to it (R179). -/
def RxMsg.isOther (m : RxMsg) : Bool :=
  decide (m.sop = .sop) && (match m.msg with | .vdm _ => false | .unstructuredVdm => false | _ => true)

/-- A hand's step on the oldest received message of port p, when it is of this row (R133, R135). In TYPEC_ONLY any SOP message, answered
as ever, leads to SEND_CAPS (R138, R140). A message of a port that is no longer attached is discarded (R136). -/
def State.onMsg (s : State) (h : Hand) (p : Port) (row : MsgRow) (f : RxMsg → State → State) : Res State :=
  if !s.running then .next s else
  match s.takeMsg h p (fun m => decide (rowOf m = row)) with
  | none => .next s
  | some (m, s) =>
    let only (s : State) : Bool := (s.port p).tc.isSrc && decide ((s.port p).pd.src = .typecOnly)
    let wake := only s && decide (m.sop = .sop)
    .next (State.endStep (
      if !s.bmcRuns p then s
      else if wake && decide (row = .getSourceCap) then s.offer p
      else
        let s := f m ((if m.isOther then s.vdmInterrupt p else s).disarm p .receiverResponse)
        if wake && only s then s.offer p else s))

/-- An answer that no machine waits for. -/
def State.say (s : State) (p : Port) (m : PdMsg) : State := s.send p .sop .answer m

/-- Not_Supported (R160). -/
def State.notSupported (s : State) (p : Port) : State := s.say p .notSupported

/-- A swap refused with Not_Supported, and counted (R158, R160). -/
def State.refuseSwap (s : State) (p : Port) : State := ((s.pdEvt p 9).pdCnt p 6).notSupported p

/-! ## Requests (R144 to R146) -/

/-- The offered object at a position. -/
def Offer.at (o : Offer) (pos : Nat) : Option Offered := if pos = 0 then Option.none else o.pdos[pos - 1]?

/-- The contract that a valid request asks for, with its need in credits (R144, R145, R152); none where it is invalid. -/
def requestOf (o : Offer) (r : Rdo) (epr : Bool) : Option Contract :=
  match o.at r.pos with
  | none => none
  | some ⟨k, pdo⟩ =>
    if 8 ≤ r.pos ∧ !epr then none else
    match pdo with
    | .fixed mv ma =>
      if ma < r.opMa then none else
      let i := min r.maxMa ma
      some ⟨r.pos, if k = 3 then .eprFixed else .fixed, mv, i, r.opMa, (mv * i + 99999) / 100000⟩
    | .pps lo hi ma =>
      if ma < r.opMa ∨ r.mv < lo ∨ hi < r.mv ∨ r.mv % 20 ≠ 0 then none
      else some ⟨r.pos, .pps, r.mv, r.opMa, r.opMa, (r.mv * r.opMa + 99999) / 100000⟩
    | .avs lo hi pdp =>
      if 5000 < r.opMa ∨ pdp * 1000000 < r.mv * r.opMa ∨ r.mv < lo ∨ hi < r.mv ∨ r.mv % 100 ≠ 0 then none
      else some ⟨r.pos, .avs, r.mv, r.opMa, r.opMa, (r.mv * r.opMa + 99999) / 100000⟩
    | .zero => none

/-- Reject (R138, R144): with a contract in force the port is in READY, else capabilities follow after 100 ms. -/
def State.reject (s : State) (p : Port) : State :=
  let s := ((s.pdEvt p 7).pdCnt p 5).send p .sop .reject .reject
  let s := s.onPd p fun d => { d with waits := 0, twinWaits := 0 }
  if (s.port p).pd.contract.isSome then s.enterReady p else s.arm p .rejectResend

/-- Accept sent, with the difference pledged (R145). -/
def State.acceptReq (s : State) (p : Port) (c : Contract) : State :=
  let s := s.ledger fun s => s.onPd p fun d => { d with want := some c, pledge := c.credits - d.charge, waits := 0, twinWaits := 0 }
  s.send p .sop .accept .accept

/-- Wait for the shared stage (R171): after the third in a row the port offers its capabilities without PPS and AVS objects. -/
def State.waitTwin (s : State) (p : Port) : State :=
  let s := ((s.pdEvt p 8).pdCnt p 10).onPd p fun d => { d with
    src := .waitReq, waits := 0, twinWaits := d.twinWaits + 1, noMove := d.noMove || decide (2 ≤ d.twinWaits) }
  let s := s.send p .sop .wait .wait
  if 3 ≤ (s.port p).pd.twinWaits then (s.onPd p fun d => { d with twinWaits := 0 }).offer p else s.arm p .waitWindow

/-- Wait for credits, and a loan sought; after the third in a row fresh capabilities (R145, R146). -/
def State.waitCred (s : State) (p : Port) (short : Nat) : State :=
  let s := ((s.pdEvt p 6).pdCnt p 4).onPd p fun d => { d with
    src := .waitReq, waits := d.waits + 1, twinWaits := 0, short := short }
  let s := (s.send p .sop .wait .wait).seek short
  if 3 ≤ (s.port p).pd.waits then (s.onPd p fun d => { d with waits := 0 }).offer p else s.arm p .waitWindow

/-- Admission of a Request or EPR_Request (R144 to R146, R148, R171). The wait for an answer to the port's own VCONN_Swap runs on (R159,
R161). DEDUCED (assumption 86): Capability Mismatch counts in PD_MISMATCH
for a valid request alone, as R145 speaks of one; R144 does not say whether a rejected Request counts. -/
def State.admission (s : State) (p : Port) (r : Rdo) (eprMsg : Bool) : State :=
  let s := (if (s.port p).pd.vcsPend then s else s.disarm p .senderResponse).disarm p .waitWindow
  let d := (s.port p).pd
  let s := match d.offer.at r.pos with | some ⟨_, .pps _ _ _⟩ => s.arm p .ppsTimeout | _ => s
  let s := s.onPd p fun d => { d with src := .admission }
  if eprMsg != d.eprMsgs then s.reject p else
  match requestOf d.offer r d.eprMsgs with
  | none => s.reject p
  | some c =>
    let s := if r.mismatch then s.pdCnt p 12 else s
    if s.sibAttached p && decide (c.mv ≠ (s.port (s.stageOf p)).stg.target) then s.waitTwin p
    else
      let short : Int := (c.credits : Int) - d.charge - s.free
      if decide (c.credits ≤ d.charge) || (decide (short ≤ 0) && decide ((0 : Int) ≤ s.free)) then s.acceptReq p c
      else s.waitCred p short.toNat

/-- The states in which a Request is answered (R138). -/
def SrcState.takesRequest : SrcState → Bool
  | .negotiate => true
  | .ready => true
  | .waitReq => true
  | _ => false

/-- REQUEST. A Request in a state with no transition for it is discarded. -/
def execRequest (h : Hand) (p : Port) (s : State) : Res State :=
  s.onMsg h p .request fun m s => match m.msg with
    | .request r =>
      if !(s.port p).tc.isSrc then s.notSupported p
      else if (s.port p).pd.src.takesRequest then s.admission p r false else s
    | _ => s

/-- EPR_REQUEST: as REQUEST, in EPR mode. -/
def execEprRequest (h : Hand) (p : Port) (s : State) : Res State :=
  s.onMsg h p .eprRequest fun m s => match m.msg with
    | .eprRequest r =>
      if !(s.port p).tc.isSrc then s.notSupported p
      else if (s.port p).pd.src.takesRequest then s.admission p r true else s
    | _ => s

/-! ## Resets -/

/-- The states from SEND_CAPS onwards (R138). -/
def SrcState.takesSoftReset : SrcState → Bool
  | .idle => false
  | .startup => false
  | _ => true

/-- SOFT_RESET: accepted from SEND_CAPS onwards; the MessageID counters reset and the source goes to SEND_CAPS (R138); a sink goes
to STARTUP. A VCONN_Swap of the port's that is under way has failed (R159). -/
def execSoftReset (h : Hand) (p : Port) (s : State) : Res State :=
  s.onMsg h p .softReset fun _ s =>
    let x := s.port p
    if (x.tc.isSrc && x.pd.src.takesSoftReset) || (x.tc.isSnk && decide (x.pd.snk ≠ .hardReset)) then
      let s := [TimerId.senderResponse, .waitWindow, .rejectResend, .srcTransition, .transitionLimit, .psTransition, .sinkRequest,
        .typeCSendSourceCap].foldl (fun s t => s.disarm p t) s
      let s := (((s.dropPledge p).pdEvt p 3).pdCnt p 3).onProt p Prot.idsReset
      if !(s.port p).tc.attached then s else
      let s :=
        if x.tc.isSrc then s.onPd p fun d => { d with src := .sendCaps, capsTry := 0, waits := 0, twinWaits := 0 }
        else (s.onPd p fun d => { d with snk := .startup }).arm p .sinkWaitCap
      (s.send p .sop .acceptSoft .accept).vcsFailed p
    else s

/-- HARD_RESET_RECEIVED: a class 0 event (R110, R161 to R163). The hard reset count rises; the timers of the sequence start. -/
def execHardResetReceived (h : Hand) (p : Port) (s : State) : Res State :=
  s.handStep h (some p) (fun e => decide (e = .hardReset)) fun _ s =>
    if !s.bmcRuns p then s else
    let s := (((s.pdEvt p 1).pdCnt p 1).hrBegin p).onPort p fun x => { x with
      prot := { x.prot with txq := [], await := none, tries := 0, hrWait := false }
      pd := { x.pd with hrc := min (x.pd.hrc + 1) 2 } }
    s.hrTimers p

/-! ## Responses -/

/-- ACCEPT: to the port's Soft_Reset, to its VCONN_Swap, or to the sink's Request (R138, R153, R156, R159); else out of context. -/
def execAccept (h : Hand) (p : Port) (s : State) : Res State :=
  s.onMsg h p .accept fun _ s =>
    let x := s.port p
    if x.tc.isSrc then
      if x.pd.src = .softReset then (s.disarm p .senderResponse).offer p
      else if x.pd.vcsPend && decide (x.pd.vcs = 0) then
        let s := (s.disarm p .senderResponse).takeVconn p
        if (s.port p).pd.vcs = 2 then s else s.vcsFailed p
      else s
    else if x.pd.snk = .softReset then
      ((s.disarm p .senderResponse).onPd p fun d => { d with snk := .startup }).arm p .sinkWaitCap
    else if x.pd.snk = .select then
      let need := match x.pd.want with | some c => c.credits | none => 0
      let s := (s.disarm p .senderResponse).ledgerOf p fun s => s.onPd p fun d => { d with
        snk := .transition, inflow := min d.inflow need }
      s.arm p .psTransition
    else s

/-- REJECT: the sink returns to READY under its contract, else it evaluates again (R153); the port's VCONN_Swap is refused (R159). -/
def execReject (h : Hand) (p : Port) (s : State) : Res State :=
  s.onMsg h p .reject fun _ s =>
    let x := s.port p
    if x.pd.vcsPend then (s.disarm p .senderResponse).vcsFailed p
    else if x.tc.isSnk && decide (x.pd.snk = .select) then
      let s := (s.disarm p .senderResponse).onPd p fun d => { d with want := none }
      if x.pd.contract.isSome then s.sinkReady p else s.evaluate p
    else s

/-- WAIT: the sink requests again after tSinkRequest (R153); the port's VCONN_Swap did not succeed (R159). -/
def execWait (h : Hand) (p : Port) (s : State) : Res State :=
  s.onMsg h p .wait fun _ s =>
    let x := s.port p
    if x.pd.vcsPend then (s.disarm p .senderResponse).vcsFailed p
    else if x.tc.isSnk && decide (x.pd.snk = .select) then
      ((s.disarm p .senderResponse).onPd p fun d => { d with snk := .waited, want := none }).arm p .sinkRequest
    else s

/-- The sink contract is reached (R153, R156, R201): inflow, limits and READY; a twin that held its sluice off turns it on when it draws,
and one that draws nothing beside its sibling keeps its sluice off (R172). -/
def State.sinkContract (s : State) (p : Port) (c : Contract) : State :=
  let s := s.disarm p .psTransition
  let s := s.ledgerOf p fun s => s.onPort p fun x => { x with
    pd := { x.pd with contract := some c, want := none, inflow := c.credits }
    met := { x.met with contracts := min (x.met.contracts + 1) 0xFFFFFFFF } }
  let s := ((s.pdEvt p 0).pdCnt p 0).limitsNow p
  let on := (s.port p).slc.onReq
  let s := if !on && decide (0 < c.opMa) then s.slcCmd p .on
    else if on && decide (c.opMa = 0) && s.sibAttached p then s.slcCmd p .off else s
  let s := s.sinkReady p
  if (s.port p).pd.snk = .ready ∧ s.wantsEpr p then s.evaluate p else s

/-- PS_RDY: the new VCONN source is ready, or the sink's contract is reached (R156, R158). -/
def execPsRdy (h : Hand) (p : Port) (s : State) : Res State :=
  s.onMsg h p .psRdy fun _ s =>
    let x := s.port p
    if x.pd.vcs = 1 then
      (((s.disarm p .vconnSourceOn).dropVconn p).onPd p fun d => { d with vcs := 0 }).pdEvt p 10
    else if x.tc.isSnk && decide (x.pd.snk = .transition) then
      match x.pd.want with
      | some c => s.sinkContract p c
      | none => s
    else s

/-- NOT_SUPPORTED_RECEIVED: a pending exchange of the port fails: its VCONN_Swap (R159) or its EPR entry (R155). -/
def execNotSupportedReceived (h : Hand) (p : Port) (s : State) : Res State :=
  s.onMsg h p .notSupported fun _ s =>
    let x := s.port p
    if x.pd.vcsPend then (s.disarm p .senderResponse).vcsFailed p
    else if x.tc.isSnk && decide (x.pd.epr = .entry) then
      (s.disarm p .senderResponse).onPd p fun d => { d with epr := .spr }
    else s

/-! ## Capabilities -/

/-- Capabilities are taken by a sink that waits for them or may renegotiate (R153). DESIGN CHOICE (assumption 85): those that reach a sink
in WAITED before tSinkRequest ends take it to EVALUATE at once; R153 lists only the timer there. -/
def SnkState.takesCaps : SnkState → Bool
  | .startup => true
  | .ready => true
  | .waited => true
  | .evaluate => true
  | _ => false

/-- SOURCE_CAPABILITIES: the sink evaluates them (R153, R154). They end EPR mode's entry or stay of the port. -/
def execSourceCapabilities (h : Hand) (p : Port) (s : State) : Res State :=
  s.onMsg h p .sourceCap fun m s => match m.msg with
    | .sourceCap c =>
      if (s.port p).tc.isSrc then s.notSupported p
      else if (s.port p).pd.snk.takesCaps then
        let s := (s.disarm p .sinkWaitCap).onPd p fun d => { d with
          snk := .evaluate, srcCaps := c.pdos, partnerEpr := c.eprCapable, epr := if d.epr = .exit then .spr else d.epr }
        s.evaluate p
      else s
    | _ => s

/-- EPR_SOURCE_CAPABILITIES: a sink in EPR mode evaluates them (R154, R155). -/
def execEprSourceCapabilities (h : Hand) (p : Port) (s : State) : Res State :=
  s.onMsg h p .eprSourceCap fun m s => match m.msg with
    | .eprSourceCap c =>
      if (s.port p).tc.isSnk && (s.port p).pd.eprMsgs then
        if (s.port p).pd.snk.takesCaps then
          ((s.disarm p .sinkWaitCap).onPd p fun d => { d with snk := .evaluate, srcCaps := c.pdos }).evaluate p
        else s
      else s.notSupported p
    | _ => s

/-- GET_SOURCE_CAP: a source answers with the capabilities computed now, and its state stays (R138, R142); a dual-role sink with what R142
would build; a sink-only port with Not_Supported (R157). -/
def execGetSourceCap (h : Hand) (p : Port) (s : State) : Res State :=
  s.onMsg h p .getSourceCap fun _ s =>
    let x := s.port p
    if x.tc.isSrc then
      let o := s.buildOffer p
      let s := s.onPd p fun d => { d with offer := o }
      let c := s.capsMsg p o
      s.say p (if x.pd.eprMsgs then .eprSourceCap c else .sourceCap c)
    else if x.cfg.role = 2 then s.say p (.sourceCap (s.capsMsg p (s.buildOffer p)))
    else s.notSupported p

/-- GET_SINK_CAP (R157). -/
def execGetSinkCap (h : Hand) (p : Port) (s : State) : Res State :=
  s.onMsg h p .getSinkCap fun _ s =>
    let x := s.port p
    if x.tc.isSnk || decide (x.cfg.role = 2) then
      s.say p (.sinkCap (if x.cfg.snkV = 0 then 5000 else 100 * x.cfg.snkV) (10 * x.cfg.snkI))
    else s.notSupported p

/-! ## Status (R149, R173, R374) -/

/-- PTF of R149. -/
def ptfOf (f : Nat) : Nat := if f ≤ 10 then 3 else if f < 100 then 2 else 1

/-- The CC loop of the stage that serves port p is active (R148). -/
def State.ccLoop (s : State) (p : Port) : Bool := (s.port (s.stageOf p)).loop.cc

/-- GET_PPS_STATUS: VBC in 20 mV and current in 50 mA units (R149). -/
def execGetPpsStatus (h : Hand) (p : Port) (s : State) : Res State :=
  s.onMsg h p .getPpsStatus fun _ s =>
    let x := s.port p
    if x.tc.isSrc then
      s.say p (.ppsStatus ⟨x.vbcMv / 20, (x.stg.meas.i / 50000).toNat, ptfOf (s.factor p), s.ccLoop p⟩)
    else s.notSupported p

/-- The Status of a port as of now. -/
def State.statusOf (s : State) (p : Port) : StatusMsg :=
  let x := s.port p
  let t := max s.grd.dies[0].temp (max s.grd.dies[1].temp s.grd.dies[2].temp)
  let bat := s.supSeen.1
  let dip := !bat && s.supSeen.2
  let f := s.factor p
  { internalTemp := (t + 5) / 10
    extPower := !dip, extAc := false, intBattery := bat, intNonBattery := dip
    ocp := x.pd.ocp, otp := f = 0, cfMode := s.ccLoop p, ptf := ptfOf f
    limCable := x.pd.offer.bound.getLsbD 2, limInput := x.pd.offer.bound.getLsbD 0, limTemp := x.pd.offer.bound.getLsbD 1 }

/-- GET_STATUS: the answer clears OCP and lets the next Alert go (R173, R174). -/
def execGetStatus (h : Hand) (p : Port) (s : State) : Res State :=
  s.onMsg h p .getStatus fun _ s =>
    let s := s.say p (.status (s.statusOf p))
    let s := (s.disarm p .alertWait).onPd p fun d => { d with ocp := false, alertOut := false }
    s.alertTry p

/-- GET_REVISION: Revision 3.2 (R160). -/
def execGetRevision (h : Hand) (p : Port) (s : State) : Res State :=
  s.onMsg h p .getRevision fun _ s => s.say p .revision

/-! ## EPR (R150, R151, R155, R159) -/

/-- EPR_MODE_ENTER: a source answers, in EPR mode too, where the checks fail under an EPR contract; one that has given up VCONN first takes it
back, and answers the Enter that came then (R150, R159). -/
def execEprModeEnter (h : Hand) (p : Port) (s : State) : Res State :=
  s.onMsg h p .eprEnter fun _ s =>
    let x := s.port p
    if !x.tc.isSrc then s.notSupported p
    else if x.pd.eprPend then s
    else
    let s := s.arm p .enterEpr
    if x.pd.gaveVconn && !x.pd.vconnSrc then
      if s.canVconn p then
        (s.onPd p fun d => { d with eprPend := true, vcsPend := true, vcs := 0 }).send p .sop .vconnSwap .vconnSwap
      else s.eprFail p 2
    else s.eprAnswer p

/-- EPR mode is left (R151). -/
def State.eprLeft (s : State) (p : Port) : State :=
  (((s.disarm p .sourceEprKeepAlive).disarm p .sinkEprKeepAlive).onPd p fun d => { d with epr := .spr, exitPend := false }).pdEvt p 12

/-- EPR_MODE_EXIT: a source first brings an EPR contract down to an SPR object, by an offer without EPR objects; then it sends
Source_Capabilities (R151). -/
def execEprModeExit (h : Hand) (p : Port) (s : State) : Res State :=
  s.onMsg h p .eprExit fun _ s =>
    let x := s.port p
    if x.pd.epr ≠ .epr then s.notSupported p
    else if x.tc.isSrc then
      match x.pd.contract with
      | some c =>
        if c.kind = .eprFixed ∨ c.kind = .avs then
          (s.onPd p fun d => { d with epr := .exit, exitPend := true }).offerDue p
        else (s.eprLeft p).offerDue p
      | none => (s.eprLeft p).offerDue p
    else s.eprLeft p

/-- EPR_MODE_RESPONSE: the partner's answer to a sink's entry (R155). -/
def execEprModeResponse (h : Hand) (p : Port) (s : State) : Res State :=
  s.onMsg h p .eprResponse fun m s =>
    if (s.port p).tc.isSnk && decide ((s.port p).pd.epr = .entry) then
      match m.msg with
      | .eprMode .enterAck => s
      | .eprMode .enterSucceeded =>
        let s := ((s.disarm p .senderResponse).onPd p fun d => { d with epr := .epr }).pdEvt p 11
        (s.send p .sop .keepAlive .eprKeepAlive).arm p .sinkEprKeepAlive
      | _ => (s.disarm p .senderResponse).onPd p fun d => { d with epr := .spr }
    else s

/-- EPR_KEEPALIVE: answered in EPR mode, and the timer restarts (R151). -/
def execEprKeepalive (h : Hand) (p : Port) (s : State) : Res State :=
  s.onMsg h p .keepAlive fun _ s =>
    if (s.port p).tc.isSrc && (s.port p).pd.eprMsgs then (s.say p .eprKeepAliveAck).arm p .sourceEprKeepAlive
    else s.notSupported p

/-! ## Swaps (R158, R160) -/

/-- VCONN_SWAP. -/
def execVconnSwap (h : Hand) (p : Port) (s : State) : Res State :=
  s.onMsg h p .vconnSwap fun _ s =>
    let x := s.port p
    if !s.alm.cfg.feat.testBit 4 then s.refuseSwap p
    else if x.pd.vconnSrc then s.send p .sop .acceptVcs .accept
    else if s.canVconn p then s.send p .sop .acceptVcs .accept
    else ((s.pdEvt p 7).pdCnt p 5).say p .reject

/-- PR_SWAP. -/
def execPrSwap (h : Hand) (p : Port) (s : State) : Res State := s.onMsg h p .prSwap fun _ s => s.refuseSwap p
/-- DR_SWAP. -/
def execDrSwap (h : Hand) (p : Port) (s : State) : Res State := s.onMsg h p .drSwap fun _ s => s.refuseSwap p
/-- FR_SWAP. -/
def execFrSwap (h : Hand) (p : Port) (s : State) : Res State := s.onMsg h p .frSwap fun _ s => s.refuseSwap p
/-- DATA_RESET. -/
def execDataReset (h : Hand) (p : Port) (s : State) : Res State := s.onMsg h p .dataReset fun _ s => s.refuseSwap p

/-- A message that answers something: out of context it is discarded and not answered. -/
def PdMsg.isResponse : PdMsg → Bool
  | .goodCrc _ => true
  | .eprKeepAliveAck => true
  | .sinkCap _ _ => true
  | .status _ => true
  | .ppsStatus _ => true
  | .revision => true
  | _ => false

/-- UNSUPPORTED_MESSAGE: Not_Supported; a response out of context, and a cable plug's other messages, are discarded (R160). -/
def execUnsupportedMessage (h : Hand) (p : Port) (s : State) : Res State :=
  s.onMsg h p .unsupported fun m s => if decide (m.sop ≠ .sop) || PdMsg.isResponse m.msg then s else s.notSupported p

/-! ## Transmission results -/

/-- The timer of a VDM command's response (R177). -/
def vdmTimer (v : VdmP) : TimerId := if v.st = .enter then .vdmWaitModeEntry else .vdmSenderResponse

/-- The PS_RDY of a source is acknowledged (R138, R147, R161, R167, R201): the contract is in force, the surplus is released, and a
lowered limit takes effect. A contract that answers the shed offer, whose limit then runs, credits the cut; one that was on its way when
the port was selected does not. An EPR contract brought down under R151 leaves EPR mode now. -/
def State.contractReached (s : State) (p : Port) : State :=
  match (s.port p).pd.want with
  | none => s
  | some c =>
    let shed := (s.port p).pd.live.any fun e => decide (e.1 = .shedLimit)
    let s := s.ledgerOf p fun s => s.onPort p fun x => { x with
      pd := { x.pd with contract := some c, want := none, charge := c.credits, pledge := 0
                        cut := if shed then 0 else x.pd.cut, shed := x.pd.shed && !shed }
      met := { x.met with contracts := min (x.met.contracts + 1) 0xFFFFFFFF } }
    if !(s.port p).tc.isSrc then s else
    let s := (s.disarm p .shedLimit).disarm p .transitionLimit
    let s := if c.kind = .pps then s else s.disarm p .ppsTimeout
    let s := ((s.pdEvt p 0).pdCnt p 0).limitsNow p
    if (s.port p).pd.exitPend && decide (c.kind ≠ .eprFixed) && decide (c.kind ≠ .avs) then
      ((s.eprLeft p).onPd p fun d => { d with trigger := true }).enterReady p
    else s.enterReady p

/-- GoodCRC for the Accept of a Request: the pledge becomes the charge (R138, R146, R147). -/
def State.acceptAcked (s : State) (p : Port) : State :=
  if (s.port p).pd.want.isNone then s else
  let s := s.ledgerOf p fun s => s.onPd p fun d => { d with charge := d.charge + d.pledge, pledge := 0 }
  if !(s.port p).tc.isSrc then s
  else ((s.onPd p fun d => { d with src := .transition, psRdyOut := false }).arm p .srcTransition).arm p .transitionLimit

/-- What a hand does with a GoodCRC (R137, R138, R146, R150, R158). -/
def State.txOk (s : State) (p : Port) : TxKind → State
  | .caps => if (s.port p).pd.src = .sendCaps then (s.onPd p fun d => { d with src := .negotiate }).arm p .senderResponse else s
  | .eprCaps => if (s.port p).pd.src = .sendCaps then (s.onPd p fun d => { d with src := .negotiate }).arm p .senderResponse else s
  | .accept => s.acceptAcked p
  | .psRdy => s.contractReached p
  | .acceptSoft => if (s.port p).tc.isSrc then s.offer p else s
  | .softReset => s.arm p .senderResponse
  | .request => s.arm p .senderResponse
  | .eprEnter => s.arm p .senderResponse
  | .vconnSwap => s.arm p .senderResponse
  | .acceptVcs =>
    if (s.port p).pd.vconnSrc then (s.onPd p fun d => { d with vcs := 1 }).arm p .vconnSourceOn
    else s.takeVconn p
  | .psRdyVcs =>
    let s := (s.onPd p fun d => { d with vcs := 0, vcsPend := false }).pdEvt p 10
    if (s.port p).pd.eprPend && (s.port p).pd.cabled then s.eprAnswer p else s
  | .eprSucceeded =>
    if (s.port p).pd.epr = .entry ∨ (s.port p).pd.epr = .epr then
      let s := (s.onPd p fun d => { d with epr := .epr }).pdEvt p 11
      (s.arm p .sourceEprKeepAlive).offer p
    else s
  | .vdm =>
    let v := (s.port p).vdm
    if v.out.isSome && !v.intr then s.arm p (vdmTimer v) else s
  | .cable => if (s.port p).vdm.cabOut.isSome && !(s.port p).vdm.cabIntr then s.arm p .cableResponse else s
  | .alert => s.arm p .alertWait
  | _ => s

/-- TX_GOODCRC: a hand takes the GoodCRC of a sent message. -/
def execTxGoodcrc (h : Hand) (p : Port) (s : State) : Res State :=
  s.handStep h (some p) (fun e => match e with | .txOk _ => true | _ => false) fun c s =>
    match c with
    | .txOk k => if s.bmcRuns p then s.txOk p k else s
    | _ => s

/-! ## VDM steps that fail, as both a NAK and a lost transmission lead there (R178, R180, R183, R186) -/

/-- The step that sent the pending command fails: what R183 lays down for a NAK there. -/
def State.vdmStepFails (s : State) (p : Port) : State :=
  let s := s.vdmTimersOff p
  let s := s.onVdm p fun m => { m with out := none, waiting := false, busies := 0, intr := false }
  match (s.port p).vdm.st with
  | .discId => s.noMode p
  | .discSvid => s.noMode p
  | .discModes => s.nextEntry p
  | .enter => s.nextEntry p
  | .dpStatus => (s.onVdm p fun m => { m with entered := false, hpd := false }).nextEntry p
  | .dpConfig =>
    let s := (((s.onVdm p fun m => { m with entered := false, hpd := false, left := [] }).vdmEvt p 2).vdmEvt p 5).muxUpdate p
    s.vdmSend p .noMode (s.entryCmd p .exitMode (s.entryOfVdm p).objPos .none)
  | _ => s

/-- A step of cable discovery fails (R180, R182). -/
def State.cabStepFails (s : State) (p : Port) : State :=
  let s := s.cableTimersOff p
  if (s.port p).vdm.cab = .cableSop1 then s.cableTryFailed p (fun s => s.eprAnswer p)
  else s.cableDone p (fun s => s.eprAnswer p)

/-- Source_Capabilities without GoodCRC: the next attempt after tTypeCSendSourceCap, or TYPEC_ONLY after attempt nCapsCount (R138). -/
def State.capsFailed (s : State) (p : Port) : State :=
  if (s.port p).pd.src ≠ .sendCaps then s
  else if 50 ≤ (s.port p).pd.capsTry then s.onPd p fun d => { d with src := .typecOnly }
  else s.arm p .typeCSendSourceCap

/-- What a hand does with a failed transmission (R109, R138, R146, R161, R178). A source whose Reject, Wait, PS_RDY or answer fails goes on as if it
had been sent, since R138 lists no transition for it: what its state waits for ends the wait, as the transition limit does for PS_RDY. PRESUMED
(assumption 36): a sink's failed Request or EPR_Mode (Enter) leads to Soft_Reset, and a failed answer of EPR entry, or PS_RDY of a VCONN_Swap, ends
that exchange; no rule speaks of these. -/
def State.txFail (s : State) (p : Port) : TxKind → State
  | .caps => s.capsFailed p
  | .eprCaps => s.capsFailed p
  | .accept => s.softReset p
  | .reject => s
  | .wait => s
  | .request => s.softReset p
  | .eprEnterAck => s.onPort p fun x => { x with pd := x.pd.entryOff, prot := x.prot.withdraw (· = .eprSucceeded) }
  | .eprSucceeded => s.onPd p Pd.entryOff
  | .eprFailed => s
  | .eprEnter => (s.onPd p Pd.entryOff).softReset p
  | .acceptVcs => s
  | .vconnSwap => s.vcsFailed p
  | .answer => s
  | .keepAlive => s
  | .psRdy => s
  | .psRdyVcs => (s.vcsFailed p).onPd p fun d => { d with vcs := 0 }
  | .softReset => s.hardReset p
  | .acceptSoft => s.capsFailed p
  | .vdm =>
    let v := (s.port p).vdm
    if v.out.isSome && !v.intr then (s.vdmCnt p 3).vdmStepFails p else s
  | .cable =>
    let v := (s.port p).vdm
    if v.cabOut.isSome && !v.cabIntr then (s.vdmCnt p 3).cabStepFails p else s
  | .alert => (s.onPd p fun d => { d with alertOut := false }).alertTry p
  | .eprExit => s
  | .hardReset => s

/-- TXFAIL: a hand takes a failed transmission. -/
def execTxfail (h : Hand) (p : Port) (s : State) : Res State :=
  s.handStep h (some p) (fun e => match e with | .txFail _ => true | _ => false) fun c s =>
    match c with
    | .txFail k => if s.bmcRuns p then s.txFail p k else s
    | _ => s

end Sys2Proof.Machine
end

