-- ==== Sys2Proof/Machine/Guard.lean ====
section
/-! DEFINITION. The dowser, the thermistor and the die temperatures (R113 to R128). -/

namespace Sys2Proof.Machine

def State.onGrd (s : State) (p : Port) (f : GrdP → GrdP) : State := s.onPort p fun x => { x with grd := f x.grd }

/-- A notice to the port's hand (R130): `offer` says that a new offer is due. -/
def State.guardPost (s : State) (p : Port) (offer : Bool) : State :=
  (s.onGrd p fun g => { g with notice := g.notice || offer }).postPort p 3 .guard

/-- GUARD_OFF with the release of R117 and R164. -/
def State.guardCut (s : State) (p : Port) : State := (s.ledgerOf p fun s => s.guardOff p).twinFreed p

/-- A port in GUARD_OFF leaves it when no guard condition stands any more (R128). -/
def State.guardFree (s : State) (p : Port) : State :=
  if (s.port p).tc.st = .guardOff ∧ !(s.port p).grd.off then s.toUnatt p else s

/-! ## The dowser (R113 to R119) -/

/-- A reading of z kΩ enters a pin's runs at time us. -/
def PinRun.read (r : PinRun) (us z zWet zDry : Nat) : PinRun :=
  { wet := if z < zWet then some (r.wet.getD us) else Option.none
    flood := if 8 * z < zWet then some (r.flood.getD us) else Option.none
    dry := if zDry < z then some (r.dry.getD us) else Option.none
    last := some us }

/-- A run has lasted at least t µs at its pin's latest reading. -/
def ranFor (first last : Option Nat) (t : Nat) : Bool :=
  match first, last with | some a, some b => decide (t ≤ b - a) | _, _ => false

/-- WET is to set: any measured pin below Z_WET for T_WET. The runs of CC pins that are not measured are empty. -/
def GrdP.wetNow (g : GrdP) (tWet : Nat) : Bool :=
  ranFor g.msn.wet g.msn.last (1000 * tWet) || ranFor g.cc1.wet g.cc1.last (1000 * tWet) || ranFor g.cc2.wet g.cc2.last (1000 * tWet)

/-- Every measured pin has been dry for T_DRY; a CC pin counts once it has been read. -/
def GrdP.dryNow (g : GrdP) (tDry : Nat) : Bool :=
  let ok (r : PinRun) : Bool := ranFor r.dry r.last (1000000 * tDry)
  ok g.msn && (g.cc1.last.isNone || ok g.cc1) && (g.cc2.last.isNone || ok g.cc2)

/-- WET sets (R116, R117); the port's hand is told (R130). -/
def State.setWet (s : State) (p : Port) : State :=
  let s := ((s.onGrd p fun g => { g with wet := true }).grdEvt p 0).grdCnt p 0
  let on := (s.port p).tc.attached
  let s := s.guardPost p on
  if on then s else s.guardCut p

/-- FLOOD sets (R117). -/
def State.setFlood (s : State) (p : Port) : State :=
  ((((s.onGrd p fun g => { g with flood := true }).grdEvt p 1).grdCnt p 1).guardPost p false).guardCut p

/-- The conditions WET and FLOOD after a reading. -/
def State.judgeWet (s : State) (p : Port) : State :=
  let c := s.alm.cfg
  let g := (s.port p).grd
  let s := if !g.wet && g.wetNow c.tWet then s.setWet p else s
  let s := if !g.flood && ranFor g.msn.flood g.msn.last (1000 * c.tWet) then s.setFlood p else s
  let s := if g.flood && ranFor g.msn.dry g.msn.last (1000000 * c.tDry) then
      (s.onGrd p fun g => { g with flood := false }).guardPost p false
    else s
  let s := if g.wet && g.dryNow c.tDry then
      let s := (s.onGrd p fun g => { g with wet := false }).grdEvt p 7
      s.guardPost p (s.port p).tc.attached
    else s
  s.guardFree p

/-- A DC reading of frame 0 (R115, R118). -/
def State.judgeCorr (s : State) (p : Port) (mv : Int) : State :=
  let c := s.alm.cfg
  let g := (s.port p).grd
  let n := if c.vCorr < mv.natAbs then g.corrN + 1 else 0
  let dry := if 2 * mv.natAbs < c.vCorr then some (g.corrDry.getD g.us) else none
  let s := s.onGrd p fun g => { g with vdc := mv, corrN := min n 8, corrDry := dry }
  if !g.corr && decide (8 ≤ n) then (((s.onGrd p fun g => { g with corr := true }).grdEvt p 2).grdCnt p 2).guardPost p false
  else if g.corr && ranFor dry (some g.us) (1000000 * c.tDry) then (s.onGrd p fun g => { g with corr := false }).guardPost p false
  else s

/-- The pin that the next frame disconnects, if it is a CC frame (R113). -/
def nextCc (frame : Nat) (st : ConnState) : Option Bool :=
  match st with
  | .attSrc => none
  | .attSnk => none
  | .attwaitSrc => none
  | .attwaitSnk => none
  | _ => if frame = 1 then some false else if frame = 2 then some true else none

/-- A frame has ended: 16 ms have passed and the next frame begins. -/
def GrdP.nextFrame (g : GrdP) (st : ConnState) : GrdP :=
  { g with frame := (g.frame + 1) % 64, ccFrame := nextCc ((g.frame + 1) % 64) st }

/-- An impedance reading of the frame's pin (R114, R115). -/
def GrdP.impedance (g : GrdP) (z zWet zDry : Nat) : GrdP :=
  match g.ccFrame with
  | none => { g with z := z, msn := g.msn.read g.us z zWet zDry }
  | some false => { g with zcc1 := z, cc1 := g.cc1.read g.us z zWet zDry }
  | some true => { g with zcc2 := z, cc2 := g.cc2.read g.us z zWet zDry }

/-- DOWSER_FRAME: a frame ends with its reading (R113 to R119). A CC frame that finds a termination on its pin is discarded, and at its
end the connection machine judges both pins as they stand. DESIGN CHOICE (assumption 106): the runs' clock advances 16 ms with each frame and
with nothing else, so that time in rest does not count in a run that goes on over it; R115 does not say whether it does. -/
def execDowserFrame (p : Port) (r : DowserReading) (s : State) : Res State :=
  let x := s.port p
  if !(s.works p && x.cfg.dowser && !x.quiet) then .next s else
  let c := s.alm.cfg
  let s := s.onGrd p fun g => { g with us := g.us + 16000 }
  let s :=
    match r with
    | .dc mv => if x.grd.frame = 0 then s.judgeCorr p mv else s
    | .impedance kohm found =>
      if x.grd.frame = 0 ∨ (x.grd.ccFrame.isSome ∧ found) then s
      else (s.onGrd p fun g => g.impedance (if 2000 < kohm then 0xFFFF else kohm) c.zWet c.zDry).judgeWet p
  let s := if x.grd.ccFrame.isSome then (s.onGrd p fun g => { g with ccFrame := none }).ccJudge p false else s
  .next (s.onPort p fun y => { y with grd := y.grd.nextFrame y.tc.st })

/-! ## Temperatures (R121 to R127) -/

/-- F of a port reaches 0 though no cut stands, as with a P_MIN of 0, and the port goes to GUARD_OFF (R125); it leaves that once F is above 0
(assumption 99). -/
def State.judgeZero (s : State) (p : Port) : State :=
  let g := (s.port p).grd
  let zero := decide (s.factor p = 0) && !g.hot && !g.dieHot
  let s := s.onGrd p fun g => { g with zeroF := zero }
  if zero && !g.zeroF then (s.guardPost p false).guardCut p
  else if !zero && g.zeroF then (s.guardPost p false).guardFree p
  else s

/-- The filtered temperature after a change of the last second's readings, and the run toward the end of a cut (R121, R125, R126). -/
def GrdP.filter (g : GrdP) (tCut : Nat) (us : Nat) : GrdP :=
  let l := g.readings.filterMap (·.2)
  let t := if l.isEmpty then g.temp else meanInt l
  { g with temp := t
           hotBelow := if g.hot && !g.ntcf && decide (t ≤ 1000 * ((tCut : Int) - 10)) then some (g.hotBelow.getD us) else none }

/-- The thermistor's readings of the last second at AON time `aon`, one each 10 ms (R121). -/
def GrdP.lastSecond (g : GrdP) (aon : Nat) : List (Nat × Option Int) := g.readings.filter fun r => decide (aon < r.1 + 1000000)

/-- NTC_MEASURE: the thermistor reads `ohm` (R121, R126). -/
def execNtcMeasure (p : Port) (ohm : Nat) (s : State) : Res State :=
  let x := s.port p
  if !(s.works p && x.cfg.ntc && !x.quiet) then .next s else
  let ok := ntcInBounds x.cfg.therm ohm
  let n := if ok then min (x.grd.ntcOk + 1) 100 else 0
  let l := x.grd.lastSecond s.dev.aon ++ [(s.dev.aon, if ok then some (ntcTemp x.cfg.therm ohm) else none)]
  let s := s.onGrd p fun g => { g with readings := l.drop (l.length - 100), ntcOk := n }
  let s :=
    if !ok && !x.grd.ntcf then ((s.onGrd p fun g => { g with ntcf := true }).grdEvt p 4).grdCnt p 4
    else if x.grd.ntcf && decide (n = 100) then s.onGrd p fun g => { g with ntcf := false }
    else s
  let us := s.dev.us
  .next ((s.onGrd p fun g => g.filter x.cfg.therm.tCut us).judgeZero p)

/-- A wellhead die's or the core die's place among GRD_DIE0 to GRD_DIE2. -/
def Die.idx : Die → Fin 3
  | .core => 0 | .w0 => 1 | .w1 => 2

/-- A die's temperature bears on a port (R123). -/
def dieHits (d : Die) (p : Port) : Bool :=
  match d with | .core => true | .w0 => decide (dieOf p = .w0) | .w1 => decide (dieOf p = .w1)

/-- A die cut that bears on port p stands (R123, R125). -/
def State.dieCut (s : State) (p : Port) : Bool :=
  s.grd.dies[(0 : Fin 3)].cut || (match dieOf p with | .w0 => s.grd.dies[(1 : Fin 3)].cut | .w1 => s.grd.dies[(2 : Fin 3)].cut)

/-- The die cut reaches port p: DIEHOT sets, and the port goes to GUARD_OFF (R125). -/
def State.dieHotOn (s : State) (p : Port) : State :=
  (if (s.port p).grd.dieHot then s else (s.onGrd p fun g => { g with dieHot := true }).grdEvt p 6).guardCut p

/-- DIE_TEMP_REPORT: a die's hottest sensor, in tenths of a °C (R123, R125). The die temperature guard posts each change (R428). -/
def execDieTempReport (d : Die) (sensor : Fin 8) (temp : Int) (s : State) : Res State :=
  if !s.running then .next s else
  let i := Die.idx d
  let c := s.alm.cfg
  let o := s.grd.dies[i]
  let der := decide (10 * (c.dieDerate : Int) ≤ temp)
  let cut := decide (10 * (c.dieCut : Int) ≤ temp)
  let back := decide (temp ≤ 10 * ((c.dieCut : Int) - 10))
  let n : DieTemp := ⟨temp, sensor.val, o.cut || cut, der, if o.cut && back then some (o.below.getD s.dev.us) else none⟩
  let s := { s with grd := { s.grd with
    dies := s.grd.dies.set i n
    evt := (if cut && !o.cut then setBit s.grd.evt i.val else s.grd.evt) |||
           (if der && !o.derate then 1#32 <<< (4 + i.val) else 0#32)
    cutCnt := if cut && !o.cut then satInc s.grd.cutCnt else s.grd.cutCnt } }
  let s := if (cut && !o.cut) || (der != o.derate) then s.note 51 none 3 (.dieTemp d) else s
  if cut && !o.cut then
    .next <| s.forPorts (allPorts.filter fun p => dieHits d p && (s.port p).live && !s.lost p) fun s p => s.dieHotOn p
  else .next s

/-- A new offer follows by P_ALLOW (R124): it fell below the contract's power, rose by 10 % of P_CLASS, or is back at P_CLASS. Before the
first offer of an attachment there is nothing to compare. Power in µW: 1 % of P_CLASS is P_CLASS in 0.1 mW units. -/
def State.allowTrigger (s : State) (p : Port) : Bool :=
  let x := s.port p
  let a := s.pAllowUw p
  let pc := pClass s.alm.cfg.feat x.cfg
  let below := match x.pd.contract with | some c => decide (a < c.mv * c.ma) | none => false
  !x.pd.offer.pdos.isEmpty &&
  ((below && decide (a < x.pd.offer.allow)) || decide (10 * (pc : Int) ≤ (a : Int) - x.pd.offer.allow) ||
   (decide (s.factor p = 100) && x.pd.offer.bound.getLsbD 1 && decide (x.pd.offer.allow < a)))

/-- THERMAL_EVALUATION: every 100 ms (R122 to R125, R168, R174). -/
def execThermalEvaluation (p : Port) (s : State) : Res State :=
  let x := s.port p
  if !(s.works p && !x.quiet) then .next s else
  let f := if x.cfg.ntc then fNtcOf x.cfg.therm x.grd.temp else 100
  let cut := x.cfg.ntc && !x.grd.ntcf && !x.grd.hot && decide (1000 * (x.cfg.therm.tCut : Int) ≤ x.grd.temp) &&
    (x.grd.lastSecond s.dev.aon).any (·.2.isSome)
  let s := s.onGrd p fun g => { g with fNtc := f }
  let s := if cut then ((s.onGrd p fun g => { g with hot := true, hotBelow := none }).grdEvt p 3).grdCnt p 3 else s
  let now := s.factor p
  let s := if now < 100 ∧ x.grd.wasF = 100 then s.grdEvt p 5 else s
  let s := s.onGrd p fun g => { g with wasF := now }
  let s := (if cut then (s.guardPost p false).guardCut p else s).judgeZero p
  if !(s.port p).tc.attached then .next s
  else
    let offer := (s.port p).tc.isSrc && s.allowTrigger p
    let sink := (s.port p).tc.isSnk && decide (s.pAllowUw p ≠ (s.port p).pd.offer.allow)
    let alert := decide ((s.port p).pd.otpLast ≠ decide (now < 100))
    .next (if offer || sink || alert then s.guardPost p (offer || sink) else s)

/-- CUT_CLEAR: the temperature has stood below its return threshold for 5 s (R125, R126, R128). -/
def execCutClear (c : CutId) (s : State) : Res State :=
  match c with
  | .connector p =>
    let g := (s.port p).grd
    if g.hot && !g.ntcf && g.hotBelow.isSome then
      .next ((((s.onGrd p fun g => { g with hot := false, hotBelow := none }).guardPost p false).judgeZero p).guardFree p)
    else .next s
  | .die d =>
    let i := Die.idx d
    let o := s.grd.dies[i]
    if o.cut && o.below.isSome then
      let s := { s with grd := { s.grd with dies := s.grd.dies.set i { o with cut := false, below := none } } }.note 51 none 3 (.dieTemp d)
      .next <| s.forPorts (allPorts.filter fun p => dieHits d p) fun s p =>
        let s := s.onGrd p fun g => { g with dieHot := s.dieCut p }
        (if s.works p && !(s.port p).quiet then s.judgeZero p else s).guardFree p
    else .next s

/-- GUARD_NOTICE: a hand takes a dowser or thermal change (R117, R124, R165, R168, R174). -/
def execGuardNotice (h : Hand) (p : Port) (s : State) : Res State :=
  s.handStep h (some p) (fun e => decide (e = .guard)) fun _ s =>
    let due := (s.port p).grd.notice
    let s := s.onGrd p fun g => { g with notice := false }
    if !s.bmcRuns p then s else
    let s :=
      if !due then s
      else if (s.port p).tc.isSrc then s.offerDue p
      else if (s.port p).pd.snk = .ready then s.evaluate p
      else s.onPort p fun x => { x with pd := { x.pd with sinkDue := true } }
    s.alertTemp p (decide (s.factor p < 100))

end Sys2Proof.Machine
end

