-- ==== Sys2Proof/Machine/Metering.lean ====
section
/-! DEFINITION. Metering, background calibration, PREF_IN and the tally writer (R303 to R330). -/

namespace Sys2Proof.Machine

def State.onMet (s : State) (p : Port) (f : Met → Met) : State := s.onPort p fun x => { x with met := f x.met }

/-! ## Tally requests (R319) -/

/-- A request of a kind that does not wait yet; without tallies there is none. A warning within 10 s of the last warning record is not
recorded. -/
def State.askTally (s : State) (k : TallyKind) : State :=
  let soon := match s.mtr.lastWarn with | some t => decide (s.dev.aon < t + 10000000) | none => false
  if !s.alm.cfg.tallyEn || s.mtr.reqs.contains k || (decide (k = .warning) && soon) then s
  else { s with mtr := { s.mtr with reqs := s.mtr.reqs ++ [k] } }

/-- The most urgent kind that waits: warning, stop, billing clear, interval. -/
def urgent (l : List TallyKind) : Option TallyKind := [TallyKind.warning, .stop, .clear, .interval].find? fun k => l.contains k

/-! ## The metering sample (R304, R306, R315, R330) -/

/-- A metering sample as readings: voltages in 10 µV units, current in 10 µA units, power in 100 µW units, the energy of its millisecond
in 2^-32 mWh, and whether it clipped. -/
structure Reading where
  vbc  : Int
  vbs  : Int
  i    : Int
  p    : Int
  e    : Int
  clip : Bool
  deriving DecidableEq, Repr

/-- A sample read with a SHUNT in µΩ and the correction k: a clipped one is metered at its clipped value (R304, R305, R313, R315). -/
def readSample (x : MetSample) (shunt : Nat) (f : Pref) : Reading :=
  let sh := f.scale x.sh
  let c := clipSh shunt sh
  let prod := if c = sh then f.scale (f.scale x.prod) else f.scale x.vbc * c
  ⟨f.scale x.vbc, f.scale x.vbs, (c * 100).tdiv shunt, prod.tdiv (10000 * shunt), (prod * 2 ^ 32).tdiv (360000000000 * shunt), decide (c ≠ sh)⟩

/-- A condition of R306 fails for the port: initial calibration is not done, background calibration does not run (before the ports are
enabled, in rest, and on a die in D2DF), a modulator is stale, the crystal has failed, or PREFF is in force (R306, R311, R314). -/
def State.noAcc (s : State) (p : Port) : Bool :=
  !s.mtr.calibrated || !s.running || s.lost p || s.clk.xfail || (s.port p).met.mods.toList.any (·.stale) || (s.prefOf p).bad

/-- 2^48 and 2^32 units with their 32-bit fractions: where the counters saturate. -/
def satE (v : Nat) : Nat := min v (2 ^ 80 - 1)
def satC (v : Nat) : Nat := min v (2 ^ 64 - 1)

/-- Charge of one millisecond of |i| in 10 µA units, in 2^-32 mAh. -/
def chargeOf (i : Nat) : Nat := i * 2 ^ 32 / 360000000

/-- The counters after one sample (R315). -/
def Met.count (m : Met) (x : Reading) (on : Bool) : Met :=
  { m with
    eOut := if 0 < x.e then satE (m.eOut + x.e.toNat) else m.eOut
    eIn := if x.e < 0 then satE (m.eIn + (-x.e).toNat) else m.eIn
    cOut := if 0 < x.i then satC (m.cOut + chargeOf x.i.natAbs) else m.cOut
    cIn := if x.i < 0 then satC (m.cIn + chargeOf x.i.natAbs) else m.cIn
    onMs := if on then min (m.onMs + 1) (4294967295999) else m.onMs }

/-- The averaging window after one sample: at its end the readings are the means (R304, R330). -/
def Met.window (m : Met) (x : Reading) (last noacc : Bool) : Met :=
  let a := { m with
    sVbc := m.sVbc + x.vbc, sVbs := m.sVbs + x.vbs, sI := m.sI + x.i, sP := m.sP + x.p
    clipWin := m.clipWin || x.clip, rangeF := m.rangeF || x.clip, noaccF := m.noaccF || noacc
    evt := if x.clip then setBit m.evt 0 else m.evt }
  if last then { a with vbc := a.sVbc / 100, vbs := a.sVbs / 100, i := a.sI / 100, p := a.sP / 100
                        sVbc := 0, sVbs := 0, sI := 0, sP := 0, range := a.clipWin, clipWin := false }
  else a

/-- The billing counters and their fractions at 0, EPOCH one higher, and CLEAR (R317). -/
def Met.bill (m : Met) : Met :=
  { m with eOut := 0, eIn := 0, cOut := 0, cIn := 0, onMs := 0, contracts := 0, trips := 0
           epoch := (m.epoch + 1) % 65536, evt := setBit m.evt 2 }

/-! ## Tally records (R318) -/

/-- PFLAGS as the next record carries them. -/
def PortState.pflags (x : PortState) : Nat :=
  bitAt 0 (x.tc.st ≠ .disabled) + bitAt 1 x.met.noaccF + bitAt 2 x.met.rangeF

/-- A port's entry of 40 bytes. -/
def PortState.tallyEntry (x : PortState) : List Byte :=
  let m := x.met
  beBytes 6 (m.eOut / 2 ^ 32) ++ beBytes 2 (m.eOut / 2 ^ 16 % 2 ^ 16) ++
  beBytes 6 (m.eIn / 2 ^ 32) ++ beBytes 2 (m.eIn / 2 ^ 16 % 2 ^ 16) ++
  beBytes 4 (m.cOut / 2 ^ 32) ++ beBytes 4 (m.cIn / 2 ^ 32) ++ beBytes 4 (m.onMs / 1000) ++
  beBytes 4 m.contracts ++ beBytes 4 m.trips ++ beBytes 2 m.epoch ++ beBytes 2 x.pflags

def TallyKind.code : TallyKind → Nat
  | .interval => 0 | .warning => 1 | .stop => 2 | .clear => 3

/-- Bytes 0x000 to 0x7FB of a record. -/
def State.tallyBody (s : State) (j : TallyJob) : List Byte :=
  beBytes 4 0x54414C59 ++ beBytes 4 j.seq ++ beBytes 1 j.kind.code ++ beBytes 1 1 ++ beBytes 2 48 ++
  beBytes 4 ((s.dev.aon - s.dev.relUs) / 1000000) ++ beBytes 4 (if s.alm.defaults then 0 else s.alm.seq) ++
  beBytes 2 (s.lnk.node.getD 0xFFFF) ++ beBytes 2 s.alm.cfg.interval ++ beBytes 4 s.mtr.starts ++ beBytes 36 0 ++
  (s.ports.toList.flatMap PortState.tallyEntry) ++ beBytes 60 0

/-- A whole record of 2,048 bytes. -/
def State.tallyRecord (s : State) (j : TallyJob) : List Byte :=
  let b := s.tallyBody j
  b ++ wordBytes (crc32c b)

/-- The record enters slot 0 of tally staging; the older ones move up one slot (R325). -/
def stagePush (l : List Host.Cell) (bytes : List Byte) : List Host.Cell :=
  memOf zeroByte 0 bytes ++ ((l.filter fun c => decide (c.1 < 7 * 2048)).map fun c => (c.1 + 2048, c.2))

/-- The snapshot of a record that has started, taken after a sample (R319). -/
def State.tallySnap (s : State) : State :=
  match s.mtr.job with
  | some j =>
    if j.snap then s else
    let r := s.tallyRecord j
    { (s.onPorts fun x => { x with met := { x.met with noaccF := false, rangeF := false } }) with
      mtr := { s.mtr with staging := stagePush s.mtr.staging r, job := some { j with snap := true } } }
  | none => s

/-- METERING_SAMPLE: one 1 kHz sample of every port, P00 first (R315). Billing clears that wait are applied (R317), and a record that
has started takes its snapshot (R319). Ports of a lost die are frozen, but that PFLAGS shows their lost accuracy (R48, R311, R318). -/
def execMeteringSample (m : List MetSample) (s : State) : Res State :=
  if !s.running then .next s else
  let last := decide (s.mtr.nSamp = 99)
  let s := s.forPorts allPorts fun s p =>
    if s.lost p then s.onMet p fun m => { m with noaccF := true } else
    let x := readSample (m.getD p.val ⟨0, 0, 0, 0⟩) (s.port p).cfg.shunt (s.prefOf p)
    let na := s.noAcc p
    s.onPort p fun y => { y with met := (y.met.count x (y.slc.st = .on ∨ y.slc.st = .limit)).window x last na }
  let s := { (s.forPorts s.mtr.clears fun s p => s.onMet p Met.bill) with
    mtr := { s.mtr with clears := [], nSamp := if last then 0 else s.mtr.nSamp + 1 } }
  .next s.tallySnap

/-- MTR_BCLR: with KEY 0xC1 a billing clear of PORT waits for the next sample, and asks for a record (R317). -/
def State.wrBclr (s : State) (w : Word) : State :=
  if slice w 24 8 = 0xC1 then
    if h : slice w 0 6 < 48 then
      let p : Port := ⟨slice w 0 6, h⟩
      { s with mtr := { s.mtr with clears := if s.mtr.clears.contains p then s.mtr.clears else s.mtr.clears ++ [p] } }.askTally .clear
    else s
  else s

/-- BILLING_CLEAR: a write of MTR_BCLR (R317). -/
def execBillingClear (w : Word) (s : State) : Res State := s.hostWrite 0x608 w fun s => s.wrBclr w

/-! ## MET registers (R329, R330) -/

/-- A signed value as a word. -/
def intWord (v : Int) : Word := BitVec.ofInt 32 v

/-- Words 0xA4 to 0xB3 of a port. -/
def PortState.metWords (x : PortState) : List Word :=
  let m := x.met
  [intWord m.vbc, intWord m.vbs, intWord m.i, intWord m.p,
   BitVec.ofNat 32 (m.eOut / 2 ^ 64), BitVec.ofNat 32 (m.eOut / 2 ^ 32), BitVec.ofNat 32 (m.eIn / 2 ^ 64), BitVec.ofNat 32 (m.eIn / 2 ^ 32),
   BitVec.ofNat 32 (m.cOut / 2 ^ 32), BitVec.ofNat 32 (m.cIn / 2 ^ 32), BitVec.ofNat 32 (m.onMs / 1000),
   BitVec.ofNat 32 m.contracts, BitVec.ofNat 32 m.trips, BitVec.ofNat 32 x.pflags, m.calCnt, m.rejCnt]

def Target.idx : Target → Fin 4
  | .twm => 0 | .twa => 1 | .twb => 2 | .twc => 3

/-- The copy that a read of MET_STAT latches for the target that made it (R329). -/
def State.latchMet (s : State) (t : Target) (p : Port) : State :=
  { s with twi := { s.twi with metCopy := s.twi.metCopy.set (Target.idx t) (some (p, (s.port p).metWords)) } }

/-- MET_STAT_READ. -/
def execMetStatRead (t : Target) (p : Port) (s : State) : Res State := if s.served then .next (s.latchMet t p) else .next s

/-! ## Calibration (R307 to R310) -/

def State.onGrp (s : State) (g : Group) (f : Grp → Grp) : State := { s with mtr := { s.mtr with grp := s.mtr.grp.set g (f s.mtr.grp[g]) } }

/-- The port of a slot of a group, and the modulator (R308). -/
def slotPort (g : Group) (slot : Nat) : Port := ⟨(8 * g.val + slot / 3) % 48, Nat.mod_lt _ (by decide)⟩
def slotMod (slot : Nat) : Fin 3 := ⟨slot % 3, Nat.mod_lt _ (by decide)⟩

/-- The sequencer of a group runs: after the ports are enabled, on a die that is not lost (R308, R311). -/
def State.calRuns (s : State) (g : Group) : Bool := s.running && !s.lost (slotPort g 0)

def State.onMod (s : State) (p : Port) (i : Fin 3) (f : Modl → Modl) : State :=
  s.onMet p fun m => { m with mods := m.mods.set i (f m.mods[i]) }

/-- CAL_SLOT_START: the group's slot begins; under RELF slots 0 to 23 are skipped (R308, R310). -/
def execCalSlotStart (g : Group) (s : State) : Res State :=
  let c := s.mtr.grp[g]
  if !s.calRuns g || c.beside then .next s
  else if c.relf && decide (c.slot < 24) then .next (s.onGrp g fun c => { c with slot := c.slot + 1 })
  else .next (s.onGrp g fun c => { c with beside := true })

/-- RELIEF_SWITCH_IN: at 4 ms the relief modulator stands in (R308). -/
def execReliefSwitchIn (g : Group) (s : State) : Res State :=
  let c := s.mtr.grp[g]
  if s.calRuns g && c.beside && !c.standIn && decide (c.slot < 24) then
    .next ((s.onGrp g fun c => { c with standIn := true }).onMod (slotPort g c.slot) (slotMod c.slot) fun m => { m with aside := true })
  else .next s

/-- Two results lie within 0.05 % of full scale of each other; ppm. -/
def calNear (a b : Int × Int) : Bool := decide ((a.1 - b.1).natAbs ≤ 500) && decide ((a.2 - b.2).natAbs ≤ 500)

/-- CAL_RESULT: the working modulator's new offset and gain, in ppm of full scale (R309, R310). -/
def execCalResult (g : Group) (offset gain : Int) (s : State) : Res State :=
  let c := s.mtr.grp[g]
  if !(s.calRuns g && c.standIn) then .next s else
  let p := slotPort g c.slot
  let i := slotMod c.slot
  let m := (s.port p).met.mods[i]
  let ok := calNear (offset, gain) (m.off, m.gain) || (match m.rej with | some r => calNear (offset, gain) r | none => false)
  if ok then
    .next ((s.onMod p i fun m => { m with off := offset, gain := gain, rej := none, stale := false }).onMet p fun m =>
      { m with calCnt := satInc m.calCnt })
  else
    .next ((((s.onMod p i fun m => { m with rej := some (offset, gain) }).onMet p fun m =>
      { m with rejCnt := satInc m.rejCnt, evt := setBit m.evt 1 }).mtrEvt 5).mtrCnt 4)

/-- RELIEF_SWITCH_BACK: at 40 ms the working modulator takes its place again (R308). -/
def execReliefSwitchBack (g : Group) (s : State) : Res State :=
  let c := s.mtr.grp[g]
  if s.calRuns g && c.standIn then
    .next ((s.onGrp g fun c => { c with standIn := false, beside := false, slot := c.slot + 1 }).onMod
      (slotPort g c.slot) (slotMod c.slot) fun m => { m with aside := false })
  else .next s

/-- RELIEF_CALIBRATION: slot 24 ends; every failure is reported and counted (R308, R310). -/
def execReliefCalibration (g : Group) (pass : Bool) (s : State) : Res State :=
  let c := s.mtr.grp[g]
  if s.calRuns g && c.beside && decide (c.slot = 24) then
    let s := s.onGrp g fun c => { c with slot := 0, beside := false, relf := !pass, cycles := c.cycles + 1 }
    .next (if pass then s else (s.mtrEvt 4).mtrCnt 5)
  else .next s

/-- CALSTALE: a modulator has had no accepted calibration for 4 s, on a lost die too (R310). -/
def execCalstale (p : Port) (m : Modulator) (s : State) : Res State :=
  let i : Fin 3 := match m with | .vbs => 0 | .vbc => 1 | .i => 2
  if s.running then .next (s.onMod p i fun m => { m with stale := true }) else .next s

/-! ## PREF_IN (R313, R314) -/

/-- A measurement of PREF_IN in µV: the first one after start-up applies in full, each later one by at most 50 ppm; outside 2.5 V ± 0.5 %
the correction is held. -/
def Pref.measure (f : Pref) (uv : Nat) : Pref :=
  if decide (2487500 ≤ uv) && decide (uv ≤ 2512500) then
    let k : Int := (2500000 - (uv : Int)) * 1000000 / uv
    let f := if f.bad then { f with good := f.good + 1, bad := decide (f.good + 1 < 3) } else f
    if f.bad then f
    else { f with good := 0, ppm := if f.first then k else f.ppm + clampI (k - f.ppm) (-50) 50, first := false }
  else { f with bad := true, good := 0, first := false }

/-- A measurement on a die; one outside the window is reported and counted (R314). -/
def State.prefSee (s : State) (d : WDie) (uv : Nat) : State :=
  let o := match d with | .w0 => s.mtr.pref0 | .w1 => s.mtr.pref1
  let n := o.measure uv
  let s := match d with
    | .w0 => { s with mtr := { s.mtr with pref0 := n } }
    | .w1 => { s with mtr := { s.mtr with pref1 := n } }
  if decide (2487500 ≤ uv) && decide (uv ≤ 2512500) then s else (s.mtrEvt 3).mtrCnt 6

/-- The lowest group of a die, whose relief modulator measures PREF_IN (R313). -/
def prefGroup (d : WDie) : Group := match d with | .w0 => 0 | .w1 => 3

/-- PREF_MEASURE: in slot 24 of every tenth cycle of the die's lowest group, if PREF_IN is used (R313). -/
def execPrefMeasure (d : WDie) (uv : Nat) (s : State) : Res State :=
  let c := s.mtr.grp[prefGroup d]
  if s.alm.cfg.pref && s.calRuns (prefGroup d) && c.beside && decide (c.slot = 24) && decide (c.cycles % 10 = 9) then .next (s.prefSee d uv)
  else .next s

/-! ## The hold-up check (R326, R327) -/

/-- Sum of (2 x - (n - 1)) y over the samples, x counted from 0. -/
def lineS (l : List Nat) : Int :=
  (l.zipIdx.map fun e => (2 * (e.2 : Int) - (l.length - 1)) * (e.1 : Int)).foldl (· + ·) 0
/-- Sum of the squares of 2 x - (n - 1). -/
def lineD (n : Nat) : Int := (n * (n * n - 1) / 3 : Nat)

/-- V at the capacitor in µV: the fitted line at the newest sample. -/
def Mtr.holdUv (m : Mtr) : Nat :=
  let n := m.holdMv.length
  if n = 0 then 0
  else
    let mean : Int := (m.holdMv.foldl (· + ·) 0 * 1000 / n : Nat)
    if n = 1 then mean.toNat else (mean + lineS m.holdMv * (n - 1) * 1000 / lineD n).toNat

/-- Fall of the fitted line in µV per ms; 0 while it does not fall. -/
def Mtr.holdFall (m : Mtr) : Nat :=
  let n := m.holdMv.length
  if n < 2 then 0 else (-(lineS m.holdMv * 20000 / lineD n)).toNat

/-- v² - vmin² in µV², 0 where v is not above vmin. -/
def State.holdSq (s : State) : Nat :=
  let v := s.mtr.holdUv
  let m := 10000 * s.alm.cfg.holdVmin
  v * v - m * m

/-- e_avl in mJ. -/
def State.eAvl (s : State) : Nat := s.alm.cfg.holdC * s.holdSq / 200000000000000

/-- t_w in µs. -/
def State.tWrite (s : State) : Nat := 8 * (match s.alm.sfdp with | some f => f.ppMaxUs | none => 0) + 1000

/-- e_avl is at least twice p_est over t_w: power in µW, times in µs. -/
def State.holdOk (s : State) : Bool :=
  let p := max (s.alm.cfg.holdC * s.mtr.holdUv * s.mtr.holdFall / 100000000) 2000000
  decide (2 * p * s.tWrite * 1000000 ≤ 5 * s.alm.cfg.holdC * s.holdSq)

/-- HOLD_SNS_SAMPLE: the capacitor's voltage in mV (R326). A sample from a wellhead that is not heard does not arrive. -/
def execHoldSnsSample (mv : Nat) (s : State) : Res State :=
  if s.heard then
    .next { s with mtr := { s.mtr with holdMv := (s.mtr.holdMv ++ [mv]).drop (s.mtr.holdMv.length + 1 - 11) } }
  else .next s

/-! ## The tally writer (R319 to R324) -/

/-- Record slots of the region. -/
def State.slots (s : State) : Nat := 32 * s.alm.cfg.size

/-- The erase in progress lets a record go first: it can be suspended, and the slot to write is in another block (R322). -/
def State.eraseYields (s : State) : Bool :=
  match s.mtr.erase with
  | none => true
  | some b => (match s.alm.sfdp with | some f => f.eraseSuspend | none => false) && decide (s.alm.talPtr / 32 ≠ b)

/-- An operation of the tally writer at the flash controller (R41, R428). -/
def State.flashTally (s : State) : State := { s with alm := { s.alm with flashPtr := flashAfter 1 } }

/-- The hold-up check, and the record if it passes; a warning or stop that fails is dropped, the others are checked again (R327). -/
def State.tryRecord (s : State) (k : TallyKind) : State :=
  if s.holdOk then
    { s with mtr := { s.mtr with
        job := some ⟨k, false, 0, s.mtr.tseq + 1⟩, reqs := [], recheck := false, suspended := s.mtr.erase.isSome
        lastWarn := if k = .warning then some s.dev.aon else s.mtr.lastWarn } }
  else
    let l := s.mtr.reqs.filter fun r => decide (r = .interval) || decide (r = .clear)
    ({ s with mtr := { s.mtr with reqs := l, recheck := !l.isEmpty } }.mtrEvt 1).mtrCnt 1

/-- The writer may start a record: not before the erase of R324 is done. -/
def State.writerFree (s : State) : Bool := s.alm.cfg.tallyEn && s.mtr.firstDone && s.mtr.job.isNone && s.eraseYields && s.served

/-- TALLY_RECORD_START: the writer takes the requests that wait (R319, R322, R327). -/
def execTallyRecordStart (s : State) : Res State :=
  match urgent s.mtr.reqs with
  | none => .next s
  | some k =>
    if s.writerFree && (!s.mtr.recheck || decide (k = .warning) || decide (k = .stop)) then .next (s.tryRecord k) else .next s

/-- HOLDUP_RECHECK: a request that failed its check is checked again after 1 s. -/
def execHoldupRecheck (s : State) : Res State :=
  match urgent s.mtr.reqs with
  | none => .next s
  | some k => if s.writerFree && s.mtr.recheck then .next (s.tryRecord k) else .next s

/-- TALLY_INTERVAL: INTERVAL minutes have passed (R319). -/
def execTallyInterval (s : State) : Res State :=
  if s.running && decide (0 < s.alm.cfg.interval) then .next (s.askTally .interval) else .next s

/-- PAGE_PROGRAM_DONE: one of the eight page programs ends (R320). -/
def execPageProgramDone (s : State) : Res State :=
  match s.mtr.job with
  | some j =>
    if j.snap && decide (j.pages < 8) then
      .next { s with mtr := { s.mtr with job := some { j with pages := j.pages + 1 } } }.flashTally
    else .next s
  | none => .next s

/-- The slot written is behind the writer; after the first slot of a block the next block is erased, at once or after the erase that is
still open (R321, R322). -/
def State.slotDone (s : State) : State :=
  let ptr := s.alm.talPtr
  let m := { s.mtr with job := none, suspended := false }
  { s with
    alm := { s.alm with talPtr := (ptr + 1) % max s.slots 1 }
    mtr :=
      if ptr % 32 ≠ 0 then m
      else
        let b := (ptr / 32 + 1) % max s.alm.cfg.size 1
        if m.erase.isNone then { m with erase := some b } else { m with eraseDue := some b } }

/-- TALLY_READBACK: the record compares, or the request goes into the next slot (R320). -/
def execTallyReadback (ok : Bool) (s : State) : Res State :=
  match s.mtr.job with
  | some j =>
    if decide (j.pages = 8) then
      let s := s.flashTally
      if ok then .next (({ s.slotDone with mtr := { s.slotDone.mtr with tseq := j.seq } }.mtrEvt 0).mtrCnt 0)
      else .next (({ s.slotDone with mtr := { s.slotDone.mtr with reqs := j.kind :: s.mtr.reqs.filter (fun k => decide (k ≠ j.kind)) } }.mtrEvt 2).mtrCnt 2)
    else .next s
  | none => .next s

/-- BLOCK_ERASE_DONE: counted; the erase that start-up began gives the writer its first slot when the one at ALM_TAL_PTR is not blank
(R321, R324). -/
def execBlockEraseDone (s : State) : Res State :=
  match s.mtr.erase with
  | some b =>
    if s.mtr.suspended then .next s else
    let s' := { s with mtr := { s.mtr with erase := s.mtr.eraseDue, eraseDue := none, firstDone := true, blankPtr := true } }.flashTally
    let s' := if !s.mtr.firstDone && !s.mtr.blankPtr then { s' with alm := { s'.alm with talPtr := 32 * b } } else s'
    .next (s'.mtrCnt 3)
  | none => .next s

/-! ## Counter restore (R318, R323) -/

/-- The bytes of a slot of the region; slots not listed are blank. -/
def slotBytes (l : List TallySlot) (i : Nat) : List Byte :=
  match l.find? (fun t => decide (t.slot = i)) with | some t => t.bytes | none => List.replicate 2048 0xFF#8

def hasMagic (b : List Byte) : Bool := fieldAt b 0 4 = 0x54414C59
def seqOf (b : List Byte) : Nat := fieldAt b 4 4

/-- The record passes its check word. -/
def recordOk (b : List Byte) : Bool :=
  hasMagic b && decide (b.length = 2048) && decide ((crc32c (b.take 0x7FC)).toNat = fieldAt b 0x7FC 4)

/-- The slot of a list with MAGIC and the highest SEQ; of two with one SEQ, as a failed record and the one written after it have, the later
(R85, R323). -/
def newest (l : List TallySlot) (c : List Nat) : Option Nat :=
  c.foldl (fun best i =>
    let b := slotBytes l i
    if !hasMagic b then best else
    match best with
    | none => some i
    | some j => if seqOf (slotBytes l j) ≤ seqOf b then some i else best) none

/-- The newest record found by the scan: its slot (R323 steps 1 and 2). -/
def newestSlot (l : List TallySlot) (size : Nat) : Option Nat :=
  match newest l ((List.range size).map (32 * ·)) with
  | none => none
  | some i =>
    let b := i / 32
    newest l (((List.range 32).map (32 * b + ·)) ++ (List.range 32).map (32 * ((b + 1) % max size 1) + ·))

/-- Backwards from a slot to the first whole record that passes (R323 step 3). -/
def lastGood (l : List TallySlot) (n : Nat) : Nat → Nat → Option Nat
  | 0, _ => none
  | k + 1, i => if recordOk (slotBytes l i) then some i else lastGood l n k ((i + n - 1) % max n 1)

/-- A port's counters from its entry of a record (R318). -/
def Met.restore (m : Met) (e : List Byte) : Met :=
  { m with
    eOut := fieldAt e 0 6 * 2 ^ 32 + fieldAt e 6 2 * 2 ^ 16, eIn := fieldAt e 8 6 * 2 ^ 32 + fieldAt e 14 2 * 2 ^ 16
    cOut := fieldAt e 0x10 4 * 2 ^ 32, cIn := fieldAt e 0x14 4 * 2 ^ 32, onMs := 1000 * fieldAt e 0x18 4
    contracts := fieldAt e 0x1C 4, trips := fieldAt e 0x20 4, epoch := fieldAt e 0x24 2 }

/-- The billing counters at 0. -/
def Met.zero (m : Met) : Met :=
  { m with eOut := 0, eIn := 0, cOut := 0, cIn := 0, onMs := 0, contracts := 0, trips := 0, epoch := 0 }

/-- The counter-restore step with the region's slots (R54, R323). -/
def State.restoreTally (s : State) (l : List TallySlot) : State :=
  let s := s.onPorts fun x => { x with met := x.met.zero }
  if !s.alm.cfg.tallyEn then s else
  let n := s.slots
  match newestSlot l s.alm.cfg.size with
  | none => { s with alm := { s.alm with talPtr := 0 }, mtr := { s.mtr with tseq := 0, starts := 1, blankPtr := (slotBytes l 0).all (· == 0xFF#8) } }
  | some i =>
    let ptr := (i + 1) % max n 1
    let s := { s with alm := { s.alm with talPtr := ptr }
                      mtr := { s.mtr with tseq := 0, starts := 1, blankPtr := (slotBytes l ptr).all (· == 0xFF#8) } }
    match lastGood l n n i with
    | none => s
    | some j =>
      let b := slotBytes l j
      { (s.forPorts allPorts fun s p => s.onMet p fun m => m.restore (bytesAt b (0x40 + 40 * p.val) 40)) with
        mtr := { s.mtr with tseq := seqOf b, starts := fieldAt b 0x18 4 + 1 } }

/-- Tallies begin with an erase of the block after ALM_TAL_PTR's (R324). -/
def State.firstErase (s : State) : State :=
  if s.alm.cfg.tallyEn then
    { s with mtr := { s.mtr with erase := some ((s.alm.talPtr / 32 + 1) % max s.alm.cfg.size 1), firstDone := false } }
  else s

end Sys2Proof.Machine
end

