-- ==== Sys2Proof/Machine/SupOps.lean ====
section
/-! DEFINITION. What the input supervisor does whatever command drives it: its registers as the core keeps them, PFW_N, the end of
rest, WRN, the crier's requests, hand-over and return (R59, R61, R364 to R375). -/

namespace Sys2Proof.Machine

/-! ## SUP registers that the core die keeps (R375) -/

def SupState.code : SupState → Nat
  | .normal => 0 | .hoRun => 1 | .reserve => 2 | .rtnRun => 3

/-- IN_A as the conversion of a moment reads it, one each 10 µs: as the rows told it in that conversion, else free (R362, assumption 3). -/
def Sup.readA (u : Sup) (us : Nat) : Nat := if us / 10 = u.aAt then u.inA else (Config.vinTen false (us / 10)).val
/-- IN_B as the conversion of a moment reads it. -/
def Sup.readB (u : Sup) (us : Nat) : Nat := if us / 10 = u.bAt then u.inB else (Config.vinTen true (us / 10)).val

/-- SUP_STAT without FITTED, SUP_VIN and SUP_HOTIME of a supervisor at a moment. -/
def Sup.words (u : Sup) (us : Nat) : List Word :=
  let q := match u.qual with | some t => satN 16 ((us - t) / 100000) | none => 0
  [BitVec.ofNat 32 (field 16 16 q + bitAt 10 u.gb + bitAt 9 u.ga + bitAt 7 u.bow + bitAt 6 u.rsvLow + bitAt 5 u.qual.isSome +
     bitAt 4 u.wrn + u.st.code),
   BitVec.ofNat 32 (field 16 16 (u.readB us) + field 0 16 (u.readA us)), BitVec.ofNat 32 (field 16 16 u.hoUs + field 0 16 u.rtnUs)]

/-- The core hears W0 no more: the words received last stay (R375). -/
def State.supFreeze (s : State) : State :=
  if s.heard then { s with sup := { s.sup with held := some (s.sup.words s.sup.now) } } else s

/-- PFW_N is asserted (R371). -/
def Sup.pfw (u : Sup) : Bool := u.wrn || u.st ≠ .normal

/-- CLK_WAKE's bit of a wake source, and the two-wire target that it names. -/
def WakeSource.bit : WakeSource → Nat × Option Target
  | .attach _ => (0, none)
  | .twm => (1, some .twm) | .twa => (1, some .twa) | .twb => (1, some .twb) | .twc => (1, some .twc)
  | .supervisor => (2, none)
  | .link _ => (3, none)
  | .aonTimer => (4, none)
  | .brownOut => (5, none)

/-- The event is a wake source here: of the ports the enabled ones, of the metering targets those that AUX_EN enables, and what the supervisor
sees while W0 is heard (R59, R375). -/
def State.canWake (s : State) (src : WakeSource) : Bool :=
  match src with
  | .attach p => (s.port p).live && !(s.port p).quiet && !s.lost p
  | .supervisor => s.heard
  | .brownOut => s.heard
  | .twa => s.alm.cfg.auxEn.testBit 0
  | .twb => s.alm.cfg.auxEn.testBit 1
  | .twc => s.alm.cfg.auxEn.testBit 2
  | _ => true

/-- A wake source ends rest (R59, R61): CLK_WAKE names it, and a burst on LKW stands until a frame comes there (R361). -/
def State.wake (s : State) (src : WakeSource) : State :=
  if s.dev.phase = .rest ∧ s.canWake src then
    let (i, t) := WakeSource.bit src
    let s := { s with dev := { s.dev with phase := .wakePll }, clk := { s.clk with wake := 1#32 <<< i } }
    let s := match src with | .link false => { s with lnk := { s.lnk with woken := true } } | _ => s
    match t with | some t => s.twiCnt t 4 | none => s
  else s

/-! ## Conditions, hand-over and return -/

def State.onSup (s : State) (f : Sup → Sup) : State := { s with sup := f s.sup }

/-- The supervisor works, so VSB is there (R32). -/
def State.seeVsb (s : State) : State := { s with dev := { s.dev with vsb := true } }

/-- IN_A as the comparators see it now: above V_HO the HO request clears (R364). -/
def State.seeA (s : State) (v : Nat) : State :=
  s.seeVsb.onSup fun u => { u with inA := v, aAt := u.now / 10, hoReq := u.hoReq && decide (v ≤ u.cfg.vHo), hoRefd := u.hoRefd && decide (v ≤ u.cfg.vHo) }
/-- IN_B as the comparators see it now. -/
def State.seeB (s : State) (v : Nat) : State := s.seeVsb.onSup fun u => { u with inB := v, bAt := u.now / 10 }

/-- A warning tally is asked for, if the core hears of it (R319, R371). -/
def State.warnTally (s : State) : State := if s.heard then s.askTally .warning else s

/-- WRN sets: PFW_N asserts, a warning tally is asked for, and rest ends (R58, R59, R364, R371). -/
def State.setWrn (s : State) : State :=
  if s.sup.wrn then s
  else ((((s.onSup fun u => { u with wrn := true, dipSent := false }).supEvt 0).supCnt 0).warnTally).wake .supervisor

/-- The crier asks for a Source Input Change Alert for this (R372), in rest and its exit too; before the ports are enabled no hand has one to send. -/
def State.crierAsk (s : State) (c : InputCause) : State :=
  if s.crierOn then
    let s := s.supCnt 7
    if s.started then s.post 48 none 3 (.crier c) else s
  else s

/-- WRN clears; an Alert follows if one was sent for it (R372). -/
def State.clearWrn (s : State) : State :=
  let sent := s.sup.dipSent
  let s := (s.onSup fun u => { u with wrn := false, dipSent := false }).supEvt 1
  if sent then s.crierAsk .restored else s

/-- A hand-over starts, or is refused once for this HO request (R366, R367). -/
def State.tryHandOver (s : State) : State :=
  let u := s.sup
  if u.st ≠ .normal ∨ !u.hoReq then s
  else if u.cfg.fitted && !u.rsvLow then
    (s.onSup fun u => { u with st := .hoRun, gb := true, gbOff := none, hoReq := false, hoRefd := false, qual := none }).wake .supervisor
  else if u.hoRefd then s
  else ((s.onSup fun u => { u with hoRefd := true }).supEvt 4).supCnt 3

/-- The return starts (R368). -/
def State.startReturn (s : State) : State :=
  (s.onSup fun u => { u with st := .rtnRun, ga := true, gaOff := none, qual := none }).wake .supervisor

/-- An emergency return: in RESERVE with RSV_LOW set and IN_A above V_HO (R368). -/
def State.tryEmergency (s : State) : State :=
  let u := s.sup
  if decide (u.st = .reserve) && u.rsvLow && decide (u.cfg.vHo < u.inA) then ((s.startReturn).supEvt 6).supCnt 5 else s

/-- A gate check ended on its time limit (R366, R368). -/
def State.gateSlow (s : State) (slow : Bool) : State := if slow then (s.supEvt 5).supCnt 4 else s

/-- New POWER values: QUAL and the HO request end when the input as last seen stands on the other side of its new threshold; any other
crossing that the values imply is a fresh one (R87, R364). -/
def Sup.take (u : Sup) (c : PowerCfg) : Sup :=
  { u with cfg := c, qual := if c.vRtn < u.inA then u.qual else none
           hoReq := u.hoReq && decide (u.inA ≤ c.vHo), hoRefd := u.hoRefd && decide (u.inA ≤ c.vHo) }

/-- POWER values that waited take effect (R87). -/
def Sup.settle (u : Sup) : Sup := match u.cfgPend with | some c => { u.take c with cfgPend := none } | none => u

end Sys2Proof.Machine
end

