-- ==== Sys2Proof/Machine/Link.lean ====
section
/-! DEFINITION. The cistern's profile and loans, and the commons link (R331 to R361). -/

namespace Sys2Proof.Machine

/-! ## The profile (R333, R354, R372) -/

/-- Loans on the reserve: BORROWED goes to 0, a LAPSE leaves for each borrowed loan, and open requests, and those that wait to be relayed, are
given up (R354). -/
def State.dropBorrowed (s : State) : State :=
  let s := s.refuseRelays fun _ => true
  (List.finRange 32).foldl (fun s i =>
    let l := s.loan i
    if l.valid && !l.lent then
      (((s.dropLoan i).sendLapse l.east l.id l.amount l.ends).cisEvt 4).cisCnt 4
    else s) { s with cis := { s.cis with reqW := none, reqE := none, short := 0, rest := none } }

/-- The profile replaced in one grant to the crier; a deficit is shed at once; source ports offer afresh (R165, R332, R333, R428). -/
def State.setProfile (s : State) (reserve : Bool) : State :=
  if s.cis.reserve = reserve then s else
  let s := s.ledger fun s =>
    let s := { s with cis := { s.cis with reserve := reserve } }
    if reserve then s.dropBorrowed else s
  (s.cisGrant 17).forPorts (allPorts.filter fun p => s.works p && (s.port p).tc.isSrc) fun s p => s.offerDue p

/-- PROFILE_CHANGE: the crier's oldest report of a hand-over or a return is acted on, and it asks for an Alert (R333, R372). Before the
apply step there is no profile to replace (R56). While W0 is in D2DF the reserve profile stays (R46). -/
def execProfileChange (s : State) : Res State :=
  match s.sup.reports with
  | [] => .next s
  | ho :: t =>
    if s.crierOn && s.served then
      let s := { s with sup := { s.sup with reports := t } }.note 48 none 3 .sup
      .next ((if s.cisOn then s.setProfile ho else s).crierAsk (if ho then .reserve else .normal))
    else .next s

/-- Words 0x0404 to 0x040D (R331). -/
def State.ledgerWords (s : State) : List Word :=
  [BitVec.ofNat 32 (if s.cisOn then s.homeNow else 0), BitVec.ofNat 32 s.borrowed, BitVec.ofNat 32 s.lent, BitVec.ofNat 32 s.inflow,
   BitVec.ofInt 32 (if s.cisOn then s.held else 0), BitVec.ofNat 32 s.pledged, BitVec.ofNat 32 s.committed,
   BitVec.ofNat 32 (if s.cisOn then s.guardNow else 0), BitVec.ofInt 32 s.free, BitVec.ofNat 32 s.dNow.toNat]

/-- CIS_STAT_READ: the copy that a read of CIS_STAT latches for its target. Only TWM reads it (R329, R385). -/
def execCisStatRead (t : Target) (s : State) : Res State :=
  if s.served && decide (t = .twm) then .next { s with twi := { s.twi with cisCopy := some s.ledgerWords } } else .next s

/-! ## Loans -/

/-- The commons link tells the hands of a loan's beginning, change or end (R130, R428). -/
def State.loanNote (s : State) : State := s.note 55 none 3 .loan

/-- The free values of a new lease, in µs. -/
def State.leaseEnd (s : State) (leaseMs : Nat) : Nat := s.dev.aon + 1000 * leaseMs

/-- What the cistern needs of a loan (R351): COMMITTED + GUARD - (HELD - amount), not below 0. -/
def State.needOf (s : State) (amount : Nat) : Nat := ((s.committed : Int) + s.guardNow - (s.held - amount)).toNat

/-- A hand waits for credits: a held attach, or a Request that got Wait (R141, R145). -/
def PortState.waitsForCredit (x : PortState) : Bool :=
  (decide (x.tc.st = .attwaitSrc) && x.pd.holdCred) || (decide (x.pd.src = .waitReq) && decide (0 < x.pd.waits))

/-- Shortfall of the cistern's own waiting requests (R351). -/
def State.waitingShort (s : State) : Nat :=
  (s.ports.toList.filter PortState.waitsForCredit).foldl (fun a x => a + x.pd.short) 0

/-- A shortfall that arose while a request was open is sought next (R347). -/
def State.seekNext (s : State) : State :=
  if 0 < s.cis.short ∧ s.cis.reqW.isNone ∧ s.cis.reqE.isNone then { s with cis.short := 0 }.seek s.cis.short else s

/-- A search for a loan has ended: REFUSED sets when nothing was obtained (R347). -/
def State.endSearch (s : State) (any : Bool) : State := if any then s else (s.cisEvt 3).cisCnt 2

/-- A port has no request open: the oldest request that waits to be relayed there goes out, if the port is UP still; else they are given up, and a
shortfall of the cistern's own is sought (R347, R348). -/
def State.relayNext (s : State) (east : Bool) : State :=
  match s.cis.relays.find? fun r => r.east == east with
  | none => s.seekNext
  | some r =>
    if s.sideUp east then
      { s with cis := { s.cis with relays := s.cis.relays.eraseP fun r => r.east == east } }.askSide east r.amount r.hops true false (some r.up)
    else (s.refuseRelays fun r => r.east == east).seekNext

/-- A port has no request open any more: what was to be asked there for a request of the cistern's own is asked now, then what waits to be
relayed there (R347, R348). -/
def State.portFree (s : State) (east : Bool) : State :=
  match s.cis.rest with
  | some (e, amount, any) =>
    if e ≠ east then s.relayNext east
    else
      let s := { s with cis.rest := none }
      if s.sideUp e then s.askSide e amount 1 true any none else (s.endSearch any).relayNext east
  | none => s.relayNext east

/-- A request on a port is closed: the other neighbour is asked for the rest, as soon as its port has no request open, or REFUSED sets when
nothing was obtained (R347). -/
def State.closeReq (s : State) (east : Bool) : State :=
  match s.openReq east with
  | none => s
  | some r =>
    let s := s.setReq east none
    let any := r.any || decide (0 < r.got)
    if r.up.isSome then s.portFree east
    else if !r.second && decide (r.got < r.amount) && s.sideUp (!east) then
      (if (s.openReq (!east)).isNone then s.askSide (!east) (r.amount - r.got) 1 true any none
       else { s with cis.rest := some (!east, r.amount - r.got, any) }).relayNext east
    else (s.endSearch any).relayNext east

/-- The relayed request that is open on a port is remembered: a GRANT that comes after its time is relayed all the same (R347, R348). -/
def State.noteLate (s : State) (east : Bool) : State :=
  match s.openReq east with
  | some r => match r.up with | some u => { s with cis.late := s.cis.late ++ [(east, r.reqId, u)] } | none => s
  | none => s

/-- LOAN_REQUEST_TIMEOUT: a request has been open 5 ms × HOPS (R347). -/
def execLoanRequestTimeout (d : LinkSide) (s : State) : Res State :=
  let e := LinkSide.isEast d
  if s.linkRuns then .next ((s.noteLate e).closeReq e) else .next s

/-- A loan lent from the cistern's own spare (R348). -/
def State.lendOwn (s : State) (east : Bool) (reqId : BitVec 16) (a : Nat) (i : Fin 32) : State :=
  let id := s.cis.nextLoan
  let ms := 1000 * s.alm.cfg.lease
  let s := s.ledger fun s => { s with cis := { s.cis with
    nextLoan := id + 1#16
    loans := s.cis.loans.set i { Loan.none with
      valid := true, lent := true, east := east, amount := a, id := id, start := s.dev.aon, ends := s.leaseEnd ms } } }
  ((s.sendGrant east reqId id a ms).cisCnt 1).loanNote

/-- REQ is answered; what is to be relayed waits while a request is open on the port on which it goes out (R347, R348, R354). -/
def State.answerReq (s : State) (east : Bool) (reqId : BitVec 16) (amount hops : Nat) : State :=
  match s.freeLoan with
  | none => s.sendFrame east (.refuse reqId)
  | some i =>
    if s.cis.reserve then s.sendFrame east (.refuse reqId) else
    let a := min amount s.spare
    let s := if 0 < a then s.lendOwn east reqId a i else s
    if decide (a < amount) && decide (hops < s.alm.cfg.hops) && s.sideUp (!east) then
      if (s.openReq (!east)).isNone then s.askSide (!east) (amount - a) (hops + 1) true false (some reqId)
      else { s with cis := { s.cis with relays := s.cis.relays ++ [⟨!east, amount - a, hops + 1, reqId, decide (0 < a)⟩] } }
    else if a = 0 then s.sendFrame east (.refuse reqId)
    else s

/-- A granted loan of the cistern's own (R348): BORROWED rises; the rest of the request goes to the other neighbour at once (R347). -/
def State.borrowOwn (s : State) (east : Bool) (reqId loanId : BitVec 16) (amount leaseMs : Nat) (i : Fin 32) : State :=
  let s := s.ledger fun s => { s with cis := { s.cis with
    loans := s.cis.loans.set i { Loan.none with
      valid := true, east := east, amount := amount, id := loanId, start := s.dev.aon, ends := s.leaseEnd leaseMs - 10000 } } }
  let s := ((s.cisEvt 1).cisCnt 0).loanNote
  match s.openReq east with
  | none => s
  | some r =>
    if r.reqId ≠ reqId then s else
    let r := { r with got := r.got + amount }
    if r.amount ≤ r.got then (s.setReq east none).relayNext east
    else if !r.second && s.sideUp (!east) && (s.openReq (!east)).isNone then
      (s.setReq east (some { r with second := true })).askSide (!east) (r.amount - r.got) 1 true true none
    else s.setReq east (some r)

/-- A relayed loan: the incoming record and the one passed on are linked; it is passed on 200 ms shorter (R349). -/
def State.relayLoan (s : State) (east : Bool) (loanId up : BitVec 16) (amount leaseMs : Nat) (i j : Fin 32) : State :=
  let id := s.cis.nextLoan
  let out := leaseMs - 210
  let s := s.ledger fun s => { s with cis := { s.cis with
    nextLoan := id + 1#16
    loans := (s.cis.loans.set i { Loan.none with
      valid := true, east := east, relay := true, linked := j.val, amount := amount, id := loanId, start := s.dev.aon
      ends := s.leaseEnd leaseMs - 10000 }).set j { Loan.none with
      valid := true, lent := true, east := !east, relay := true, linked := i.val, amount := amount, id := id, start := s.dev.aon
      ends := s.leaseEnd out } } }
  let s := (((s.cisEvt 1).cisCnt 0).cisCnt 1).loanNote
  s.sendGrant (!east) up id amount out

/-- What a relayed request has brought so far; once it has brought all of it, it is no longer open (R347, R349). -/
def State.relayGot (s : State) (east : Bool) (reqId : BitVec 16) (a : Nat) : State :=
  match s.openReq east with
  | none => s
  | some r =>
    if r.reqId ≠ reqId then s
    else if r.amount ≤ r.got + a then (s.setReq east none).portFree east
    else s.setReq east (some { r with got := r.got + a })

/-- The REQ for which a request was passed on, while that is open and after (R348). -/
def State.relayedFor (s : State) (east : Bool) (reqId : BitVec 16) : Option (BitVec 16) :=
  match s.openReq east with
  | some r => if r.reqId = reqId then r.up else late
  | none => late
where
  late := (s.cis.late.find? fun x => x.1 == east && x.2.1 == reqId).map (·.2.2)

/-- Two free records. -/
def State.freeTwo (s : State) : Option (Fin 32 × Fin 32) :=
  match (List.finRange 32).filter fun i => !s.cis.loans[i].valid with
  | i :: j :: _ => some (i, j)
  | _ => none

/-- GRANT is received (R347 to R349, R354). -/
def State.takeGrant (s : State) (east : Bool) (reqId loanId : BitVec 16) (amount leaseMs : Nat) : State :=
  let refuse (s : State) := s.sendLapse east loanId amount (s.leaseEnd leaseMs)
  if s.cis.reserve then refuse s else
  match s.relayedFor east reqId with
  | some u =>
    match s.freeTwo with
    | some (i, j) =>
      if leaseMs < 1010 ∨ s.carries (!east) = false then refuse s else (s.relayLoan east loanId u amount leaseMs i j).relayGot east reqId amount
    | none => refuse s
  | none =>
    match s.freeLoan with
    | some i => s.borrowOwn east reqId loanId amount leaseMs i
    | none => refuse s

/-- A borrowed loan, or a part of it, is gone: BORROWED falls and a LAPSE leaves (R349, R350). -/
def State.lapseBorrowed (s : State) (i : Fin 32) (a : Nat) : State :=
  let l := s.loan i
  let s := s.ledger fun s =>
    if l.amount ≤ a then s.dropLoan i
    else { (s.onLoan i fun m => { m with amount := m.amount - a, ends := if m.renewed ∧ 0 < m.kept then m.next else m.ends
                                         kept := 0, renewed := false, led := 0 }) with
           cis.ahead := s.cis.ahead - l.led }
  (((s.sendLapse l.east l.id (min a l.amount) l.ends).cisEvt 2).cisCnt 3).loanNote

/-- The remaining part of the lent record after a lapse of a credits. -/
def State.regain (s : State) (i : Fin 32) (a : Nat) : State :=
  let l := s.loan i
  (s.ledger fun s =>
    if l.amount ≤ a then s.dropLoan i
    else s.onLoan i fun m => { m with amount := m.amount - a, ends := if m.renewed ∧ 0 < m.kept then m.next else m.ends
                                      kept := 0, renewed := false }).loanNote

/-- A credits of a lent loan lapse: LENT falls, and a relay lapses the incoming loan by the same amount (R349, R350). -/
def State.outLapsed (s : State) (i : Fin 32) (a : Nat) : State :=
  let l := s.loan i
  let s := s.regain i a
  if l.relay then
    let j : Fin 32 := ⟨l.linked % 32, Nat.mod_lt _ (by decide)⟩
    if (s.loan j).valid then s.lapseBorrowed j (min a l.amount) else s
  else s

/-- LAPSE is received; one that is not known is counted (R349, R350). -/
def State.takeLapse (s : State) (east : Bool) (loanId : BitVec 16) (amount : Nat) : State :=
  match s.findLoan true east loanId with
  | none => s.lnkCnt east 5
  | some i => s.outLapsed i amount

/-- What of a borrowed loan lapses at its lease's end as renewed so far. -/
def Loan.lapsing (l : Loan) : Nat := l.amount - l.kept

/-- BORROWER_LEASE_END (R350, R351). -/
def execBorrowerLeaseEnd (i : Fin 32) (s : State) : Res State :=
  let l := s.loan i
  if s.linkRuns && l.valid && !l.lent then .next (s.lapseBorrowed i l.lapsing) else .next s

/-- LENDER_LEASE_END: 1 s after the lease's end without a LAPSE; a relay passes the lapse on (R349, R350). -/
def execLenderLeaseEnd (i : Fin 32) (s : State) : Res State :=
  let l := s.loan i
  if s.linkRuns && l.valid && l.lent then .next (s.outLapsed i l.lapsing) else .next s

/-- The lender sends RENEW for an amount over a port that carries loans; the new lease runs from it (R351). -/
def State.sendRenew (s : State) (i : Fin 32) (a leaseMs : Nat) : State :=
  let l := s.loan i
  if a = 0 ∨ s.carries l.east = false then s
  else (s.onLoan i fun m => { m with renewed := true, kept := 0, next := s.leaseEnd leaseMs }).sendFrame l.east (.renew l.id a leaseMs)

/-- RENEW_DUE: half of the lease of a lent loan has passed (R351, R354). A relayed loan is renewed only after its incoming one; a lender whose
own FREE is below 0 renews nothing (R353). -/
def execRenewDue (i : Fin 32) (s : State) : Res State :=
  let l := s.loan i
  if s.linkRuns && l.valid && l.lent && !l.relay && !s.cis.reserve && decide (0 ≤ s.free) then
    let r := (clampI ((l.amount : Int) + s.free - s.alm.cfg.lendKeep - s.waitingShort) 0 l.amount).toNat
    .next (s.sendRenew i r (1000 * s.alm.cfg.lease))
  else .next s

/-- RENEW is received (R351): the borrower keeps what it needs, seeks what is missing, and a relay renews downstream. -/
def State.takeRenew (s : State) (east : Bool) (loanId : BitVec 16) (amount leaseMs : Nat) : State :=
  match s.findLoan false east loanId with
  | none => s
  | some i =>
    let l := s.loan i
    let need := s.needOf l.amount
    let kept := min (min amount l.amount) need
    let fin := s.leaseEnd leaseMs - 10000
    let s := s.sendFrame east (.renewAck loanId kept)
    let s := { (s.onLoan i fun m =>
      if kept = m.amount then { m with start := s.dev.aon, ends := fin, kept := 0, next := 0, renewed := false, led := 0 }
      else { m with start := s.dev.aon, kept := kept, next := fin, renewed := true, led := if m.led = 0 then 0 else m.amount - kept }) with
      cis.ahead := s.cis.ahead - l.led + (if l.led = 0 ∨ kept = l.amount then 0 else l.amount - kept) }
    let s := s.shed
    if l.relay then
      let j : Fin 32 := ⟨l.linked % 32, Nat.mod_lt _ (by decide)⟩
      if (s.loan j).valid then s.sendRenew j (min kept (s.loan j).amount) (leaseMs - 210) else s
    else s.seek (need - kept)

/-- RENEW_ACK is received: the lender's renewed amount and lease (R351). -/
def State.takeRenewAck (s : State) (east : Bool) (loanId : BitVec 16) (kept : Nat) : State :=
  match s.findLoan true east loanId with
  | none => s
  | some i =>
    s.onLoan i fun m =>
      if !m.renewed then m
      else if m.amount ≤ kept then { m with start := s.dev.aon, ends := m.next, kept := 0, next := 0, renewed := false }
      else { m with start := s.dev.aon, kept := kept }

/-- RENEW_MISSING: the loan counts as renewed for 0, and a replacement is sought (R352). -/
def execRenewMissing (i : Fin 32) (s : State) : Res State :=
  let l := s.loan i
  if s.linkRuns && l.valid && !l.lent && !l.renewed then
    let s' := s.onLoan i fun m => { m with renewed := true, kept := 0, next := 0 }
    .next (if l.relay then s' else s'.seek (min (s.needOf l.amount) l.amount))
  else .next s

/-- SHED_LEAD: T_SHED before the end of a borrowed lease: what lapses then and is not replaced is shed (R166, R353). The end of a relayed
loan leaves FREE as it is, since the loan passed on ends before it (R349). -/
def execShedLead (i : Fin 32) (s : State) : Res State :=
  let l := s.loan i
  if s.linkRuns && l.valid && !l.lent && !l.relay && decide (l.led = 0) then
    let s := s.onLoan i fun m => { m with led := m.lapsing }
    .next ({ s with cis.ahead := s.cis.ahead + l.lapsing }.shed)
  else .next s

/-- Every loan over a port dropped in one grant (R343). -/
def State.dropLoans (s : State) (east : Bool) : State :=
  s.ledger fun s => (List.finRange 32).foldl (fun s i =>
    let l := s.loan i
    if l.valid && (l.east == east) then (((s.dropLoan i).cisEvt 4).cisCnt 4).loanNote else s) s

/-! ## Enumeration (R344 to R346) -/

/-- The almanac puts the port in use. -/
def State.inUse (s : State) (east : Bool) : Bool := if east then s.alm.cfg.linkE else s.alm.cfg.linkW

/-- A west end by its LKW (R344). -/
def State.westByPort (s : State) : Bool :=
  (s.inUse false || s.inUse true) &&
  (decide (s.lnk.w.st = .isolated) || decide (s.lnk.w.st = .seek) || decide (s.lnk.w.st = .miswire))

/-- LKE takes an enumeration frame onward (R344). -/
def State.eastOpen (s : State) : Bool := decide (s.lnk.e.st = .up) || decide (s.lnk.e.st = .relay)

/-- A node ID taken (R344). -/
def State.takeId (s : State) (n : Nat) : State :=
  let new := decide (s.lnk.node ≠ some n)
  { s with lnk := { s.lnk with
      node := some n, overId := false
      evt := if new then setBit s.lnk.evt 4 else s.lnk.evt
      enumCnt := if new then satInc s.lnk.enumCnt else s.lnk.enumCnt } }

/-- A chain wave from the west end; one that is also the east end records NODES as 1 (R344). -/
def State.chainWave (s : State) : State :=
  if s.eastOpen then s.sendFrame true (.enum 1#16 Config.uid true) else { s with lnk.nodes := 1#16 }

/-- A frame sent westward, if LKW has a partner. -/
def State.sendWest (s : State) (f : LinkFrame) : State := if s.lnk.w.reached then s.sendFrame false f else s

/-- A port's state replaced. -/
def State.setLink (s : State) (east : Bool) (st : LinkState) : State := s.onSide east fun l => { l with st := st }

/-- The former closing hop is UP again, or RELAY; while its partner sleeps it is so when that wakes (R345, R360). -/
def State.reopen (s : State) : State :=
  let s := s.onSide true fun l => { l with closed := false }
  if s.lnk.e.st ≠ .closing then s
  else if 0 < s.lnk.e.ver then { s.setLink true .up with lnk.evt := setBit (s.setLink true .up).lnk.evt 1 }
  else s.setLink true .relay

/-- A port has changed state: a west end, by its LKW or as the originator of a ring, starts a wave; any other node is no west end and, if it is to
prompt, asks for one westward, behind a wake burst to a partner that sleeps (R344, R345, R360). In the chain of a west end by its LKW there is no
closing hop. -/
def State.portChanged (s : State) (prompt : Bool) : State :=
  if s.westByPort then
    ({ s.reopen with lnk := { s.reopen.lnk with west := true, ring := false, candidate := false } }.takeId 0).chainWave
  else if !s.inUse false && !s.inUse true then s
  else if s.lnk.west && s.lnk.ring then s.chainWave
  else
    let s := { s with lnk := { s.lnk with west := false, auditOn := false } }
    if prompt then s.sendWest (.enumDone 0#16 false) else s

/-- A port has changed state, and the node prompts (R344). -/
def State.linkChanged (s : State) : State := s.portChanged true

/-- A frame that is no repeat shows that a partner which had announced sleep is awake, a change of its port's state (R344, R360). -/
def State.wakeSide (s : State) (east : Bool) : State :=
  let l := s.side east
  if l.st = .asleep then
    let s := s.onSide east fun l => { l with st := l.awakeSt, partnerSleep := none, closed := false }
    (if l.awakeSt = .up then { s with lnk.evt := setBit s.lnk.evt (if east then 1 else 0) } else s).linkChanged
  else s

/-- The first audit of a new west end (R357). -/
def State.auditToken (s : State) : AuditTok :=
  ⟨s.lnk.auditNo + 1#16, 0#16, BitVec.ofNat 32 s.alm.cfg.sysTotal, 0#32, 0#32, 0#32, 0#32, 0#16, BitVec.ofNat 16 s.alm.cfg.audit,
   false, false⟩

/-- XID x lies later than y. -/
def xidLater (x y : BitVec 16) : Bool := decide (x ≠ y) && decide ((x - y).toNat < 32768)

/-- What a port's transfers add to IN_TRANSIT: those later than `last` if it is given, and those still open (R356, R358). -/
def LinkPort.transit (l : LinkPort) (last : Option (BitVec 16)) (us : Nat) : Nat :=
  (l.xfers.filter fun x => (match last with | some y => xidLater x.xid y | none => false) || (!x.acked && decide (us ≤ x.till))).foldl
    (fun a x => a + x.amount) 0

/-- A node processes the token in one grant (R358). `first` says that the west end starts it. -/
def State.auditStep (s : State) (t : AuditTok) (first : Bool) : AuditTok :=
  let n := s.lnk.w.transit (if first then none else some t.lastXidRx) s.dev.aon + s.lnk.e.transit none s.dev.aon
  { t with
    nodes := t.nodes + 1#16, homeSum := t.homeSum + BitVec.ofNat 32 s.alm.cfg.home, lentSum := t.lentSum + BitVec.ofNat 32 s.lent
    borrowedSum := t.borrowedSum + BitVec.ofNat 32 s.borrowed, inTransit := t.inTransit + BitVec.ofNat 32 n
    sysDiffers := t.sysDiffers || decide (t.sysTotal.toNat ≠ s.alm.cfg.sysTotal), lastXidRx := s.lnk.e.xidRx }

/-- Transfers on a port that no audit will ask for again. -/
def LinkPort.prune (l : LinkPort) (last : BitVec 16) : LinkPort :=
  { l with xfers := l.xfers.filter fun x => xidLater x.xid last || !x.acked }

/-- The west end starts an audit, and takes the token's first step in a grant to the link (R357, R358). -/
def State.startAudit (s : State) : State :=
  if s.lnk.west && s.lnk.e.isLinked && !s.lnk.auditOut && !s.lnk.overId && decide (0 < s.alm.cfg.audit) then
    let t := s.auditToken
    let f := s.auditStep t true
    ({ s with lnk := { s.lnk with auditNo := t.auditNo, auditOut := true, auditOn := true } }.cisGrant 16).sendFrame true (.audit f)
  else s

/-- AUDIT_START: AUDIT seconds after the start of the audit before (R357). -/
def execAuditStart (s : State) : Res State := if s.linkRuns && s.lnk.auditOn then .next s.startAudit else .next s

/-- AUDIT_TOKEN_LOST: 10 s without the token's return (R359). -/
def execAuditTokenLost (s : State) : Res State :=
  if s.linkRuns && s.lnk.auditOut then
    .next { s with lnk := { s.lnk with auditOut := false, evt := setBit s.lnk.evt 8, audLost := satInc s.lnk.audLost } }
  else .next s

/-- The flags of a result: AUD_HOME, AUD_LOAN, AUD_SYS, one failed audit, and LNK_AUD (R359). -/
def State.auditResult (s : State) (no : BitVec 16) (r : BitVec 3) (nodes : BitVec 16) : State :=
  { s with lnk := { s.lnk with
      evt := s.lnk.evt ||| (r.setWidth 32 <<< 5), audErr := if r = 0#3 then s.lnk.audErr else satInc s.lnk.audErr
      aud := (no.setWidth 32 <<< 16) ||| r.setWidth 32, nodes := nodes } }

/-- The three tests at the token's return (R359). -/
def AuditTok.result (t : AuditTok) : BitVec 3 :=
  BitVec.ofNat 3 (bitAt 0 (t.homeSum ≠ t.sysTotal) + bitAt 1 (t.lentSum ≠ t.borrowedSum + t.inTransit) + bitAt 2 t.sysDiffers)

/-- The token has returned to the west end (R359). -/
def State.auditBack (s : State) (t : AuditTok) : State :=
  if !s.lnk.auditOut then s else
  let r := AuditTok.result t
  let s := { s with lnk.auditOut := false }.auditResult t.auditNo r t.nodes
  if s.lnk.e.reached then s.sendFrame true (.auditRes t.auditNo r t.nodes) else s

/-! ## Reception -/

/-- A frame has come on a port: a wake burst on LKW that ended rest has brought its first one (R361). -/
def State.heardOn (s : State) (east : Bool) : State := if east then s else { s with lnk := { s.lnk with woken := false } }

/-- An acknowledged frame is received on a linked port: it is acknowledged; a repeat is discarded (R340). Ports that take part in
nothing ignore it. A frame from a partner that had announced sleep shows it awake. -/
def State.onFrame (s : State) (d : LinkSide) (k : LinkHdr) (f : State → State) : Res State :=
  let e := (LinkSide.isEast d)
  let l := s.side e
  if !s.linkRuns || !l.reached then .next s
  else
    let s := s.sendLine e (.ack k.seq)
    if l.rxSeq = some k.seq then .next (s.heardOn e)
    else .next ((f ((s.onSide e fun l => { l with rxSeq := some k.seq }).wakeSide e)).heardOn e)

/-- A loan frame: taken in UP only, with the negotiated version; one of another version, or where none is negotiated, is dropped without
ACK and counted (R339, R341, R342). A port that is isolated, or isolated for loans, ignores it (R336, R346). -/
def State.onLoanFrame (s : State) (d : LinkSide) (k : LinkHdr) (f : State → State) : Res State :=
  let l := s.side (LinkSide.isEast d)
  if !s.linkRuns || decide (l.st = .isolated) || s.lnk.overId then .next s
  else if l.ver = 0 ∨ k.ver.toNat ≠ l.ver then .next (s.lnkCnt (LinkSide.isEast d) 5)
  else s.onFrame d k fun s => if s.sideUp (LinkSide.isEast d) then f s else s

/-- A frame of an audit; a port that is isolated for audits ignores it (R346, R357). -/
def State.onAuditFrame (s : State) (d : LinkSide) (k : LinkHdr) (f : State → State) : Res State :=
  if s.lnk.overId then .next s else s.onFrame d k f

/-- The partner of a HELLO is not the one that the port last had UP (R343). -/
def LinkPort.isNew (l : LinkPort) (f : Hello) : Bool :=
  match l.partner with | some p => decide (p ≠ (f.uid, f.tag)) | none => false

/-- The common version (R342); own versions run from 1 to PROTO_MAX. -/
def commonVer (protoMax : Nat) (f : Hello) : Option Nat :=
  if decide (f.protoMin ≤ min protoMax f.protoMax) && decide (1 ≤ min protoMax f.protoMax) then some (min protoMax f.protoMax) else none

/-- HELLO (R341 to R343, R360). -/
def execHello (d : LinkSide) (_ : LinkHdr) (f : Hello) (s : State) : Res State :=
  let e := (LinkSide.isEast d)
  let l := s.side e
  if !s.linkRuns || decide (l.st = .isolated) then .next s
  else
  let s := s.heardOn e
  if f.sideEast = e then
    if l.st = .miswire then .next s else .next ((s.setLink e .miswire).onSide e fun l => { l with ver := 0 }).linkChanged
  else
    let s := if l.isNew f then s.dropLoans e else s
    let s := s.wakeSide e
    let l := s.side e
    match commonVer s.alm.cfg.protoMax f with
    | none =>
      let s := s.onSide e fun l => { l with ver := 0 }
      if l.st = .relay ∨ l.st = .closing then .next s
      else
        let s := (s.setLink e .relay).linkChanged
        .next { s with lnk.evt := setBit s.lnk.evt 9 }
    | some v =>
      let s := s.onSide e fun l => { l with ver := v, partner := some (f.uid, f.tag) }
      match l.st with
      | .up => .next s
      | .closing => .next s
      | _ =>
        let s := { (s.setLink e .up) with lnk.evt := setBit (s.setLink e .up).lnk.evt (if e then 1 else 0) }
        .next s.linkChanged

/-! ## Sleep before rest (R58, R360, R361) -/

/-- Inside the guard of the audit slot, in which a node listens for the token (R361). -/
def State.slotGuard (s : State) : Bool :=
  match s.lnk.slotUs with | some t => decide (t ≤ s.dev.aon + 4000) && decide (s.dev.aon ≤ t + 4000) | none => false

/-- The conditions of R58, R360 and R361, the idle time apart; no frame waits for its ACK. -/
def State.mayRest (s : State) : Bool :=
  s.running && s.dev.stop.isNone && s.alm.cfg.restEn && !s.sup.pfw && !s.clk.x32fail &&
  s.ports.toList.all (fun x => !x.tc.attached && decide (x.tc.st ≠ .guardOff)) &&
  s.mtr.job.isNone && s.mtr.reqs.isEmpty && !s.lnk.auditWait && !s.slotGuard && s.lnk.w.txq.isEmpty && s.lnk.e.txq.isEmpty &&
  (s.alm.cfg.sleepOk || (!s.lnk.w.isLinked && !s.lnk.e.isLinked))

/-- The moments to come, in µs, at which the device must act on a loan, or on its audit slot, for which it wakes 4 ms before: the end of a
borrowed lease, that of a lent one with the second in which its LAPSE may come, and the renewal of a loan lent from its own spare (R350, R351, R360,
R361). -/
def State.wakeTimes (s : State) : List Nat :=
  let l : List Loan := s.cis.loans.toList.filter fun x => x.valid
  ((s.lnk.slotUs.toList.map (· - 4000)) ++ (l.map fun (x : Loan) => if x.lent then x.ends + 1000000 else x.ends) ++
    (l.filter fun (x : Loan) => x.lent && !x.relay && !x.renewed).map fun (x : Loan) => (x.start + x.ends) / 2).filter fun t => decide (s.dev.aon < t)

/-- WAKE of a SLEEP frame in ms; with nothing to wake for the manual states no value (free). -/
def State.wakeMs (s : State) : Nat :=
  match s.wakeTimes with
  | [] => Config.free s.draws % 2 ^ 32
  | t :: l => satN 32 ((l.foldl min t - s.dev.aon) / 1000)

/-- The dowser stops for rest: a CC frame gives its pin back, and the connection machine judges both pins as they stand (R16, R113). -/
def State.dowserStop (s : State) : State :=
  s.forPorts (allPorts.filter fun p => (s.port p).grd.ccFrame.isSome) fun s p =>
    (s.onPort p fun x => { x with grd := { x.grd with ccFrame := none } }).ccJudge p false

/-- Rest is entered: the clocks and the dowsers stop (R58, R113, R311). -/
def State.restNow (s : State) : State :=
  let s := s.dowserStop
  { s with
    dev := { s.dev with phase := .rest }
    pwm := { s.pwm with syncLeft := 0 }
    clk := { s.clk with xrefOk := false, suo := true, pllS := false, pllH := false }
    lnk := { s.lnk with woken := false } }

/-- A SLEEP frame has been acknowledged, or given up: once none is out any more the device rests, if it still may (R340, R360). -/
def State.sleepSent (s : State) (f : LinkFrame) : State :=
  match f with
  | .sleep _ => if s.mayRest then s.restNow else s
  | _ => s

/-- ACK: the frame in flight has been received (R340, R356); with the last SLEEP the device rests (R360). -/
def execAck (d : LinkSide) (seq : BitVec 4) (s : State) : Res State :=
  let e := (LinkSide.isEast d)
  let l := s.side e
  match l.txq with
  | [] => .next s
  | f :: q =>
    if s.linkRuns && decide (0 < l.att) && decide (seq = l.txSeq) then
      let x := match f with | .grant _ x _ _ _ => some x | .lapse x _ _ => some x | _ => none
      .next ((s.onSide e fun l => { l with
        txq := q, txSeq := l.txSeq + 1#4, att := if q.isEmpty then 0 else 1
        tokAgain := false
        xfers := (l.xfers.map fun y => if x = some y.xid then { y with acked := true } else y).filter fun y => !e || !y.acked }).sleepSent f)
    else .next s

/-- LINK_ACK_TIMEOUT: 50 µs without the ACK: again, up to three more times, then abandoned (R340). The audit token goes again behind a wake
burst first, which counts as drift (R361; once, assumption 98). -/
def execLinkAckTimeout (d : LinkSide) (s : State) : Res State :=
  let e := (LinkSide.isEast d)
  let l := s.side e
  match l.txq with
  | [] => .next s
  | f :: q =>
    if !s.linkRuns || decide (l.att = 0) then .next s
    else if l.att < 4 then .next ((s.onSide e fun l => { l with att := l.att + 1 }).lnkCnt e 1)
    else
      let tok := match f with | .audit _ => true | _ => false
      if tok && !l.tokAgain then
        .next ((s.onSide e fun l => { l with att := 0, burst := true, tokAgain := true }).drift e)
      else
        .next (((s.onSide e fun l => { l with
          txq := q, txSeq := l.txSeq + 1#4, att := if q.isEmpty then 0 else 1, tokAgain := false }).lnkCnt e 2).sleepSent f)

/-- WAKE_BURST_END: the waiting frame goes out (R360, R361). -/
def execWakeBurstEnd (d : LinkSide) (s : State) : Res State :=
  let l := s.side (LinkSide.isEast d)
  if l.burst then
    .next (s.onSide (LinkSide.isEast d) fun l => { l with burst := false, att := if l.txq.isEmpty then 0 else max l.att 1 })
  else .next s

/-- LINK_FRAME_DROPPED: CRC failures and bad frames are counted (R339, R340); an isolated port ignores what it receives (R336). -/
def execLinkFrameDropped (d : LinkSide) (why : FrameDrop) (s : State) : Res State :=
  if !s.linkRuns || decide ((s.side (LinkSide.isEast d)).st = .isolated) then .next s
  else .next (s.lnkCnt (LinkSide.isEast d) (match why with | .crc => 0 | _ => 5))

/-- The port is at the closing hop of a ring, whether or not its partner sleeps (R345). -/
def LinkPort.closingHop (l : LinkPort) : Bool := l.st = .closing || l.closed

/-- A chain wave reaches a node. One that does not come from the originator of the ring shows that the ring is a chain now: a closing hop at
LKE returns to its former state, which is a change of it (R344, R345; assumption 53). -/
def State.ringEnds (s : State) (uid : BitVec 48) : State :=
  if uid = s.lnk.waveUid then s
  else if s.lnk.e.st = .closing then s.reopen.linkChanged
  else s.reopen

/-- ENUM on LKW (R344 to R346); a node without an ID takes part in no audit, and awaits no token. -/
def State.takeEnum (s : State) (nextId : BitVec 16) (uid : BitVec 48) (chain : Bool) : State :=
  if uid = Config.uid then
    let s := ({ s with lnk := { s.lnk with west := true, ring := true, candidate := false, nodes := nextId } }).takeId 0
    s.sendFrame false (.enumDone nextId true)
  else if chain || (decide (uid.toNat < Config.uid.toNat) && !s.lnk.chainSeen) then
    let s := { s with lnk := { s.lnk with
      chainSeen := s.lnk.chainSeen || chain, west := false, ring := s.lnk.ring && (!chain || (decide (uid = s.lnk.waveUid) && s.lnk.e.closingHop))
      candidate := s.lnk.candidate && !chain, auditOn := false } }
    let s := if chain then s.ringEnds uid else s
    let s := { s with lnk.waveUid := uid }
    if 16384 ≤ nextId.toNat then
      { s with lnk := { s.lnk with overId := true, node := none, slotUs := none, auditWait := false } }
    else
      let s := s.takeId nextId.toNat
      if s.eastOpen then s.sendFrame true (.enum (nextId + 1#16) uid chain)
      else { s with lnk.nodes := nextId + 1#16 }.sendFrame false (.enumDone (nextId + 1#16) false)
  else if s.lnk.chainSeen then s
  else if s.eastOpen then { s with lnk.candidate := true }.sendFrame true (.enum 1#16 Config.uid false)
  else s

/-- ENUM. -/
def execEnum (d : LinkSide) (k : LinkHdr) (nextId : BitVec 16) (waveUid : BitVec 48) (chain : Bool) (s : State) : Res State :=
  s.onFrame d k fun s => if (LinkSide.isEast d) then s else s.takeEnum nextId waveUid chain

/-- ENUM_DONE on LKE (R344, R345, R357). A node without an ID forwards nothing (R346). -/
def State.takeEnumDone (s : State) (nodes : BitVec 16) (closing : Bool) : State :=
  if s.lnk.overId then s else
  let s := if closing then { (s.setLink true .closing) with lnk.ring := true }.linkChanged else s
  let s := { s with lnk.nodes := nodes }
  if nodes = 0#16 then if s.lnk.west then s.chainWave else s.sendWest (.enumDone 0#16 false)
  else
    if s.lnk.west then if s.lnk.auditOn then s else s.startAudit
    else s.sendWest (.enumDone nodes false)

/-- ENUM_DONE. -/
def execEnumDone (d : LinkSide) (k : LinkHdr) (nodes : BitVec 16) (closing : Bool) (s : State) : Res State :=
  s.onFrame d k fun s => if (LinkSide.isEast d) then s.takeEnumDone nodes closing else s

/-- CANDIDATE_WAVE_START: no chain wave for 1 s at a node whose LKW has a partner (R345). -/
def execCandidateWaveStart (s : State) : Res State :=
  if s.linkRuns && s.lnk.w.isLinked && !s.lnk.west then
    let s := { s with lnk := { s.lnk with chainSeen := false, candidate := true } }
    .next (if s.eastOpen then s.sendFrame true (.enum 1#16 Config.uid false) else s)
  else .next s

/-- The token came on LKW before the guard of its slot, and the burst before it woke the node, whose partner got no ACK for it (R361). -/
def State.tokenEarly (s : State) (east : Bool) : Bool :=
  !east && s.lnk.woken && (match s.lnk.slotUs with | some t => decide (s.dev.aon + 4000 < t) | none => false)

/-- The audit token on a port (R358, R359, R361). -/
def State.takeAudit (s : State) (east : Bool) (t : AuditTok) : State :=
  let s := if s.tokenEarly east then s.drift false else s
  let s := { s with lnk := { s.lnk with slotUs := some (s.dev.aon + 1000000 * t.period.toNat), auditWait := false } }
  if s.lnk.west then s.auditBack t
  else if east then if t.returnLeg then s.sendWest (.audit t) else s
  else if t.returnLeg then s
  else
    let f := s.auditStep t false
    let s := (s.cisGrant 16).onSide false fun l => l.prune t.lastXidRx
    if s.lnk.e.reached then s.sendFrame true (.audit f) else s.sendFrame false (.audit { f with returnLeg := true })

/-- AUDIT. -/
def execAudit (d : LinkSide) (k : LinkHdr) (t : AuditTok) (s : State) : Res State :=
  s.onAuditFrame d k fun s => s.takeAudit (LinkSide.isEast d) t

/-- AUDIT_RES: flags set, and passed east (R359), but for a node without an ID (R346). -/
def execAuditRes (d : LinkSide) (k : LinkHdr) (auditNo : BitVec 16) (result : BitVec 3) (nodes : BitVec 16) (s : State) : Res State :=
  s.onAuditFrame d k fun s =>
    if (LinkSide.isEast d) || s.lnk.west then s else
    let s := s.auditResult auditNo result nodes
    if s.lnk.e.reached then s.sendFrame true (.auditRes auditNo result nodes) else s

/-- The partner sleeps: frames that wait for it, one in flight among them, go behind a wake burst (R360). -/
def LinkPort.asleepNow (l : LinkPort) (wakeMs : Nat) : LinkPort :=
  { l with st := .asleep, partnerSleep := some wakeMs, closed := decide (l.st = .closing), att := 0, burst := l.burst || !l.txq.isEmpty }

/-- SLEEP: the partner announces its sleep, a change of the port's state; a CLOSING hop is one again when it wakes (R344, R345, R360). On LKW it
brings no prompt, which would end that sleep (assumption 53). -/
def execSleep (d : LinkSide) (k : LinkHdr) (wakeMs : Nat) (s : State) : Res State :=
  s.onFrame d k fun s => (s.onSide (LinkSide.isEast d) fun l => l.asleepNow wakeMs).portChanged (LinkSide.isEast d)

/-- REQ. -/
def execReq (d : LinkSide) (k : LinkHdr) (reqId : BitVec 16) (amount hops : Nat) (s : State) : Res State :=
  s.onLoanFrame d k fun s => s.answerReq (LinkSide.isEast d) reqId amount hops

/-- GRANT. -/
def execGrant (d : LinkSide) (k : LinkHdr) (reqId xid loanId : BitVec 16) (amount leaseMs : Nat) (s : State) : Res State :=
  s.onLoanFrame d k fun s => (s.onSide (LinkSide.isEast d) fun l => { l with xidRx := xid }).takeGrant (LinkSide.isEast d) reqId loanId amount leaseMs

/-- REFUSE (R347). -/
def execRefuse (d : LinkSide) (k : LinkHdr) (reqId : BitVec 16) (s : State) : Res State :=
  s.onLoanFrame d k fun s =>
    match s.openReq (LinkSide.isEast d) with
    | some r => if r.reqId = reqId then s.closeReq (LinkSide.isEast d) else s
    | none => s

/-- RENEW. -/
def execRenew (d : LinkSide) (k : LinkHdr) (loanId : BitVec 16) (amount leaseMs : Nat) (s : State) : Res State :=
  s.onLoanFrame d k fun s => s.takeRenew (LinkSide.isEast d) loanId amount leaseMs

/-- RENEW_ACK. -/
def execRenewAck (d : LinkSide) (k : LinkHdr) (loanId : BitVec 16) (kept : Nat) (s : State) : Res State :=
  s.onLoanFrame d k fun s => s.takeRenewAck (LinkSide.isEast d) loanId kept

/-- LAPSE. -/
def execLapse (d : LinkSide) (k : LinkHdr) (xid loanId : BitVec 16) (amount : Nat) (s : State) : Res State :=
  s.onLoanFrame d k fun s => (s.onSide (LinkSide.isEast d) fun l => { l with xidRx := xid }).takeLapse (LinkSide.isEast d) loanId amount

/-! ## Timers and resets of a link port -/

/-- The port's own HELLO (R339, R342, R343). -/
def State.ownHello (s : State) (east : Bool) : LinkFrame :=
  .hello ⟨1, s.alm.cfg.protoMax, east, s.alm.cfg.sleepOk, Config.uid, s.lnk.tag⟩

/-- HELLO_TIMER: nothing sent for 10 ms (R341). -/
def execHelloTimer (d : LinkSide) (s : State) : Res State :=
  let e := (LinkSide.isEast d)
  if !s.linkRuns || decide ((s.side e).st = .isolated) || decide ((s.side e).st = .asleep) then .next s
  else .next (s.sendLine e (s.ownHello e))

/-- LINK_PARTNER_LOST: no valid frame for 50 ms (R341, R344). -/
def execLinkPartnerLost (d : LinkSide) (s : State) : Res State :=
  let e := (LinkSide.isEast d)
  let l := s.side e
  if s.linkRuns && (l.isLinked || decide (l.st = .miswire)) then
    let s := ((s.setLink e .seek).onSide e fun l => { l with ver := 0 }).lnkCnt e 3
    .next { s with lnk.evt := setBit s.lnk.evt (if e then 3 else 2) }.linkChanged
  else .next s

/-- A link reset (R48, R341): SEQ and counters to 0; the state to SEEK in use. -/
def State.linkReset (s : State) (e : Bool) : State :=
  let was := (s.side e).st
  let s := s.onSide e fun l => { l with
    txSeq := 0#4, rxSeq := none, txq := [], att := 0, burst := false, cnt := Vector.replicate 6 0#32, ver := 0, partnerSleep := none, closed := false
    tokAgain := false }
  if !s.inUse e || decide (was = .isolated) || decide (was = .seek) then s else (s.setLink e .seek).linkChanged

/-- LNK_CTL: CCLR is free, RST_W and RST_E need the unlock (R387). -/
def State.wrLnkCtl (s : State) (w : Word) : State :=
  let s := if w.getLsbD 31 then { s with lnk := { s.lnk with audErr := 0#32, audLost := 0#32, enumCnt := 0#32 } } else s
  s.locked (w.getLsbD 0 || w.getLsbD 1) fun s =>
    let s := if w.getLsbD 0 then s.linkReset false else s
    if w.getLsbD 1 then s.linkReset true else s

/-- LINK_RESET: LNK_CTL.RST_W or RST_E written 1 (R48, R341, R387). -/
def execLinkReset (d : LinkSide) (s : State) : Res State :=
  let w : Word := if LinkSide.isEast d then 2#32 else 1#32
  s.hostWrite 0x483 w fun s => s.wrLnkCtl w

/-- AUDIT_SLOT_GUARD_END: the token has not come by the end of its slot's guard. On the side of LKW this node waits for it: it sends a wake
burst there and stays awake until the token comes. On the side of LKE the neighbour has waited, and this node counts the event too (R361;
assumption 98). A node without an ID takes part in no audit (R346). -/
def execAuditSlotGuardEnd (d : LinkSide) (s : State) : Res State :=
  match d with
  | .west =>
    if s.linkRuns && !s.lnk.overId && s.lnk.slotUs.isSome && !s.lnk.west && s.lnk.w.reached then
      let s := (s.onSide false fun l => { l with burst := true }).drift false
      .next { s with lnk := { s.lnk with slotUs := none, auditWait := true } }
    else .next s
  | .east => if s.linkRuns && !s.lnk.overId && s.lnk.e.reached then .next (s.drift true) else .next s

end Sys2Proof.Machine
end

