-- ==== Sys2Proof/Machine/Sluice.lean ====
section
/-! DEFINITION. The sluice (R195 to R221): requests, the ramp, limit, trips, discharge, and the damaged-FET checks. -/

namespace Sys2Proof.Machine

/-- OFF to RAMP when everything R196 asks holds: a pending on request, VAUX, no off-time, and VBS of the running stage in band on a
source port. In the stop phase no ramp starts (R49). -/
def State.tryRamp (s : State) (p : Port) : State :=
  let x := s.port p
  if s.works p && decide (x.slc.st = .off) && x.slc.onReq && s.dev.vauxOk && !x.slc.offRun && !x.cnt.any &&
      (x.slc.sink || ((s.port (s.stageOf p)).stg.den && in5V (s.port (s.stageOf p)).vbsMv)) && s.dev.stop.isNone then
    let s := (s.onPort p (PortState.keepWas s.dev.aon)).slcTo p fun c => { c with
      st := .ramp, limOn := false, phase := .precharge, gck := false, acc := 0, window := false, retry := false
      retries := if c.retry then min (c.retries + 1) 255 else c.retries }
    let s := s.slcCnt p 0
    if x.slc.retry then (s.slcEvt p 6).slcCnt p 6 else s
  else s

/-- The first command of a port's sluice queue taken (R135). -/
def State.popSlc (s : State) (p : Port) : State := s.onPort p fun x => { x with pd := { x.pd with slcq := x.pd.slcq.drop 1 } }

/-- SLUICE_ON: an on request reaches the wellhead (R196, R213, R216). -/
def execSluiceOn (p : Port) (s : State) : Res State :=
  match (s.port p).pd.slcq with
  | .on :: _ =>
    let s := s.popSlc p
    .next ((s.onPort p fun x => { x with slc := { x.slc with onReq := true, sink := x.sinkRole } }).tryRamp p)
  | _ => .next s

/-- SLUICE_OFF: an off request reaches the wellhead. -/
def execSluiceOff (p : Port) (s : State) : Res State :=
  match (s.port p).pd.slcq with
  | .off :: _ => .next ((s.popSlc p).slcOff p)
  | _ => .next s

/-- ILIM_ACT_CHANGE: a new ILIM_ACT, applied in any state (R200, R201, R216). -/
def execIlimActChange (p : Port) (s : State) : Res State :=
  match (s.port p).pd.slcq with
  | .ilim n :: _ => .next ((s.popSlc p).onPort p fun x => { x with slc := { x.slc with ilim := n } })
  | _ => .next s

/-- PRECHARGE_END: V_GS reaches 3.0 V, or the pass path conducts; the gate-rise check passes (R197, R217). -/
def execPrechargeEnd (p : Port) (s : State) : Res State :=
  let c := (s.port p).slc
  if decide (c.st = .ramp) && decide (c.phase = .precharge) then
    .next (s.onPort p fun x => { x with slc := { x.slc with phase := .slope, gck := true } })
  else .next s

/-- SLOPE_END: the downstream node is within 2 % of the upstream node (R197). -/
def execSlopeEnd (p : Port) (s : State) : Res State :=
  let c := (s.port p).slc
  if decide (c.st = .ramp) && decide (c.phase = .slope) then
    .next (s.onPort p fun x => { x with slc := { x.slc with phase := .enhance } })
  else .next s

/-- RAMP_ON: V_GS reaches 8.0 V; `dur` is the ramp's duration in 0.1 ms units (R196, R197). The connector of a source then follows its
stage, which stands above vSafe0V. -/
def execRampOn (p : Port) (dur : Nat) (s : State) : Res State :=
  let c := (s.port p).slc
  if decide (c.st = .ramp) && decide (c.phase = .enhance) then
    .next ((s.slcTo p fun c => { c with
      st := .on, gateAt := s.dev.aon, phase := .none, tRamp := min dur 0xFFFF, low0 := c.sink && c.low0 }).slcEvt p 0)
  else .next s

/-- The state, and whether its LIMIT came from ON, in which a happening finds the sluice at AON time t: one that coincides with a trip, with
VAUX low or with an off request finds what TRIP or DISCHARGE left in the same microsecond (R216). -/
def Slc.stateAt (c : Slc) (t : Nat) : SlcState × Bool :=
  match c.from' with
  | some (st, lim, u) => if u = t ∧ (c.st = .discharge ∨ c.st = .trip) then (st, lim) else (c.st, c.limOn)
  | none => (c.st, c.limOn)

/-- GATE_RISE_CHECK_FAIL: T_GCK ends without the check having passed (R217). A fault wins over a trip, VAUX low or an off request of the same
microsecond (R216). DESIGN CHOICE (assumption 100): once RAMP, or the LIMIT entered from it, has been left in any other way, the check
lapses; R217 does not say what becomes of it. -/
def execGateRiseCheckFail (p : Port) (s : State) : Res State :=
  let c := (s.port p).slc
  let f := c.stateAt s.dev.aon
  if (decide (f.1 = .ramp) || (decide (f.1 = .limit) && !f.2)) && !c.gck then .next ((s.faultOn p .fetg).slcEvt p 8)
  else .next s

/-- LIMIT_ENTRY: the shunt current reaches ILIM_ACT; `sinceUs` is the time in µs since the accumulator last stopped rising (R203,
R204). DESIGN CHOICE (assumption 90): SLC_STAT.PHASE keeps the ramp's phase in a LIMIT entered from RAMP, which R195 leaves open. -/
def execLimitEntry (p : Port) (sinceUs : Nat) (s : State) : Res State :=
  let c := (s.port p).slc
  if decide (c.st = .ramp) || decide (c.st = .on) then
    .next (((s.slcTo p fun c => { c with st := .limit, limOn := decide (c.st = .on), acc := c.acc - sinceUs }).slcEvt p 1).slcCnt p 1)
  else .next s

/-- LIMIT_EXIT: current below 90 % of ILIM_ACT for 10 µs after `limUs` µs of LIMIT (R196, R204). -/
def execLimitExit (p : Port) (limUs : Nat) (s : State) : Res State :=
  let c := (s.port p).slc
  if c.st = .limit then
    .next (s.slcTo p fun c => { c with
      st := if c.limOn then .on else .ramp, gateAt := if c.limOn then s.dev.aon else c.gateAt, limOn := false, acc := c.acc + 16 * limUs })
  else .next s

/-- TRIP entered with a cause (R204 to R207): the discharge FET on a source port, and TRIPS counts; the output is lost (R208). An off
request that came before is carried into it (R213, R216). -/
def State.trip (s : State) (p : Port) (cause : Nat) : State :=
  let s := (s.onPort p (PortState.keepWas s.dev.aon)).slcTo p fun c => { c with
    st := .trip, limOn := false, phase := .none, tcause := cause, dsc := !c.sink, offIn := !c.onReq
    from' := some ((c.stateAt s.dev.aon).1, (c.stateAt s.dev.aon).2, s.dev.aon) }
  s.onPort p fun x => { x with
    met := { x.met with trips := min (x.met.trips + 1) 0xFFFFFFFF }, pd := { x.pd with ocp := true, lost := true } }

/-- What a trip finds: as `Slc.stateAt`, but that a trip taken already in the same microsecond stands (R216). -/
def Slc.tripFrom (c : Slc) (t : Nat) : SlcState × Bool := if c.st = .trip then (.trip, false) else c.stateAt t

/-- T_FAULT in µs (R203). -/
def tFault (code : Nat) : Nat := 250 * 2 ^ code

/-- FAULT_TIMER_TRIP: the accumulator reaches T_FAULT, within its 5 %, after `limUs` µs of LIMIT (R203, R204). -/
def execFaultTimerTrip (p : Port) (limUs : Nat) (s : State) : Res State :=
  let c := (s.port p).slc
  if decide ((c.tripFrom s.dev.aon).1 = .limit) && decide (19 * 16 * tFault (s.port p).cfg.faultT ≤ 20 * (c.acc + 16 * limUs)) then
    let s := s.onPort p fun x => { x with slc := { x.slc with acc := x.slc.acc + 16 * limUs } }
    .next (((s.trip p 1).slcEvt p 2).slcCnt p 2)
  else .next s

/-- The pass path conducts under control: RAMP, ON or LIMIT. -/
def SlcState.passing (st : SlcState) : Bool := st = .ramp || st = .on || st = .limit
def Slc.passing (c : Slc) : Bool := c.st.passing

/-- FAST_TRIP: the shunt voltage crosses the fast-trip threshold while the gate is not at SRC (R205). It wins over a trip of another cause
in the same microsecond, which then becomes a fast trip and no longer reports or counts its own (R216). -/
def execFastTrip (p : Port) (s : State) : Res State :=
  let c := (s.port p).slc
  if c.passing || decide (c.st = .discharge) then .next (((s.trip p 2).slcEvt p 3).slcCnt p 3)
  else if decide (c.st = .trip) && decide (c.tcause ≠ 2) && decide ((c.stateAt s.dev.aon).1 ≠ .trip) then
    .next (((s.onPort p fun x => { x with slc := { (match x.wasAt s.dev.aon with
      | some was => x.slc.undoAt was (tripBit x.slc.tcause)
      | none => x.slc) with tcause := 2 } }).slcEvt p 3).slcCnt p 3)
  else .next s

/-- REVERSE_CURRENT_TRIP: current from downstream to upstream above its bound for 100 µs (R206). -/
def execReverseCurrentTrip (p : Port) (s : State) : Res State :=
  if ((s.port p).slc.tripFrom s.dev.aon).1.passing then .next (((s.trip p 3).slcEvt p 4).slcCnt p 4) else .next s

/-- RAMP_TIMEOUT: 400 ms after RAMP entry without ON, a LIMIT entered from RAMP included (R199). -/
def execRampTimeout (p : Port) (s : State) : Res State :=
  let c := (s.port p).slc.tripFrom s.dev.aon
  if decide (c.1 = .ramp) || (decide (c.1 = .limit) && !c.2) then .next (((s.trip p 4).slcEvt p 5).slcCnt p 5)
  else .next s

/-- V_GS below 0.5 V, and VBC of a source below vSafe0V, after `dur` 0.1 ms units of TRIP or DISCHARGE: the discharge FET goes off, the gate
stays at SRC, and a window of the FET-short check opens, which sees that VBC (R196, R198, R207, R210, R218). DESIGN CHOICE (assumption 109):
SLC_TIME[15:0] takes the duration on a sink-role port too, of which R211 does not speak. -/
def State.gateDown (s : State) (p : Port) (dur : Nat) : State :=
  s.onPort p fun x => { x with
    slc := { x.slc.openWindow with
      low0 := !x.slc.sink || x.slc.low0, seenLow := !x.slc.sink, gateAt := s.dev.aon, dsc := false, from' := none, tDisch := min dur 0xFFFF } }

/-- A port in LIMP has discharged: the gate stays at SRC and the cistern releases the credits (R219, R252). -/
def State.limpOff (s : State) (p : Port) : State :=
  (s.slcTo p fun c => { c with st := .fault }).ledgerOf p fun s => s.release p

/-- TRIP_DISCHARGED: in TRIP, V_GS is below 0.5 V and VBC below vSafe0V after `dur` 0.1 ms units; the stressed time of the cycle was
`stressUs` µs (R196, R207, R213, R218). -/
def execTripDischarged (p : Port) (dur stressUs : Nat) (s : State) : Res State :=
  if (s.port p).slc.st = .trip then
    let s := (s.gateDown p dur).onPort p fun x => { x with slc := { x.slc with
      offt := max (64 * 2 ^ x.cfg.retry) (63 * stressUs / 1000), offRun := true } }
    if (s.port p).cnt.limp then .next (s.limpOff p)
    else .next (s.slcTo p fun c => { c with st := if c.offIn then .off else .retryWait, offIn := false })
  else .next s

/-- RETRY_OFF_TIME_END: the off-time of R207 ends; from RETRY_WAIT an automatic retry follows (R196, R213). -/
def execRetryOffTimeEnd (p : Port) (s : State) : Res State :=
  let c := (s.port p).slc
  if c.offRun then
    if c.st = .retryWait then
      .next ((s.slcTo p fun c => { c with st := .off, offRun := false, retry := c.onReq }).tryRamp p)
    else .next ((s.onPort p fun x => { x with slc := { x.slc with offRun := false } }).tryRamp p)
  else .next s

/-- RETRY_COUNT_RESET: ON has held for 1 s without a trip (R207). -/
def execRetryCountReset (p : Port) (s : State) : Res State :=
  if (s.port p).slc.st = .on then .next (s.onPort p fun x => { x with slc := { x.slc with retries := 0 } }) else .next s

/-- DISCHARGE_DONE: in DISCHARGE, V_GS is below 0.5 V and VBC below vSafe0V after `dur` 0.1 ms units (R196, R210, R218). In LIMP the
sluice then stays at SRC and the cistern releases the credits (R219, R252). In FAULT VBC below vSafe0V turns DSC off (R219). -/
def execDischargeDone (p : Port) (dur : Nat) (s : State) : Res State :=
  if (s.port p).slc.st = .discharge then
    let s := s.gateDown p dur
    if (s.port p).cnt.limp then .next (s.limpOff p)
    else .next ((s.slcTo p fun c => { c with st := .off }).tryRamp p)
  else if (s.port p).slc.st = .fault then .next (s.onPort p fun x => x.seeLow true)
  else .next s

/-- DSCF: VBC of a source port still above vSafe0V tSafe0V after DISCHARGE or TRIP was entered (R212). -/
def execDscf (p : Port) (s : State) : Res State :=
  let c := (s.port p).slc
  if (decide (c.st = .discharge) || decide (c.st = .trip)) && !c.sink then .next ((s.faultOn p .dscf).slcEvt p 10) else .next s

/-- The FET-short check watches the downstream node (R218): its window is open, or was until a RAMP of the same microsecond (R216), and has seen
that node low, the upstream node is at 4.0 V or more, and behind a sink the stage is disabled and the sibling's sluice OFF. -/
def State.fetsWatch (s : State) (p : Port) : Bool :=
  let x := s.port p
  let g := (s.port (s.stageOf p)).stg
  (x.slc.window || (decide (x.slc.st = .ramp) && (x.wasAt s.dev.aon).any Slc.window)) &&
    (if x.sinkRole then
      x.slc.seenLowS && decide (4000 ≤ x.vbcMv) && !g.den && (!x.cfg.twin || decide ((s.port (sibOf p)).slc.st = .off))
     else x.slc.seenLow && decide (4000 ≤ (s.port (s.stageOf p)).vbsMv))

/-- FETS: the downstream node stands above 1.1 V for 1 ms behind a gate at SRC while the FET-short check watches it, so VBC, that node or the
one above it, stands above vSafe0V (R218, R219). The twin learns that its stage is gone (R220). -/
def execFets (p : Port) (s : State) : Res State :=
  if s.fetsWatch p then
    let s := s.onPort p fun x => { x with slc := { x.slc with low0 := false } }
    .next (((s.faultOn p .fets).slcEvt p 9).twinLost p)
  else .next s

/-- VAUX_LOW: VAUX falls below 7.8 V: every port that was on turns off and its stage stops (R30, R215, R223). DESIGN CHOICE (assumption
91): SLC_EVT.VAUXLO sets and SLC_VAUX_CNT counts for every live port, one whose sluice was OFF among them; R215 does not say whether such
a fall is acted on there. -/
def execVauxLow (s : State) : Res State :=
  let s := { s with dev.vauxOk := false }
  .next <| s.forPorts (allPorts.filter fun p => (s.port p).live && !s.lost p) fun s p =>
    let s := (s.slcEvt p 7).slcCnt p 7
    let s := s.stageCut p
    if (s.port p).slc.passing then
      (s.slcTo p (Slc.discharge s.dev.aon)).onPort p fun x => { x with pd := { x.pd with lost := true } }
    else s

/-- VAUX_RECOVER: VAUX rises above 8.2 V: source ports start their stages, and ports still on request ramp (R30, R215, R223). -/
def execVauxRecover (s : State) : Res State :=
  let s := { s with dev.vauxOk := true }
  .next <| s.forPorts (allPorts.filter fun p => s.works p) fun s p =>
    let x := s.port p
    let s := if x.tc.isSrc || (decide (x.tc.st = .attwaitSrc) && x.slc.low0) then s.stgCmd p (.start 5000) else s
    s.tryRamp p

end Sys2Proof.Machine
end

