-- ==== Sys2Proof/Machine/Stage.lean ====
section
/-! DEFINITION. Power stages, the reference generator, the limp PI and the sync tracker (R222 to R242). -/

namespace Sys2Proof.Machine

/-- The first command of a port's stage queue taken (R135). -/
def State.popStg (s : State) (p : Port) : State := s.onPort p fun x => { x with pd := { x.pd with stgq := x.pd.stgq.drop 1 } }

/-- The held ratio at a stage start: MFF from the measured VBS (R261). -/
def startRatio (fsw : Nat) (rev : Bool) (vbs vin : Nat) : Word :=
  BitVec.ofNat 32 (if rev then ratioM fsw vin vbs else ratioM fsw vbs vin)

/-- The stage starts now: REF at the measured VBS, DEN up; after `wait` period starts, those within 2 µs, PWM begins and REF slews to
the target (R234). -/
def Stg.begin (g : Stg) (mv vbs : Nat) (rev : Bool) (wait : Nat) : Stg :=
  { g with target := mv, kind := .dflt, ref := 1000 * (vbs : Int), trim := 0, den := true, pwm := false
           stopping := false, rev := rev, settled := false, wait := wait, fallA := 0, fallB := 0 }

/-- The slot goes to AUTO through PRESET with the held ratio (R261). -/
def Loop.toAuto (l : Loop) (held : Word) : Loop :=
  { l with auto := true, host := false, held := false, preset := true, mheld := held, skip := false, manPend := false
           fromHost := l.auto && l.preset && l.fromHost, commit := none, ready := false, trig := false }

/-- The period starts that fall within 2 µs of DEN's rise, by where in a period it rises (R234). -/
def State.startWait (s : State) (fsw : Nat) : Nat × State := s.drawIn (2 * fsw / 1000) ((2 * fsw + 999) / 1000)

/-- What an earlier command of the present period did to the slot is undone. -/
def Loop.undo (l was : Loop) (off : Bool) : Loop :=
  let l := { l with held := was.held, preset := was.preset }
  if off then { l with auto := was.auto, host := was.host, mheld := was.mheld, skip := was.skip, manPend := was.manPend
                       fromHost := was.fromHost, ready := was.ready, trig := was.trig, commit := was.commit }
  else l

/-- A command of the reference generator replaces one that came in the same period (R233). -/
def PortState.latest (f : PortState → PortState) (x : PortState) : PortState :=
  let x := match x.prior with
    | some (g, l) => { x with stg := { g with hold := x.stg.hold, meas := x.stg.meas, k := x.stg.k }, loop := x.loop.undo l (!g.den) }
    | none => x
  { f x with prior := some (x.stg, x.loop) }

/-- A command of a hand of port p reaches the reference generator that serves it; the settle reports of the pair end (R233, R235,
R239). -/
def State.refCmd (s : State) (p : Port) (f : PortState → PortState) : State :=
  let s := s.onPort (s.stageOf p) (PortState.latest f)
  if (s.port p).cfg.twin then
    (s.onPort p fun x => { x with stg := { x.stg with settled := false } }).onPort (sibOf p) fun x =>
      { x with stg := { x.stg with settled := false } }
  else s

/-- A new target at a stage that runs; `odd` says that the odd twin commands it (R233, R236). -/
def Stg.retarget (g : Stg) (mv : Nat) (kind : Kind) (odd : Bool) : Stg :=
  { g with target := mv, kind := kind, trim := 0, settled := false, byOdd := odd }

/-- A start command at the slot: a new target while DEN is high, in the direction of the port's role; held while the host holds MANUAL; else
the start (R222, R234, R261). -/
def PortState.start (mv vbs vin : Nat) (rev odd : Bool) (wait : Nat) (x : PortState) : PortState :=
  if x.stg.den then { x with stg := { x.stg.retarget mv .dflt odd with stopping := false, rev := rev } }
  else if !x.loop.auto && x.loop.host then
    { x with loop := { x.loop with held := true }, stg := { x.stg with target := mv, vbs0 := vbs, vin0 := vin, rev := rev, byOdd := odd } }
  else { x with stg := { x.stg.begin mv vbs rev wait with byOdd := odd }
                loop := x.loop.toAuto (startRatio x.cfg.fsw rev vbs vin) }

/-- STAGE_START: a start command reaches the bank with VBS and VIN measured, in mV (R220, R223, R234, R238, R261). -/
def execStageStart (p : Port) (vbs vin : Nat) (s : State) : Res State :=
  match (s.port p).pd.stgq with
  | .start mv :: _ =>
    let s := s.popStg p
    let x := s.port (s.stageOf p)
    let rev := (s.port p).sinkRole
    if !s.dev.vauxOk || s.fetsPair p || x.cnt.limp || s.lost p then .next s
    else
      let s := s.onPort p fun x => { x with stg := { x.stg with hold := true } }
      if x.stg.den && s.sibAttached p then .next s
      else
        let (n, s) := s.startWait x.cfg.fsw
        .next (s.refCmd p (PortState.start mv vbs vin rev (s.stageOf p ≠ p) n))
  | _ => .next s

/-- A stop command at the slot (R234, R261). DESIGN CHOICE (assumption 101): with DEN low already, as while a start is held, it clears HELD
and leaves LOOP_MDUTY; R261 speaks of a stage that runs. -/
def PortState.stop (x : PortState) : PortState :=
  { x with
    stg := if x.stg.den then { x.stg with target := 0, kind := .dflt, stopping := true, trim := 0, settled := false }
           else { x.stg with target := 0 }
    loop := { x.loop with held := false, preset := false, ready := if x.loop.preset then false else x.loop.ready } }

/-- STAGE_STOP: a stop command sets the target to 0 V; a twinned stage stops only when neither twin's hand holds it on (R234, R238,
R261, R268). -/
def execStageStop (p : Port) (s : State) : Res State :=
  match (s.port p).pd.stgq with
  | .stop :: _ =>
    let s := (s.popStg p).onPort p fun x => { x with stg := { x.stg with hold := false } }
    let q := s.stageOf p
    if (s.port p).cfg.twin && (s.port (sibOf p)).stg.hold then .next s
    else if (s.port q).stg.limpPi then .next s
    else .next (s.refCmd p PortState.stop)
  | _ => .next s

/-- The command raises or lowers the current limit. -/
def isIlim : SlcCmd → Bool
  | .ilim _ => true
  | _ => false

/-- TARGET_CHANGE: a new target replaces the old one at once; with the sibling attached REF stays where it is, and in LIMP it goes to 0
(R233, R238, R240). A raised limit that the same hand issued is in force first (R201). -/
def execTargetChange (p : Port) (s : State) : Res State :=
  match (s.port p).pd.stgq with
  | .target mv :: _ =>
    if (s.port p).pd.slcq.any isIlim then .next s else
    let s := s.popStg p
    let d := (s.port p).pd
    let k := match d.want with
      | some c => c.kind
      | none => match d.contract with | some c => c.kind | none => .dflt
    if s.sibAttached p || (s.port (s.stageOf p)).cnt.limp then .next s
    else .next (s.refCmd p fun x => { x with stg := x.stg.retarget mv k (s.stageOf p ≠ p) })
  | _ => .next s

/-- DEN falls: the stage stops; a MANUAL write that waited takes effect; a host-held slot's ratio goes to 0 (R234, R259, R261). -/
def PortState.denFall (x : PortState) : PortState :=
  { x with
    stg := { x.stg with den := false, pwm := false, stopping := false, band := 3, limpPi := false, ref := 0, trim := 0, da := 0, db := 0
                        wait := 0, fallA := 0, fallB := 0 }
    loop := if x.loop.manPend then { x.loop with auto := false, host := true, manPend := false, preset := false, ready := false }
            else { x.loop with ready := false } }

/-- STOP_TIMEOUT: VBS still above vSafe0V 10 ms after REF reached 0 V, in a stop or under the limp PI, whose end a port reset may await (R234,
R240, R394). -/
def execStopTimeout (p : Port) (s : State) : Res State :=
  let g := (s.port p).stg
  if g.den && (g.stopping || g.limpPi) && decide (g.ref = 0) then
    .next ((({ s with pwm.evt := setBit s.pwm.evt 2 }.pwmCnt 4).onPort p PortState.denFall).resetGo p)
  else .next s

/-- REF moves toward the target by at most SLEW × T and stops exactly at it (R233). T is the period in fine steps, 76,800 of which are
a microsecond. -/
def slewRef (cfg : PortCfg) (T : Nat) (ref : Int) (targetMv : Nat) : Int :=
  let step : Int := cfg.slew * 1000 * T / 76800
  let t : Int := 1000 * targetMv
  if ref < t then min (ref + step) t else max (ref - step) t

/-- One step of the limp PI (R240): e in units of 2^-34 of 64 V, M in units of 2^-28; at
takeover the last error counts as the present one, so that the output does not jump. -/
def limpStep (g : Stg) (fsw : Nat) (refUv vbsUv : Int) : Stg :=
  let e : Int := (refUv - vbsUv) * 17179869184 / 64000000
  let m : Int := (g.m : Int) + (16 * (if g.limpPi then e - g.ePrev else 0) + e) / 4096
  { g with limpPi := true, m := (clampI m 0 (mMax fsw)).toNat, ePrev := e }

/-- The inputs of the I/O window as a period start latches them (R255, R257); currents positive in the direction of power flow. -/
def latchIo (x : PortState) (busMax : Nat) (T mLast : Nat) : Vector Word 12 :=
  let g := x.stg
  let refNow : Int := g.ref + g.trim
  let rev := g.rev
  let vreg := if rev then g.meas.vin else if x.slc.st = .on then g.meas.vbc else g.meas.vbs
  let mff := if rev then ratioM x.cfg.fsw g.meas.vin g.meas.vbs else ratioM x.cfg.fsw refNow g.meas.vin
  let flags := bitAt 0 x.loop.first + bitAt 1 rev + field 2 2 g.band + bitAt 4 (x.slc.st = .on) + bitAt 5 x.loop.cc
  #v[voltFr g.meas.vbs, voltFr g.meas.vbc, ampFr (if rev then -g.meas.i else g.meas.i), voltFr g.meas.vin,
     (if rev then voltFr (10000 * (busMax : Int)) else voltFr refNow), voltFr vreg, ampFr (100 * (x.loop.iset : Int)),
     BitVec.ofNat 32 mff, BitVec.ofNat 32 mLast, x.loop.mheld, BitVec.ofNat 32 flags, BitVec.ofNat 32 T]

/-- BUS_MAX of the coefficient block of a port (R263). -/
def State.busMax (s : State) (p : Port) : Nat := (s.trough.word (slotAt p + 0x34)).toNat / 65536

/-- The duties of the period of T fine steps that begins: M mapped under R226, and the edges at which the pins fall (R227). -/
def Stg.apply (g : Stg) (fsw T m : Nat) : Stg :=
  let m := min m (mMax fsw)
  let (a, b, k) := duties fsw m
  let f := pwmFalls fsw m T g.rev
  { g with m := m, da := duty16 a, db := duty16 b, band := k, pwm := true, fallA := f.1, fallB := f.2 }

/-- The M of the period that begins: the held ratio while PRESET waits or runs, the committed M, else the pair of the period just
ending; in MANUAL the manual ratio (R225, R251, R258, R260). -/
def Loop.nextM (l : Loop) (g : Stg) : Nat :=
  if !l.auto then l.mduty.toNat
  else if l.preset then l.mheld.toNat
  else match l.commit with
    | some w => w.toNat
    | none => g.m

/-- What a period start latches from the loop path: the port's own readings, what its sluice's checks see of them, and where a held start
would begin; a settle report ends when its node leaves the band (R218, R234, R235, R239, R305). `g` is the stage that serves the
port. -/
def PortState.latch (x : PortState) (m : LoopMeas) (g : Stg) : PortState :=
  let x := { x with stg := { x.stg with meas := m } }.seeLow (decide (m.vbc < 800000))
  let x := { x with slc := { x.slc with seenLowS := x.slc.seenLowS || (x.slc.window && x.vbsLow) } }
  { x with stg := { x.stg with
      vbs0 := if x.loop.held then x.vbsMv else x.stg.vbs0
      vin0 := if x.loop.held then (m.vin / 1000).toNat else x.stg.vin0
      settled := x.stg.settled && g.den && inBand g.kind g.target (if x.slc.st = .on then x.vbcMv else x.vbsMv) } }

/-- The stage's own period start, in a period of T fine steps (R225, R233, R234, R240, R241). DESIGN CHOICE (assumption 101): the period
starts that pass before PWM begins issue no trigger, which R225 leaves open; and a MANUAL write that takes effect while a stop given in
AUTO is under way is the stop in host-held MANUAL of R261: DEN falls at this period start and LOOP_MDUTY goes to 0. -/
def PortState.period (x : PortState) (T busMax : Nat) : PortState :=
  let vbs := x.stg.meas.vbs
  if x.cnt.limp && x.stg.rev then x.denFall
  else if 0 < x.stg.wait then { x with stg := { x.stg with wait := x.stg.wait - 1 } }
  else
    let off := decide (x.stg.target = 0) && decide (x.stg.ref = 0) && decide (vbs < 800000)
    let ref := slewRef x.cfg T x.stg.ref x.stg.target
    let x := { x with stg := { x.stg with ref := ref } }
    if (x.stg.stopping && (off || (!x.loop.auto && x.loop.host))) || (x.cnt.limp && off) then
      { x.denFall with loop := { x.denFall.loop with
          mduty := if x.stg.stopping && !x.loop.auto && x.loop.host then 0#32 else x.denFall.loop.mduty } }
    else if x.cnt.limp then
      let g := limpStep x.stg x.cfg.fsw ref vbs
      { x with stg := (g.apply x.cfg.fsw T g.m) }
    else
      let y := { x with stg := x.stg.apply x.cfg.fsw T (x.loop.nextM x.stg) }
      let y := { y with loop := { y.loop with m := BitVec.ofNat 32 y.stg.m, commit := none, trig := true } }
      { y with loop := { y.loop with io := latchIo y busMax T x.stg.m } }

/-- PERIOD_START: a period of a port starts with its converters' values, and the stage that it drives steps (R224, R225, R237, R305). A
sluice whose on request waited for the stage may ramp, a twin held for the stage may attach, a port reset that awaited DEN's fall runs, and a
Hard Reset, or an attach, goes on once VBC is down (R141, R162, R170, R196, R394). -/
def execPeriodStart (p : Port) (c : LoopConv) (s : State) : Res State :=
  if s.works p then
    let m := s.loopMeas p c
    let b := s.busMax p
    let q := s.stageOf p
    let T := periodLen (s.port p).cfg.fsw (s.port p).cfg.phase s.pwm.frame (s.port p).stg.k
    let g := (s.port q).stg
    let old := s
    let s := s.onPort p fun x =>
      let x := x.latch m g
      let x := { x with stg := { x.stg with k := (x.stg.k + 1) % max x.cfg.fsw 1 }, prior := none }
      if q = p ∧ g.den then x.period T b else x
    let s := ((((s.vbcFell old p).resetGo p)).tryRamp p).stageUp p
    let s := (if (s.port p).slc.low0 && !(old.port p).slc.low0 then s.vbcLow p else s).twinRetry p
    .next (if (s.port p).cfg.twin then (s.tryRamp (sibOf p)).twinRetry (sibOf p) else s)
  else .next s

/-- The port whose connector the trim follows: the twin whose contract set the stage voltage, while it has one (R169, R236). -/
def State.trimPort (s : State) (p : Port) : Port :=
  if (s.port p).cfg.twin then
    let q := s.stageOf p
    let set' := if (s.port q).stg.byOdd then sibOf q else q
    if (s.port set').pd.contract.isNone && (s.port (sibOf set')).pd.contract.isSome then sibOf set' else set'
  else p

/-- REF_TRIM: every 100 ms the reference is trimmed against the metering path; the other connector of a twinned stage is not trimmed
(R236). -/
def execRefTrim (p : Port) (s : State) : Res State :=
  let q := s.stageOf p
  let g := (s.port q).stg
  let c := s.port p
  if g.den && !g.rev && decide (s.trimPort p = p) && decide (c.slc.st = .on) && c.stg.settled && !(s.port q).loop.cc then
    let lim : Int := (3 * 1000 * (g.target : Int)) / 1000 + 20000
    .next (s.onPort q fun x => { x with stg := { x.stg with
      trim := clampI (x.stg.trim + (1000 * (x.stg.target : Int) - 10 * c.met.vbc) / 2) (-lim) lim } })
  else .next s

/-! ## Frames and SYNC_IN (R229 to R232) -/

/-- 980 µs to 1,020 µs in fine steps. -/
def clampFrame (n : Int) : Nat := (clampI n 75264000 78336000).toNat

/-- FREERUN entered (R229). -/
def State.freerun (s : State) : State :=
  { s with pwm := { s.pwm with sync := .freerun, good := 0, none' := 0, window := false, evt := setBit s.pwm.evt 1 } }.pwmCnt 3

/-- The tracker at the end of a frame (R229): outside TRACK an expected time without a near edge breaks the run of good frames, and a frame
without any edge counts; in TRACK the window of the next expected time opens, unless that edge came early. -/
def Pwm.newFrame (w : Pwm) : Pwm :=
  let w := { w with
    window := decide (w.sync = SyncState.track) && !w.nextSeen
    good := if w.nearSeen then w.good else if w.nextSeen then 1 else 0
    none' := if w.sync = SyncState.acquire ∧ !w.anySeen then w.none' + 1 else 0
    frame := clampFrame ((w.est : Int) + w.corr) }
  { w with corr := 0, nearSeen := w.nextSeen, nextSeen := false, anySeen := false }

/-- FRAME_START: the bank's frame begins with the correction that its edges brought (R224, R229 to R232); SYNC_OUT rises for 100 µs when
it is driven, every port's periods count from 0, and PMP_STAT.LOAD shows the frame that ended. -/
def execFrameStart (s : State) : Res State :=
  if s.bankRuns then
    let s := { s with
      pwm := { s.pwm.newFrame with syncLeft := if s.alm.cfg.syncDrive then 100 else 0 }
      pmp := { s.pmp with load := min (s.pmp.busyCyc * 100 / (24 * 600000)) 100, busyCyc := 0 } }
    let s := s.onPorts fun x => { x with stg := { x.stg with k := 0 } }
    .next (if s.pwm.sync = .acquire ∧ 8 ≤ s.pwm.none' then s.freerun else s)
  else .next s

/-- An error wrapped to half a frame either way (R231). -/
def wrapHalf (e : Int) (est : Nat) : Int := (e + (est / 2 : Nat)) % max (est : Int) 1 - (est / 2 : Nat)

/-- An accepted edge with error e lengthens the next frame by e / 16 and moves the estimate by e / 256 (R230); outside TRACK a frame's
correction is capped at ±5 µs, and FREERUN holds the estimate (R231). DESIGN CHOICE (assumption 97): both quotients are rounded toward minus
infinity to whole fine steps, for which R230 gives no rounding. -/
def Pwm.edge (w : Pwm) (e : Int) : Pwm :=
  { w with corr := if w.sync = .track then w.corr + e / 16 else clampI (w.corr + e / 16) (-384000) 384000
           est := if w.sync = .freerun then clampFrame w.est else clampFrame ((w.est : Int) + e / 256)
           err := e }

/-- The error of an edge lies inside ±3 % of the frame. -/
def Pwm.near (w : Pwm) (e : Int) : Bool := decide (100 * e.natAbs ≤ 3 * w.est)

/-- The window of TRACK is open for an edge with error e: that of the present frame's start for a late edge, that of the next frame's for
an early one (R230). -/
def Pwm.open' (w : Pwm) (e : Int) : Bool := w.near e && (if e < 0 then !w.nextSeen else w.window)

/-- An accepted edge marks the expected time to which it belongs: an early one that of the next frame (R229, R230). -/
def Pwm.seen (w : Pwm) (e : Int) : Pwm :=
  if e < 0 then { w with nextSeen := true } else { w with nearSeen := true, window := false }

/-- The run of expected times with an edge within ±3 %, after a near edge with error e: one more, unless this time has one, and none before
it where the time in between has none (R229). -/
def Pwm.run (w : Pwm) (e : Int) : Nat :=
  if e < 0 then if w.nextSeen then w.good else (if w.nearSeen then w.good else 0) + 1
  else if w.nearSeen then w.good else w.good + 1

/-- SYNC_EDGE: a rising edge on SYNC_IN with error e against the expected time, in fine steps (R229 to R231); ignored in reset and in rest
(R20). DESIGN CHOICE (assumption 97): an edge beyond 3 % in ACQUIRE or FREERUN, which R231 measures and corrects with, counts in
SYNC_IGN_CNT; R231 does not say how it counts. -/
def execSyncEdge (e : Int) (s : State) : Res State :=
  if !s.bankRuns then .next s else
  let w := s.pwm
  match w.sync with
  | .internal => .next s
  | .track =>
    if w.open' e then .next ({ s with pwm := { (w.edge e).seen e with misses := 0 } }.pwmCnt 0)
    else .next (s.pwmCnt 2)
  | _ =>
    let e := wrapHalf e w.est
    let near := w.near e
    let v := { w.edge e with none' := 0, anySeen := true, good := if near then w.run e else w.good }
    let s : State := { s with pwm := if near then v.seen e else v }
    let s := s.pwmCnt (if near then 0 else 2)
    if 4 ≤ s.pwm.good then
      .next { s with pwm := { s.pwm with sync := .track, misses := 0, good := 0, window := false, evt := setBit s.pwm.evt 0 } }
    else .next s

/-- SYNC_WINDOW_MISS: TRACK's window closes with no edge, and the frame ends on the estimate (R229, R230). -/
def execSyncWindowMiss (s : State) : Res State :=
  if s.bankRuns && decide (s.pwm.sync = .track) && s.pwm.window then
    let s := { s with pwm := { s.pwm with window := false, misses := min (s.pwm.misses + 1) 15 } }.pwmCnt 1
    .next (if 8 ≤ s.pwm.misses then s.freerun else s)
  else .next s

end Sys2Proof.Machine
end

