-- ==== Sys2Proof/Machine/PolicyTime.lean ====
section
/-! DEFINITION. The steps that hands run on timers and notices, and the reports of stage and sluice (R137 to R174, R208). -/

namespace Sys2Proof.Machine

/-- A hand's step on the expiry of a timer of an attached port; a stale expiry is discarded (R132, R136). -/
def State.onTimer (s : State) (h : Hand) (p : Port) (t : TimerId) (f : State → State) : Res State :=
  s.timerStep h p t fun s => if s.bmcRuns p then f s else s

/-- VSAFE5V_IN_BAND: VBC is in band at vSafe5V: a Hard Reset is over, and STARTUP is left once the cable is known (R138, R162). -/
def execVsafe5vInBand (p : Port) (vbc : Nat) (s : State) : Res State :=
  if !s.works p || !in5V vbc then .next s else
  let s := s.seeVbc p vbc
  let x := s.port p
  if !x.tc.isSrc then .next s else
  let s := if x.pd.hr = .restore then
    (s.disarm p .srcTurnOn).onPd p fun d => { d with
      src := if d.src = .hardReset then .startup else d.src, hr := .none, holdTwin := false } else s
  let d := (s.port p).pd
  .next (if d.src ≠ .startup then s else if d.cabled then s.offer p else s.arm p .firstSourceCap)

/-- SENDER_RESPONSE_TIMER_EXPIRY (R161): Soft_Reset, or Hard Reset if a Soft_Reset got no Accept. -/
def execSenderResponseTimerExpiry (h : Hand) (p : Port) (s : State) : Res State :=
  s.onTimer h p .senderResponse fun s =>
    let x := s.port p
    let s := s.pdCnt p 11
    if (x.tc.isSrc && decide (x.pd.src = .softReset)) || (x.tc.isSnk && decide (x.pd.snk = .softReset)) then s.hardReset p
    else
      let s := s.vcsFailed p
      let s := if x.tc.isSnk && decide (x.pd.epr = .entry) then s.onPd p fun d => { d with epr := .spr } else s
      s.softReset p

/-- TTYPECSENDSOURCECAP_EXPIRY: the next attempt, or TYPEC_ONLY (R138). -/
def execTtypecsendsourcecapExpiry (h : Hand) (p : Port) (s : State) : Res State :=
  s.onTimer h p .typeCSendSourceCap fun s =>
    let d := (s.port p).pd
    if d.src ≠ .sendCaps then s
    else if 50 ≤ d.capsTry then s.onPd p fun d => { d with src := .typecOnly }
    else s.offerTry p (d.capsTry + 1)

/-- TSRCTRANSITION_EXPIRY: the new reference is commanded, and a raised limit and ISET (R147, R201, R257). -/
def execTsrctransitionExpiry (h : Hand) (p : Port) (s : State) : Res State :=
  s.onTimer h p .srcTransition fun s =>
    match (s.port p).pd.want with
    | some c => if (s.port p).pd.src = .transition then (s.limitsFor p (some c) true).stgCmd p (.target c.mv) else s
    | none => s

/-- TRANSITION_LIMIT_EXPIRY (R147). -/
def execTransitionLimitExpiry (h : Hand) (p : Port) (s : State) : Res State :=
  s.onTimer h p .transitionLimit fun s =>
    if (s.port p).pd.src = .transition then ((s.pdEvt p 15).pdCnt p 9).hardReset p else s

/-- A timer of port p runs. -/
def State.live (s : State) (p : Port) (t : TimerId) : Bool := (s.port p).pd.live.any fun e => decide (e.1 = t)

/-- SETTLE_REPORT: the output of the stage that serves port p has settled with its measured node at mv (R235, R239): the hand sends
PS_RDY for the contract that it awaits, once; the transition limit runs until that is acknowledged (R138, R147); a twin held for the stage may go on (R170). A slot in MANUAL makes no settle report (R258). -/
def execSettleReport (p : Port) (mv : Nat) (s : State) : Res State :=
  let q := s.stageOf p
  let g := (s.port q).stg
  if s.works p && (s.port q).loop.auto && g.den && decide (g.ref = 1000 * (g.target : Int)) && inBand g.kind g.target mv then
    let s := s.onPort p fun x => { x with stg := { x.stg with settled := true } }
    let s := if (s.port p).slc.st = .on then s.seeVbc p mv else s
    let d := (s.port p).pd
    let s :=
      match d.want with
      | some c =>
        if (s.port p).tc.isSrc && decide (d.src = .transition) && s.live p .transitionLimit && !s.live p .srcTransition &&
            decide (c.mv = g.target) && !d.psRdyOut && !d.stgq.any (fun e => match e with | .target _ => true | _ => false) then
          (s.onPd p fun d => { d with psRdyOut := true }).send p .sop .psRdy .psRdy
        else s
      | none => s
    let s := if g.target = 5000 then s.twinRetry p else s
    .next (if g.target = 5000 ∧ (s.port p).cfg.twin then s.twinRetry (sibOf p) else s)
  else .next s

/-- WAIT_WINDOW_EXPIRY: fresh Source_Capabilities (R137, R138). -/
def execWaitWindowExpiry (h : Hand) (p : Port) (s : State) : Res State :=
  s.onTimer h p .waitWindow fun s => if (s.port p).pd.src = .waitReq then s.offer p else s

/-- REJECT_RESEND_CAPS: 100 ms after a Reject without a contract (R138). -/
def execRejectResendCaps (h : Hand) (p : Port) (s : State) : Res State :=
  s.onTimer h p .rejectResend fun s => if (s.port p).pd.src = .admission then s.offer p else s

/-- SINK_WAIT_CAP_TIMER_EXPIRY (R153). -/
def execSinkWaitCapTimerExpiry (h : Hand) (p : Port) (s : State) : Res State :=
  s.onTimer h p .sinkWaitCap fun s => if (s.port p).tc.isSnk ∧ (s.port p).pd.snk = .startup then s.hardReset p else s

/-- PS_TRANSITION_TIMER_EXPIRY (R153). -/
def execPsTransitionTimerExpiry (h : Hand) (p : Port) (s : State) : Res State :=
  s.onTimer h p .psTransition fun s => if (s.port p).tc.isSnk ∧ (s.port p).pd.snk = .transition then s.hardReset p else s

/-- TSINKREQUEST_EXPIRY (R153). -/
def execTsinkrequestExpiry (h : Hand) (p : Port) (s : State) : Res State :=
  s.onTimer h p .sinkRequest fun s => if (s.port p).tc.isSnk ∧ (s.port p).pd.snk = .waited then s.evaluate p else s

/-- TPSHARDRESET_EXPIRY: step 2 of R162: the reference of a source to vSafe0V, and the sluice's off request, of a sink too (R196, R214). A sluice
that is off already leaves nothing to discharge. -/
def execTpshardresetExpiry (h : Hand) (p : Port) (s : State) : Res State :=
  s.onTimer h p .psHardReset fun s =>
    if (s.port p).tc.isSnk && (s.port p).pd.snkHr then s.slcCmd p .off
    else if !((s.port p).tc.isSrc && decide ((s.port p).pd.hr = .off)) then s else
    let s := (((s.stgCmd p (.target 0)).slcCmd p .off).onPd p fun d => { d with hr := .discharge }).arm p .safe0V
    if (s.port p).slc.st = .off ∧ (s.port p).slc.low0 then s.hrDischarged p else s

/-- TSRCRECOVER_EXPIRY: step 4 of R162: VCONN returns, the reference goes to vSafe5V and the sluice is on request (R214). A twin whose
sibling holds the stage elsewhere waits (R238). -/
def execTsrcrecoverExpiry (h : Hand) (p : Port) (s : State) : Res State :=
  s.onTimer h p .srcRecover fun s =>
    if (s.port p).pd.hr ≠ .recover then s else
    let held := s.sibAttached p && !s.stage5V p
    let s := ((s.onPd p fun d => { d with hr := .restore, holdTwin := held }).arm p .srcTurnOn).vconnTry p
    let s := (s.limitsNow p).stgCmd p (.start 5000)
    s.slcCmd p .on

/-- SINK_HARD_RESET_RECOVERY_EXPIRY: VBC has not come back above 4.0 V: detach (R163). -/
def execSinkHardResetRecoveryExpiry (h : Hand) (p : Port) (s : State) : Res State :=
  s.onTimer h p .sinkHardReset fun s =>
    if (s.port p).tc.isSnk ∧ (s.port p).pd.snkHr then (s.ledgerOf p fun s => s.detach p).twinFreed p else s

/-- SINK_HARD_RESET_VBUS_RETURN: VBC above 4.0 V again during a Hard Reset (R153, R163). Beside an attached sibling the sluice stays off until
a contract draws current (R172). -/
def execSinkHardResetVbusReturn (p : Port) (vbc : Nat) (s : State) : Res State :=
  if s.works p && (s.port p).tc.isSnk && (s.port p).pd.snkHr && decide (4000 < vbc) then
    let s := ((s.seeVbc p vbc).disarm p .sinkHardReset).disarm p .psHardReset
    let s := s.onPd p fun d => { d with snk := .startup, snkHr := false, cabled := true }
    let s := (s.arm p .sinkWaitCap).limitsNow p
    .next (if s.sibAttached p then s else s.slcCmd p .on)
  else .next s

/-- TPPSTIMEOUT_EXPIRY (R148). -/
def execTppstimeoutExpiry (h : Hand) (p : Port) (s : State) : Res State :=
  s.onTimer h p .ppsTimeout fun s =>
    match (s.port p).pd.contract with
    | some c => if c.kind = .pps then ((s.pdEvt p 14).pdCnt p 11).hardReset p else s
    | none => s

/-- TSOURCEEPRKEEPALIVE_EXPIRY (R151). -/
def execTsourceeprkeepaliveExpiry (h : Hand) (p : Port) (s : State) : Res State :=
  s.onTimer h p .sourceEprKeepAlive fun s => if (s.port p).pd.eprMsgs then (s.pdEvt p 13).hardReset p else s

/-- TSINKEPRKEEPALIVE_EXPIRY: the next EPR_KeepAlive (R155). -/
def execTsinkeprkeepaliveExpiry (h : Hand) (p : Port) (s : State) : Res State :=
  s.onTimer h p .sinkEprKeepAlive fun s =>
    if (s.port p).pd.epr = .epr then (s.send p .sop .keepAlive .eprKeepAlive).arm p .sinkEprKeepAlive else s

/-- TVCONNSOURCEON_EXPIRY: Hard Reset; the former VCONN source keeps VCONN, at a source until step 1 of R162 removes it and step 4
returns it (R158, R162). -/
def execTvconnsourceonExpiry (h : Hand) (p : Port) (s : State) : Res State :=
  s.onTimer h p .vconnSourceOn fun s => if (s.port p).pd.vcs = 1 then s.hardReset p else s

/-- SHED_NOTICE: a selected port, or a twin whose sibling has left in the cistern's grant, sends its offer, or holds it until READY (R165 to
R167); a twin that attaches, or is held, has the free stage brought back to vSafe5V (R170, R238, R242). -/
def execShedNotice (h : Hand) (p : Port) (s : State) : Res State :=
  s.handStep h (some p) (fun e => decide (e = .shed)) fun _ s =>
    let s := if s.bmcRuns p && ((s.port p).pd.shed || (s.port p).pd.trigger) then s.offerDue p else s
    if s.works p then (s.twinStart p).twinRetry p else s

/-- SHED_LIMIT_EXPIRY (R167). -/
def execShedLimitExpiry (h : Hand) (p : Port) (s : State) : Res State :=
  s.onTimer h p .shedLimit fun s => if (s.port p).pd.shed then s.hardReset p else s

/-- FREE has risen by 10 % of P_CLASS above the budget of an offer made in this attachment that it bound (R165); P_CLASS in 0.1 mW. -/
def State.freeRose (s : State) (p : Port) : Bool :=
  let x := s.port p
  !x.pd.offer.pdos.isEmpty && x.pd.offer.bound.getLsbD 0 &&
  decide ((pClass s.alm.cfg.feat x.cfg : Int) ≤ 10000 * (((x.pd.charge : Int) + s.free) - x.pd.offer.budget))

/-- FREE_RISE: FREE rises; a held attach asks again (R141), and an offer that FREE bound may be raised, no sooner than the re-offer
spacing (R165). -/
def execFreeRise (p : Port) (s : State) : Res State :=
  if !s.works p then .next s else
  let x := s.port p
  match x.tc.st with
  | .attwaitSrc =>
    if x.pd.holdCred && x.tc.ccDone then .next (s.tryAttach p) else .next s
  | .attSrc =>
    if s.freeRose p then
      if x.pd.src = .ready ∧ x.pd.spacing then .next (s.offer p)
      else .next (s.onPd p fun d => { d with due := true })
    else .next s
  | _ => .next s

/-- REOFFER_SPACING_EXPIRY (R165). -/
def execReofferSpacingExpiry (h : Hand) (p : Port) (s : State) : Res State :=
  s.onTimer h p .reofferSpacing fun s =>
    let s := s.onPd p fun d => { d with spacing := true }
    if (s.port p).pd.due ∧ (s.port p).pd.src = .ready then s.offer p else s

/-- Loss of output (R208): an explicit contract ends with Hard Reset; else the source offers afresh from STARTUP. -/
def State.loseOutput (s : State) (p : Port) : State :=
  let s := s.onPd p fun d => { d with lost := false }
  let x := s.port p
  if x.pd.contract.isSome then s.hardReset p
  else if x.tc.isSrc then
    let s := ([TimerId.senderResponse, .typeCSendSourceCap, .waitWindow, .rejectResend, .srcTransition, .transitionLimit].foldl
      (fun s t => s.disarm p t) s).dropPledge p
    if (s.port p).tc.isSrc then s.onPd p fun d => { d with src := .startup, capsTry := 0 } else s
  else s

/-- SLUICE_STATE_CHANGE: a hand takes a change of the sluice (R162, R208, R215, R220, R242). ON starts a sink's stage; leaving ON stops
it (R234). -/
def execSluiceStateChange (h : Hand) (p : Port) (s : State) : Res State :=
  s.handStep h (some p) (fun e => decide (e = .sluice)) fun _ s =>
    if !s.bmcRuns p then s else
    let x := s.port p
    if x.tc.isSnk then
      let s :=
        if x.slc.st = .on ∧ !x.stg.hold then s.stgCmd p (.start 0)
        else if x.slc.st ≠ .on ∧ x.stg.hold then s.stgCmd p .stop
        else s
      if x.pd.lost && !x.pd.snkHr then s.loseOutput p else s
    else if x.pd.hr ≠ .none then
      let s := s.onPd p fun d => { d with lost := false }
      if x.pd.hr = .discharge ∧ x.slc.st = .off ∧ x.slc.low0 then s.hrDischarged p else s
    else if x.pd.lost then s.loseOutput p else s

/-- CRIER_ALERT: a free hand takes a request of the crier: every port attached as source has a Source Input Change to send (R372,
R373). -/
def execCrierAlert (h : Hand) (s : State) : Res State :=
  s.handStep h none (fun e => match e with | .crier _ => true | _ => false) fun e s =>
    match e with
    | .crier c => s.forPorts (allPorts.filter fun p => s.bmcRuns p && (s.port p).tc.isSrc) fun s p => s.alertInput p c
    | _ => s

/-- ALERT_WAIT_EXPIRY (R174). -/
def execAlertWaitExpiry (h : Hand) (p : Port) (s : State) : Res State :=
  s.onTimer h p .alertWait fun s => (s.onPd p fun d => { d with alertOut := false }).alertTry p

end Sys2Proof.Machine
end

