-- ==== Sys2Proof/Machine/PyrogCore.lean ====
section
/-! DEFINITION. The Pyrog core (R269 to R302): encodings, operand specifiers, data memory, rounding and fit, and the operations that
the instructions share. -/

namespace Sys2Proof.Machine

/-! ## Types, rounding, fit -/

inductive PyTy where
  | f32 | f16 | i32 | u32
  deriving DecidableEq, Repr

inductive PyRnd where
  | t | n | c
  deriving DecidableEq, Repr

/-- Operand width in bytes (R272). -/
def PyTy.size : PyTy → Nat
  | .f16 => 2
  | _ => 4

def PyTy.bits (t : PyTy) : Nat := 8 * t.size

/-- The number that a value of a type stands for; an FR16 value lies in the low 16 bits here (R272). -/
def pyVal (t : PyTy) (w : Word) : Int :=
  match t with
  | .f16 => (w.setWidth 16).toInt
  | .u32 => w.toNat
  | _ => w.toInt

def PyTy.lo : PyTy → Int
  | .f16 => -32768
  | .u32 => 0
  | _ => -2147483648

def PyTy.hi : PyTy → Int
  | .f16 => 32767
  | .u32 => 4294967295
  | _ => 2147483647

/-- A result brought into its type: clamped with .S, else the low bits (R275). -/
def pyFit (t : PyTy) (sat : Bool) (v : Int) : Word :=
  let x := if sat then clampI v t.lo t.hi else v
  match t with
  | .f16 => (BitVec.ofInt 16 x).setWidth 32
  | _ => BitVec.ofInt 32 x

/-- k low bits dropped under the RND field (R274). -/
def pyRound (r : PyRnd) (k : Nat) (v : Int) : Int :=
  if k = 0 then v else
  let h : Int := (2 ^ (k - 1) : Nat)
  let d : Int := (2 ^ k : Nat)
  match r with
  | .t => v / d
  | .n => (v + h) / d
  | .c => let q := (v + h) / d
          if v % d = h ∧ q % 2 = 1 then q - 1 else q

/-! ## Encoding (R276, R277, R282) -/

/-- The instructions. -/
inductive PyOp where
  | mov | mova | lea | add | sub | neg | abs | mul | mac | msu | shl | shr | asr | rnd | sat | min | max | clmp
  | and | or | xor | not | ceq | cne | clt | cle | cltu | cleu | bz | bnz | bra | jmp | call | ret | stg | stgb
  | endS | trap | nop
  deriving DecidableEq, Repr

/-- The opcode table of R282: opcode, instruction, operands named. -/
def pyTable : List (Nat × PyOp × Nat) :=
  [(0x01, .mov, 2), (0x02, .mova, 2), (0x03, .lea, 2), (0x08, .add, 3), (0x09, .sub, 3), (0x0A, .neg, 2), (0x0B, .abs, 2),
   (0x0C, .mul, 3), (0x0D, .mac, 3), (0x0E, .msu, 3), (0x10, .shl, 3), (0x11, .shr, 3), (0x12, .asr, 3), (0x13, .rnd, 2),
   (0x14, .sat, 2), (0x15, .min, 3), (0x16, .max, 3), (0x17, .clmp, 3), (0x18, .and, 3), (0x19, .or, 3)] ++
  [(0x1A, .xor, 3), (0x1B, .not, 2), (0x20, .ceq, 3), (0x21, .cne, 3), (0x22, .clt, 3), (0x23, .cle, 3), (0x24, .cltu, 3),
   (0x25, .cleu, 3), (0x28, .bz, 2), (0x29, .bnz, 2), (0x2A, .bra, 1), (0x2B, .jmp, 1), (0x2C, .call, 1), (0x2D, .ret, 0),
   (0x30, .stg, 3), (0x31, .stgb, 3), (0x38, .endS, 0), (0x39, .trap, 1), (0x3A, .nop, 0)]

/-- An operand specifier (R277). -/
inductive PySpec where
  | reg (r : Fin 16) | immS (v : BitVec 12) | immL (w : Word) | absLocal (e : Half) | portRel (d : BitVec 12)
  | ind (r : Fin 16) | postInc (r : Fin 16) | preDec (r : Fin 16) | baseDisp (r : Fin 16) (d : Half)
  | indexed (b i : Fin 16) | circ (ptr : Fin 16) (k : Fin 7) (down : Bool) | io (i : Fin 32) | acc (a part : Fin 4)
  deriving DecidableEq, Repr

/-- An instruction as fetched: its fields, its operands, its address and the address after it. -/
structure PyInst where
  op   : PyOp
  ty   : PyTy
  rnd  : PyRnd
  sat  : Bool
  ops  : List PySpec
  addr : Nat
  next : Nat
  deriving DecidableEq, Repr

/-- What a fetch gives: an instruction; a valid opcode whose specifiers trap; nothing that can be decoded, with its trap code; or an
instruction of a ROM program, which the manual does not print: what the program does is taken as a whole (R265, R267, assumption 5). -/
inductive PyDec where
  | ok (i : PyInst)
  | badSpec (op : PyOp) (code : Nat)
  | bad (code : Nat)
  | rom
  deriving DecidableEq, Repr

/-- A register number of four bits. -/
def reg4 (h : Half) (i : Nat) : Fin 16 := ⟨h.toNat / 2 ^ i % 16, Nat.mod_lt _ (by decide)⟩

/-- One specifier from its halfwords: the specifier and the halfwords after it; none for a reserved mode or a bit that must be 0.
FR16 takes one extension in mode 0x2. -/
def decodeSpec (ty : PyTy) : List Half → Option (PySpec × List Half)
  | [] => none
  | h :: t =>
    let n := h.toNat
    let lo8 := n % 256
    match n / 4096 with
    | 0x0 => if lo8 = 0 then some (.reg (reg4 h 8), t) else none
    | 0x1 => some (.immS (h.setWidth 12), t)
    | 0x2 =>
      if n % 4096 ≠ 0 then none else
      match ty, t with
      | .f16, a :: u => some (.immL (a.setWidth 32), u)
      | .f16, [] => none
      | _, a :: b :: u => some (.immL (a ++ b), u)
      | _, _ => none
    | 0x3 => if n % 4096 ≠ 0 then none else match t with | a :: u => some (.absLocal a, u) | [] => none
    | 0x4 => some (.portRel (h.setWidth 12), t)
    | 0x5 => if lo8 = 0 then some (.ind (reg4 h 8), t) else none
    | 0x6 => if lo8 = 0 then some (.postInc (reg4 h 8), t) else none
    | 0x7 => if lo8 = 0 then some (.preDec (reg4 h 8), t) else none
    | 0x8 => if lo8 = 0 then (match t with | a :: u => some (.baseDisp (reg4 h 8) a, u) | [] => none) else none
    | 0x9 => if n % 16 = 0 then some (.indexed (reg4 h 8) (reg4 h 4), t) else none
    | 0xA => if n % 16 = 0 then (if hk : n / 32 % 8 < 7 then some (.circ (reg4 h 8) ⟨n / 32 % 8, hk⟩ (n / 16 % 2 = 1), t) else none)
             else none
    | 0xB => if n / 32 % 128 = 0 then some (.io ⟨n % 32, Nat.mod_lt _ (by decide)⟩, t) else none
    | 0xC => if n % 64 = 0 ∧ n / 1024 % 4 = 0 then
               some (.acc ⟨n / 256 % 4, Nat.mod_lt _ (by decide)⟩ ⟨n / 64 % 4, Nat.mod_lt _ (by decide)⟩, t) else none
    | _ => none

/-- n specifiers in order. -/
def decodeSpecs (ty : PyTy) : Nat → List Half → Option (List PySpec × List Half)
  | 0, t => some ([], t)
  | n + 1, t =>
    match decodeSpec ty t with
    | none => none
    | some (a, t) => match decodeSpecs ty n t with
      | none => none
      | some (l, t) => some (a :: l, t)

/-- A specifier's halfwords. -/
def encodeSpec (ty : PyTy) : PySpec → List Half
  | .reg r => [BitVec.ofNat 16 (r.val * 256)]
  | .immS v => [0x1000#16 ||| v.setWidth 16]
  | .immL w => match ty with
    | .f16 => [0x2000#16, w.setWidth 16]
    | _ => [0x2000#16, w.extractLsb' 16 16, w.setWidth 16]
  | .absLocal e => [0x3000#16, e]
  | .portRel d => [0x4000#16 ||| d.setWidth 16]
  | .ind r => [BitVec.ofNat 16 (0x5000 + r.val * 256)]
  | .postInc r => [BitVec.ofNat 16 (0x6000 + r.val * 256)]
  | .preDec r => [BitVec.ofNat 16 (0x7000 + r.val * 256)]
  | .baseDisp r d => [BitVec.ofNat 16 (0x8000 + r.val * 256), d]
  | .indexed b i => [BitVec.ofNat 16 (0x9000 + b.val * 256 + i.val * 16)]
  | .circ ptr k down => [BitVec.ofNat 16 (0xA000 + ptr.val * 256 + k.val * 32 + (if down then 16 else 0))]
  | .io i => [BitVec.ofNat 16 (0xB000 + i.val)]
  | .acc a part => [BitVec.ofNat 16 (0xC000 + a.val * 256 + part.val * 64)]

def PyTy.code : PyTy → Nat
  | .f32 => 0 | .f16 => 1 | .i32 => 2 | .u32 => 3

def PyRnd.code : PyRnd → Nat
  | .t => 0 | .n => 1 | .c => 2

/-- The opcode halfword (R276). -/
def opHalf (op : Nat) (ty : PyTy) (rnd : PyRnd) (sat : Bool) : Half :=
  BitVec.ofNat 16 (op * 512 + ty.code * 128 + rnd.code * 32 + (if sat then 16 else 0))

def PyOp.code (o : PyOp) : Nat := ((pyTable.find? fun r => r.2.1 = o).map fun r => r.1).getD 0
def PyOp.arity (o : PyOp) : Nat := ((pyTable.find? fun r => r.2.1 = o).map fun r => r.2.2).getD 0

/-- An instruction's halfwords. -/
def encodeInst (i : PyInst) : List Half :=
  opHalf i.op.code i.ty i.rnd i.sat :: (i.ops.map (encodeSpec i.ty)).flatten

/-- The fields of an instruction that has an encoding at its address: the operands of its opcode, FR32 for STG and STGB, a long
immediate of FR16 in one halfword, and at most 8 halfwords (R276, R277, R279, R282). -/
def PyInst.wf (i : PyInst) : Bool :=
  decide (i.ops.length = i.op.arity) &&
  (match i.op with | .stg => decide (i.ty = .f32) | .stgb => decide (i.ty = .f32) | _ => true) &&
  (i.ops.all fun o => match o with | .immL w => decide (i.ty ≠ .f16) || decide (w.toNat < 65536) | _ => true) &&
  decide ((encodeInst i).length ≤ 8) && decide (i.next = i.addr + 2 * (encodeInst i).length)

/-- n halfwords of program memory from an address on; beyond its end they count as 0. -/
def Prog.halves (m : Prog) (a : Nat) : Nat → List Half
  | 0 => []
  | n + 1 => (if a + 1 < 131072 then m.read a ++ m.read (a + 1) else 0#16) :: Prog.halves m (a + 2) n

/-- The decoder (R276, R277, R279, R282, R299). -/
def decodeInst (addr : Nat) : List Half → PyDec
  | [] => .bad 0x07
  | h :: t =>
    let n := h.toNat
    let ty : PyTy := match n / 128 % 4 with | 0 => .f32 | 1 => .f16 | 2 => .i32 | _ => .u32
    let sat := decide (n / 16 % 2 = 1)
    match pyTable.find? fun r => r.1 = n / 512 with
    | none => .bad 0x01
    | some r =>
      let op : PyOp := r.2.1
      if n % 16 ≠ 0 ∨ n / 32 % 4 = 3 then .bad 0x01
      else if (op == PyOp.stg || op == PyOp.stgb) && ty != PyTy.f32 then .bad 0x01
      else
        let rnd : PyRnd := match n / 32 % 4 with | 0 => .t | 1 => .n | _ => .c
        match decodeSpecs ty r.2.2 t with
        | none => .badSpec op 0x02
        | some (l, u) =>
          let len := 1 + t.length - u.length
          if 8 < len then .badSpec op 0x02 else .ok ⟨op, ty, rnd, sat, l, addr, addr + 2 * len⟩

/-- The instruction at an address; a fetch past the end of program memory traps (R279, R291). -/
def Prog.fetch (m : Prog) (a : Nat) : PyDec :=
  if m.rom then .rom else
  if 131072 ≤ a then .bad 0x07 else
  match decodeInst a (m.halves a 9) with
  | .ok i => if 131072 < i.next then .badSpec i.op 0x07 else .ok i
  | d => d

/-! ## Data memory (R245, R273) -/

/-- The parts of a sample's data space. -/
inductive PyRegion where
  | coef | coefFar | line | slot | loc | none
  deriving DecidableEq, Repr

/-- Where a byte address lies in the data space of a sample. -/
def PumpRun.region (r : PumpRun) (a : Nat) : PyRegion :=
  let pb := slotAt r.port
  if pb ≤ a ∧ a < pb + 0x1000 then
    let o := a - pb
    if o < 0x400 then (if o < r.coefLn.length then .coef else .coefFar)
    else if o < 0x500 then .line else .slot
  else if 0x100500 ≤ a ∧ a < 0x104000 then .loc
  else .none

/-- What an unwritten byte of local memory reads as: it is undefined at dispatch (R246, assumption 6). -/
def PumpRun.locDflt (r : PumpRun) (a : Nat) : Byte := Config.localByte r.k a

/-- A sample and the trough it works on. -/
structure PyM where
  run    : PumpRun
  trough : Trough
  deriving DecidableEq, Repr

def PyM.byte (m : PyM) (a : Nat) : Byte :=
  let o := a - slotAt m.run.port
  match m.run.region a with
  | .coef => m.run.coefLn.getD o 0#8
  | .coefFar => m.trough.read a
  | .line => m.run.stLn.getD (o - 0x400) 0#8
  | .slot => m.trough.read a
  | .loc => memRead m.run.locDflt m.run.loc a
  | .none => 0#8

def PyM.put (m : PyM) (a : Nat) (b : Byte) : PyM :=
  let o := a - slotAt m.run.port
  match m.run.region a with
  | .coef => { m with run := { m.run with coefLn := m.run.coefLn.set o b } }
  | .line => { m with run := { m.run with stLn := m.run.stLn.set (o - 0x400) b, stWritten := true } }
  | .slot => { m with trough := m.trough.write a [b] }
  | .loc => { m with run := { m.run with loc := memWrite m.run.locDflt m.run.loc a b } }
  | _ => m

def PyM.bytes (m : PyM) (a : Nat) : Nat → List Byte
  | 0 => []
  | n + 1 => m.byte a :: m.bytes (a + 1) n

def PyM.puts (m : PyM) (a : Nat) : List Byte → PyM
  | [] => m
  | b :: t => (m.put a b).puts (a + 1) t

/-- The check of a data access of n bytes at an alignment: trap 0x03 outside the data space, 0x04 misaligned (R273, R299). -/
def PyM.check (m : PyM) (a n align : Nat) : Except Nat Unit :=
  if m.run.region a = .none ∨ m.run.region (a + n - 1) = .none then .error 0x03
  else if a % align ≠ 0 then .error 0x04
  else .ok ()

/-- The cost of one memory operand read or written: a cycle, or a trough grant (R245, R301). -/
def PyM.cost (m : PyM) (a : Nat) (write : Bool) : PyM :=
  match m.run.region a with
  | .slot => { m with run := { m.run with grants := m.run.grants + 1 } }
  | .coefFar => if write then m else { m with run := { m.run with grants := m.run.grants + 1 } }
  | _ => { m with run := { m.run with cycles := m.run.cycles + 1 } }

/-- An access costs a trough grant: it lies beyond the slot buffer (R245). -/
def PyRegion.far : PyRegion → Bool
  | .slot => true
  | .coefFar => true
  | _ => false

/-- The cost of a pair of operands of n bytes each, read as one: a pair that straddles the end of the slot buffer's part of the slot
costs what each of its words costs there (R288, R301). -/
def PyM.costPair (m : PyM) (a n : Nat) : PyM :=
  let m' := m.cost a false
  if (m.run.region a).far = (m.run.region (a + n)).far then m' else m'.cost (a + n) false

/-- Trough grants of the stage unit for an access of n bytes at a: one if any byte lies beyond the slot buffer; a write of coefficient
bytes is discarded and makes none (R245, R296). -/
def PumpRun.stageGrants (r : PumpRun) (a n : Nat) (write : Bool) : Nat :=
  if (List.range n).any fun k => match r.region (a + k) with | .slot => true | .coefFar => !write | _ => false then 1 else 0

/-! ## Operands (R277 to R281) -/

/-- A register auto-modified: g14 traps (R270). -/
def PumpRun.setG (r : PumpRun) (i : Fin 16) (w : Word) : Except Nat PumpRun :=
  if i.val = 14 then .error 0x02 else .ok { r with g := r.g.set i w }

/-- A specifier evaluated: the place, and the auto-modification done; size is the operand's. -/
def evalSpec (size : Nat) (ty : PyTy) (r : PumpRun) : PySpec → Except Nat (PyPlace × PumpRun)
  | .reg i => .ok (.reg i, r)
  | .immS v => .ok (.imm (match ty with
      | .f32 => BitVec.ofInt 32 (v.toInt * 1048576)
      | .f16 => (BitVec.ofInt 16 (v.toInt * 16)).setWidth 32
      | _ => v.signExtend 32), r)
  | .immL w => .ok (.imm w, r)
  | .absLocal e => .ok (.mem (0x100000 + e.toNat), r)
  | .portRel d => .ok (.mem (slotAt r.port + d.toNat), r)
  | .ind i => .ok (.mem r.g[i].toNat, r)
  | .postInc i => do
      let r' ← r.setG i (r.g[i] + BitVec.ofNat 32 size)
      .ok (.mem r.g[i].toNat, r')
  | .preDec i => do
      let r' ← r.setG i (r.g[i] - BitVec.ofNat 32 size)
      .ok (.mem (r.g[i] - BitVec.ofNat 32 size).toNat, r')
  | .baseDisp i d => .ok (.mem (r.g[i] + d.signExtend 32).toNat, r)
  | .indexed b i => .ok (.mem (r.g[b] + r.g[i] * BitVec.ofNat 32 size).toNat, r)
  | .circ ptr k down =>
      let base := r.g[2 * k.val]'(by omega)
      let len := (r.g[2 * k.val + 1]'(by omega)).toNat
      let a := r.g[ptr]
      if len = 0 ∨ len % size ≠ 0 then .error 0x08
      else if a.toNat < base.toNat ∨ base.toNat + len ≤ a.toNat then .error 0x03
      else do
        let off := a.toNat - base.toNat
        let off' := if down then (off + len - size % len) % len else (off + size) % len
        let r' ← r.setG ptr (base + BitVec.ofNat 32 off')
        .ok (.mem a.toNat, r')
  | .io i => .ok (.io i.val, r)
  | .acc a part => .ok (.acc a part.val, r)

/-- An FR16 value in a register, an accumulator part or an I/O entry lies in bits [31:16] (R272). -/
def upIn (ty : PyTy) (w : Word) : Word := if ty = .f16 then w >>> 16 else w
def upOut (ty : PyTy) (w : Word) : Word := if ty = .f16 then w <<< 16 else w

/-- An accumulator part read (R271, R281). -/
def accPart (a : Acc) (part : Nat) : Word :=
  match part with
  | 1 => a.extractLsb' 32 32
  | 2 => a.extractLsb' 0 32
  | _ => (a.extractLsb' 64 8).signExtend 32

/-- An accumulator part written: the high word's sign goes into the guard byte (R281). -/
def accPut (a : Acc) (part : Nat) (w : Word) : Acc :=
  match part with
  | 1 => (w.signExtend 40 : BitVec 40) ++ a.extractLsb' 0 32
  | 2 => a.extractLsb' 32 40 ++ w
  | _ => w.extractLsb' 0 8 ++ a.extractLsb' 0 64

/-- An I/O entry read (R255, R281). -/
def PumpRun.ioRead (r : PumpRun) (i : Nat) : Word :=
  if h : i < 12 then r.io[i] else if i = 16 then r.mv else if i = 17 then r.mi else if i = 18 then r.user else 0#32

/-- A source place read as a type (R272, R273, R281). -/
def PyM.read (m : PyM) (ty : PyTy) : PyPlace → Except Nat (Word × PyM)
  | .imm w => .ok (w, m)
  | .reg i => .ok (upIn ty m.run.g[i], m)
  | .mem a => do
      m.check a ty.size ty.size
      .ok (BitVec.ofNat 32 (beNat (m.bytes a ty.size)), m.cost a false)
  | .io i => .ok (upIn ty (m.run.ioRead i), m)
  | .acc a part => if part = 0 then .error 0x02 else .ok (upIn ty (accPart m.run.acc[a] part), m)

/-- A destination place written as a type (R270, R281). -/
def PyM.write (m : PyM) (ty : PyTy) (w : Word) : PyPlace → Except Nat PyM
  | .imm _ => .error 0x02
  | .reg i => do
      let r ← m.run.setG i (upOut ty w)
      .ok { m with run := r }
  | .mem a => do
      m.check a ty.size ty.size
      .ok ((m.puts a (beBytes ty.size w.toNat)).cost a true)
  | .io i =>
      let v := upOut ty w
      if i = 16 then .ok { m with run := { m.run with mv := v } }
      else if i = 17 then .ok { m with run := { m.run with mi := v } }
      else if i = 18 then .ok { m with run := { m.run with user := v } }
      else .ok m
  | .acc a part =>
      if part = 0 then .error 0x02
      else .ok { m with run := { m.run with acc := m.run.acc.set a (accPut m.run.acc[a] part (upOut ty w)) } }

/-- A specifier evaluated for the machine. -/
def PyM.eval (m : PyM) (size : Nat) (ty : PyTy) (s : PySpec) : Except Nat (PyPlace × PyM) := do
  let (p, r) ← evalSpec size ty m.run s
  .ok (p, { m with run := r })

/-- Operand i of an instruction; one that is not there cannot be decoded. -/
def PyInst.opd (i : PyInst) (k : Nat) : PySpec := i.ops.getD k (.immS 0#12)

/-- A source operand. -/
def PyM.src (m : PyM) (ty : PyTy) (s : PySpec) : Except Nat (Word × PyM) := do
  let (p, m) ← m.eval ty.size ty s
  m.read ty p

/-- A destination operand. -/
def PyM.dst (m : PyM) (ty : PyTy) (s : PySpec) (w : Word) : Except Nat PyM := do
  let (p, m) ← m.eval ty.size ty s
  m.write ty w p

/-- A memory operand's address: modes 0x3 to 0xA only (R281). -/
def PyM.memOp (m : PyM) (size : Nat) (s : PySpec) : Except Nat (Nat × PyM) := do
  match ← m.eval size .u32 s with
  | (.mem a, m) => .ok (a, m)
  | _ => .error 0x02

/-- A whole accumulator. -/
def PySpec.whole : PySpec → Option (Fin 4)
  | .acc a part => if part.val = 0 then some a else none
  | _ => none

/-- A register named directly. -/
def PySpec.direct : PySpec → Option (Fin 16)
  | .reg r => some r
  | _ => none

/-- A branch displacement in halfwords (R291). -/
def PySpec.disp (ty : PyTy) : PySpec → Option Int
  | .immS v => some v.toInt
  | .immL w => some (if ty = .f16 then (w.setWidth 16).toInt else w.toInt)
  | _ => none

/-- The accumulator form of a product (R285). -/
def accProduct (t : PyTy) (p : Int) : Int :=
  match t with
  | .f32 => p * 2
  | .f16 => p * 8589934592
  | _ => p

/-- acc_fit of R285. -/
def accFit (sat : Bool) (v : Int) : Acc :=
  BitVec.ofInt 72 (if sat then clampI v (-2361183241434822606848) 2361183241434822606847 else v)

/-! ## What an instruction does -/

/-- g15 stays within its bounds after an instruction, or the instruction traps (R270). -/
def PyM.spOk (m : PyM) : Except Nat PyM :=
  if m.run.g[15].toNat < m.run.stack then .error 0x05
  else if slotAt m.run.port + 0x1000 < m.run.g[15].toNat then .error 0x06
  else .ok m

/-- The cycles of g trough grants, each of 1 to 27 cycles (R245, R301), by free value k. -/
def grantCycles (k g : Nat) : Nat := if g = 0 then 0 else Config.between k g (27 * g)

/-- Two-source operation with a destination of the same type. -/
def py2 (i : PyInst) (m : PyM) (f : Int → Int → Word) : Except Nat PyM := do
  let (a, m) ← m.src i.ty (i.opd 0)
  let (b, m) ← m.src i.ty (i.opd 1)
  m.dst i.ty (i.opd 2) (f (pyVal i.ty a) (pyVal i.ty b))

/-- One-source operation. -/
def py1 (i : PyInst) (m : PyM) (f : Int → Word) : Except Nat PyM := do
  let (a, m) ← m.src i.ty (i.opd 0)
  m.dst i.ty (i.opd 1) (f (pyVal i.ty a))

/-- A shift: the count is read as U32, and a count above the width is the width (R286). -/
def pyShift (i : PyInst) (m : PyM) (f : Word → Nat → Word) : Except Nat PyM := do
  let (a, m) ← m.src i.ty (i.opd 0)
  let (n, m) ← m.src .u32 (i.opd 1)
  m.dst i.ty (i.opd 2) (f a (min n.toNat i.ty.bits))

/-- A bitwise operation on the low w bits of the type (R289). -/
def pyBits (i : PyInst) (m : PyM) (f : Word → Word → Word) : Except Nat PyM := do
  let (a, m) ← m.src i.ty (i.opd 0)
  let (b, m) ← m.src i.ty (i.opd 1)
  m.dst i.ty (i.opd 2) (f a b)

/-- A compare: the destination is a register direct and takes the whole word (R290). -/
def pyCmp (i : PyInst) (m : PyM) (f : Word → Word → Bool) : Except Nat PyM := do
  let (a, m) ← m.src i.ty (i.opd 0)
  let (b, m) ← m.src i.ty (i.opd 1)
  match (i.opd 2).direct with
  | none => .error 0x02
  | some r => m.write .u32 (if f a b then 1#32 else 0#32) (.reg r)

/-- MAC and MSU (R285). -/
def pyAcc (i : PyInst) (m : PyM) (sign : Int) : Except Nat PyM := do
  let (a, m) ← m.src i.ty (i.opd 0)
  let (b, m) ← m.src i.ty (i.opd 1)
  match (i.opd 2).whole with
  | none => .error 0x02
  | some k =>
    let q := accProduct i.ty (pyVal i.ty a * pyVal i.ty b)
    .ok { m with run := { m.run with acc := m.run.acc.set k (accFit i.sat (m.run.acc[k].toInt + sign * q)) } }

/-- A branch to an address: odd or outside program memory traps (R291). -/
def PyM.jump (m : PyM) (t : Int) : Except Nat PyM :=
  if t < 0 ∨ 131070 < t ∨ t % 2 = 1 then .error 0x07 else .ok { m with run := { m.run with pc := t.toNat } }

/-- push of R292. -/
def PyM.push (m : PyM) (w : Word) : Except Nat PyM :=
  let a := m.run.g[15].toNat
  if a < m.run.stack + 4 then .error 0x05
  else do
    m.check (a - 4) 4 4
    let m := (m.puts (a - 4) (beBytes 4 w.toNat)).cost (a - 4) true
    .ok { m with run := { m.run with g := m.run.g.set 15 (BitVec.ofNat 32 (a - 4)) } }

/-- pop of R292. -/
def PyM.pop (m : PyM) : Except Nat (Word × PyM) :=
  let a := m.run.g[15].toNat
  if slotAt m.run.port + 0x1000 < a + 4 then .error 0x06
  else do
    m.check a 4 4
    let w := BitVec.ofNat 32 (beNat (m.bytes a 4))
    let m := m.cost a false
    .ok (w, { m with run := { m.run with g := m.run.g.set 15 (BitVec.ofNat 32 (a + 4)) } })

/-- The five coefficients of a stage record and the power of two of their unit: a short-form record (R264, R294). -/
def shortCoefs (l : List Byte) : List Int :=
  let sh := fieldAt l 20 2
  (List.range 5).map fun k => (BitVec.ofNat 32 (fieldAt l (4 * k) 4)).toInt * ((2 ^ (sh / 2 ^ (12 - 3 * k) % 8) : Nat) : Int)

/-- A long-form record: the mantissas, and EXP (R264, R295). -/
def longCoefs (l : List Byte) : List Int := (List.range 5).map fun k => (BitVec.ofNat 24 (fieldAt l (3 * k) 3)).toInt
def longExp (l : List Byte) : Int := (BitVec.ofNat 8 (fieldAt l 15 1)).toInt

/-- The equations of R294 with products in units of 2^-(31 + drop): y, s1 and s2, each rounded once and saturated. -/
def stageStep (rnd : PyRnd) (drop : Nat) (c : List Int) (x s1 s2 : Int) : Word × Word × Word :=
  let u : Int := (2 ^ drop : Nat)
  let fin (v : Int) : Int := clampI (pyRound rnd drop v) (-2147483648) 2147483647
  let k (i : Nat) : Int := c.getD i 0
  let y := fin (k 0 * x + s1 * u)
  let a := fin (k 1 * x - k 3 * y + s2 * u)
  let b := fin (k 2 * x - k 4 * y)
  (BitVec.ofInt 32 y, BitVec.ofInt 32 a, BitVec.ofInt 32 b)

/-- The register that a specifier auto-modifies. -/
def PySpec.modified : PySpec → List (Fin 16)
  | .postInc r => [r]
  | .preDec r => [r]
  | .circ r _ _ => [r]
  | _ => []

/-- The registers that a specifier names. -/
def PySpec.names : PySpec → List (Fin 16)
  | .reg r => [r]
  | .ind r => [r]
  | .postInc r => [r]
  | .preDec r => [r]
  | .baseDisp r _ => [r]
  | .indexed b i => [b, i]
  | .circ r k _ => [r, ⟨2 * k.val, by omega⟩, ⟨2 * k.val + 1, by omega⟩]
  | _ => []

/-- A stage instruction issues: its writes wait in the stage unit's buffer, and its accesses beyond the slot buffer add their grants
to the unit's busy time (R294 to R296). One that would leave g15 outside its bounds traps (R270). -/
def pyStage (k : Nat) (long : Bool) (i : PyInst) (m : PyM) : Except Nat PyM := do
  let n := if long then 20 else 24
  let (ca, m) ← m.memOp n (i.opd 0)
  m.check ca n 4
  let (sa, m) ← m.memOp 8 (i.opd 1)
  m.check sa 8 4
  let (vp, m) ← m.eval 4 .f32 (i.opd 2)
  match vp with
  | .imm _ => .error 0x02
  | _ =>
    let (x, _) ← m.read .f32 vp
    let _ ← m.write .f32 0#32 vp
    let rec' := m.bytes ca n
    let e := longExp rec'
    if long ∧ (e < -24 ∨ 7 < e) then .error 0x09
    else
      let s1 := (BitVec.ofNat 32 (beNat (m.bytes sa 4))).toInt
      let s2 := (BitVec.ofNat 32 (beNat (m.bytes (sa + 4) 4))).toInt
      let c := if long then (longCoefs rec').map fun q => q * ((2 ^ (e + 24).toNat : Nat) : Int) else shortCoefs rec'
      let (y, a, b) := stageStep i.rnd (if long then 47 else 31) c x.toInt s1 s2
      let r := m.run
      let g := r.stageGrants ca n false + r.stageGrants sa 8 false + r.stageGrants sa 8 true +
        (match vp with | .mem q => r.stageGrants q 4 false + r.stageGrants q 4 true | _ => 0)
      if vp = .reg 15 ∧ y.toNat < r.stack then .error 0x05
      else if vp = .reg 15 ∧ slotAt r.port + 0x1000 < y.toNat then .error 0x06 else
      let job : StageJob := ⟨y, a, b, ca, n, sa, vp, (i.opd 2).modified, (if long then 12 else 8) + grantCycles k g⟩
      .ok { m with run := { m.run with stage := some job } }

/-- Two byte ranges meet. -/
def meet (a n b k : Nat) : Bool := decide (a < b + k) && decide (b < a + n)

/-- An address range touches c, s or v of the busy stage instruction (R296). -/
def StageJob.touches (j : StageJob) (a n : Nat) : Bool :=
  decide (0 < n) && (meet a n j.cAddr j.cLen || meet a n j.sAddr 8 || (match j.v with | .mem b => meet a n b 4 | _ => false))

/-- The type by which operand k of an instruction is evaluated: a shift count and a JMP target are U32 (R286, R291). -/
def PyInst.opTy (i : PyInst) (k : Nat) : PyTy :=
  match i.op, k with
  | .shl, 1 => .u32
  | .shr, 1 => .u32
  | .asr, 1 => .u32
  | .jmp, 0 => .u32
  | .lea, 1 => .u32
  | _, _ => i.ty

/-- How many bytes operand k reads or writes if it lies in memory: LEA touches none at m, and CLMP a pair (R283, R288). -/
def PyInst.opLen (i : PyInst) (k : Nat) : Nat :=
  match i.op, k with
  | .lea, 0 => 0
  | .clmp, 1 => 2 * i.ty.size
  | _, _ => (i.opTy k).size

/-- The places that an instruction's operands touch, with their lengths, evaluated in order from operand k on. -/
def opPlaces (i : PyInst) : Nat → PumpRun → List PySpec → List (PyPlace × Nat)
  | _, _, [] => []
  | k, r, s :: t =>
    match evalSpec (i.opTy k).size (i.opTy k) r s with
    | .error _ => []
    | .ok (p, r') => (p, i.opLen k) :: opPlaces i (k + 1) r' t

/-- The parts of an accumulator that an operand reads, or writes: the high word's write also fills the guard byte (R281). -/
def accParts (part : Nat) (write : Bool) : List Nat :=
  match part with
  | 0 => [1, 2, 3]
  | 1 => if write then [1, 3] else [1]
  | n => [n]

/-- Operand k is the one that the instruction writes: the last, but for the instructions that only read theirs. -/
def PyInst.writes (i : PyInst) (k : Nat) : Bool :=
  match i.op with
  | .bz => false
  | .bnz => false
  | .bra => false
  | .jmp => false
  | .call => false
  | .trap => false
  | _ => decide (k + 1 = i.ops.length)

/-- An instruction must wait for the busy stage instruction (R296). -/
def mustWait (i : PyInst) (r : PumpRun) : Bool :=
  match r.stage with
  | none => false
  | some j =>
    (match i.op with | .stg => true | .stgb => true | .endS => true | _ => false) ||
    (i.ops.any fun s => s.names.any fun g => j.mods.contains g || (match j.v with | .reg v => g = v | _ => false)) ||
    ((opPlaces i 0 r i.ops).zipIdx.any fun q => let p := q.1; match p.1 with
      | .mem a => j.touches a p.2
      | .acc a k => (match j.v with
          | .acc b e => decide (a = b) && (accParts k (i.writes q.2)).any fun x => (accParts e true).contains x
          | _ => false)
      | .io k => (match j.v with | .io q => k = q | _ => false)
      | _ => false) ||
    (match i.op with
      | .call => j.touches (r.g[15].toNat - 4) 4 || j.mods.contains 15 || j.v == .reg 15
      | .ret => j.touches r.g[15].toNat 4 || j.mods.contains 15 || j.v == .reg 15
      | _ => false)

/-- The stage instruction commits (R296): its writes reach their places. -/
def PyM.commitStage (m : PyM) : PyM :=
  match m.run.stage with
  | none => m
  | some j =>
    let m := { m with run := { m.run with stage := none } }
    let m := m.puts j.sAddr (beBytes 4 j.s1.toNat ++ beBytes 4 j.s2.toNat)
    match j.v with
    | .mem a => m.puts a (beBytes 4 j.y.toNat)
    | .reg i => { m with run := { m.run with g := m.run.g.set i j.y } }
    | .acc a part => { m with run := { m.run with acc := m.run.acc.set a (accPut m.run.acc[a] part j.y) } }
    | .io 16 => { m with run := { m.run with mv := j.y } }
    | .io 17 => { m with run := { m.run with mi := j.y } }
    | .io 18 => { m with run := { m.run with user := j.y } }
    | _ => m

/-- MOVA with one whole accumulator: bits [71:32] of an accumulator written from 32 bits are not stated, and are a free value
(R283, assumption 9). -/
def pyMova (fr : Nat) (i : PyInst) (m : PyM) : Except Nat PyM :=
  match (i.opd 0).whole, (i.opd 1).whole with
  | some a, some b => .ok { m with run := { m.run with acc := m.run.acc.set b m.run.acc[a] } }
  | some a, none => m.dst i.ty (i.opd 1) (upIn i.ty (m.run.acc[a].setWidth 32))
  | none, some b => do
      let (w, m) ← m.src i.ty (i.opd 0)
      .ok { m with run := { m.run with acc := m.run.acc.set b (BitVec.ofNat 40 fr ++ upOut i.ty w) } }
  | none, none =>
      match i.opd 0, i.opd 1 with
      | .acc _ _, _ => do
          let (w, m) ← m.src i.ty (i.opd 0)
          m.dst i.ty (i.opd 1) w
      | _, .acc _ _ => do
          let (w, m) ← m.src i.ty (i.opd 0)
          m.dst i.ty (i.opd 1) w
      | _, _ => .error 0x02

end Sys2Proof.Machine
end

