-- ==== Sys2Proof/Machine/LoopOps.lean ====
section
/-! DEFINITION. What the loop framework does around a sample (R245 to R268): the end of a sample, overruns, and the fall to LIMP. -/

namespace Sys2Proof.Machine

/-- Pump n's sample. -/
def State.pump (s : State) (n : Pump) : Option PumpRun := s.pmp.pumps[n]

def State.setPump (s : State) (n : Pump) (r : Option PumpRun) : State := { s with pmp.pumps := s.pmp.pumps.set n r }

/-- LIMP entered (R252): the slot dispatches nothing more, the limp PI gets target 0 V, and the port's fault state follows. The odd
twin's hand learns that its output is lost (R242). -/
def State.limpEntry (s : State) (p : Port) (cause : Nat) : State :=
  if (s.port p).loop.limp then s else
  let s := s.onPort p fun x => { x with
    loop := { x.loop with auto := false, preset := false, ready := false, trig := false, skip := false, manPend := false, limp := true
                          lcause := cause }
    stg := { x.stg with target := 0, kind := .dflt, trim := 0, settled := false }
    prior := none }
  (((s.loopEvt p 0).faultOn p .limp)).twinLost p

/-- An overrun counts; the eighth in a row is LIMP (R251, R252). -/
def State.overrun (s : State) (p : Port) : State :=
  let s := (s.loopEvt p 1).loopCnt p 0
  let s := { s with pmp.ovrCnt := satInc s.pmp.ovrCnt }
  let s := s.onPort p fun x => { x with loop := { x.loop with orun := min (x.loop.orun + 1) 8 } }
  if (s.port p).loop.orun = 8 then s.limpEntry p 1 else s

/-- The pump becomes free and the sample's cycles are shown (R293, LOOP_CYC, PMP_STAT.LOAD). -/
def State.pumpFree (s : State) (n : Pump) (r : PumpRun) (cycles : Nat) : State :=
  let s := s.setPump n none
  let s := { s with pmp.busyCyc := s.pmp.busyCyc + cycles }
  s.onPort r.port fun x => { x with loop := { x.loop with
    running := false, cycLast := satN 16 cycles, cycMax := max x.loop.cycMax (satN 16 cycles) } }

/-- M_LO and M_HI of a port's coefficient block (R263). -/
def State.mLo (s : State) (p : Port) : Nat := (s.trough.word (slotAt p + 0x2C)).toNat
def State.mHi (s : State) (p : Port) : Nat := (s.trough.word (slotAt p + 0x30)).toNat

/-- The M that an on-time END commits (R256). -/
def commitM (lo hi mmax : Nat) (mv mi mLast : Word) : Nat :=
  let m := min mv.toNat mi.toNat
  let m := if m = 0xFFFFFFFF then mLast.toNat else m
  max lo (min m (min hi mmax))

/-- What an on-time END delivers (R256, R260, R293). A PRESET delivers nothing that affects the duty. -/
def State.deliver (s : State) (r : PumpRun) : State :=
  let p := r.port
  let s := s.onPort p fun x => { x with loop := { x.loop with orun := 0, user := r.user } }
  if r.preset then
    (s.onPort p fun x => { x with loop := { x.loop with preset := false, first := true } }).loopEvt p 2
  else
    let m := commitM (s.mLo p) (s.mHi p) (mMax (s.port p).cfg.fsw) r.mv r.mi r.io[8]
    let cc := decide (r.mi.toNat < r.mv.toNat)
    let was := (s.port p).loop.cc
    let s := s.onPort p fun x => { x with loop := { x.loop with commit := some (BitVec.ofNat 32 m), cc := cc } }
    if cc && !was then s.loopEvt p 5 else if !cc && was then s.loopEvt p 6 else s

/-- END (R245, R251, R293): the state line is stored when it was written, one more grant; an on-time sample delivers. -/
def State.endOf (s : State) (n : Pump) (r : PumpRun) (trough : Trough) : State :=
  let k := s.draws
  let cyc := r.cycles + 1 + grantCycles k (if r.stWritten then 1 else 0)
  let t := if r.stWritten then trough.write (slotAt r.port + 0x400) r.stLn else trough
  let s := ({ s with trough := t, draws := k + 1 }).pumpFree n r cyc
  let s := if r.preset then s.loopCnt r.port 3 else s
  if r.late || (s.port r.port).loop.limp then s else s.deliver r

/-- A trap (R252, R299): every earlier instruction has completed, the sample commits nothing and stores nothing, and the port goes to
LIMP; a trap of the sample whose lateness was the eighth overrun still gives LCAUSE 2 (R268). -/
def State.pyTrap (s : State) (n : Pump) (r : PumpRun) (code addr : Nat) : State :=
  let m : PyM := PyM.commitStage ⟨r, s.trough⟩
  let s := ({ s with trough := m.trough }).pumpFree n r r.cycles
  let s := s.onPort r.port fun x => { x with loop := { x.loop with trapCode := code, trapAt := addr } }
  let s := s.limpEntry r.port 2
  if r.late then s.onPort r.port fun x => { x with loop := { x.loop with
    lcause := if x.loop.limp ∧ x.loop.lcause = 1 then 2 else x.loop.lcause } }
  else s

end Sys2Proof.Machine
end

