-- ==== Sys2Proof/Machine/Pump.lean ====
section
/-! DEFINITION. The pool of pumps and the loop slots: triggers, dispatch and stealing (R245 to R250), commit deadlines (R251), the
trough arbiter, and the host's writes to a slot (R258 to R262). -/

namespace Sys2Proof.Machine

/-- SAMPLE_TRIGGER: the trigger issued at a period start reaches PMP. A MANUAL write that waited takes effect; a trigger after an
overrun is skipped; else the sample joins its home pump's ready ones (R247, R251, R259). -/
def execSampleTrigger (p : Port) (s : State) : Res State :=
  let l := (s.port p).loop
  if !l.trig then .next s else
  let order := s.ports.toList.foldl (fun a x => if x.loop.ready then max a (x.loop.order + 1) else a) 0
  .next <| s.onPort p fun x =>
    let l := { x.loop with trig := false }
    { x with loop :=
      if l.manPend then { l with auto := false, host := true, manPend := false, preset := false, ready := false, skip := false
                                 mduty := BitVec.ofNat 32 x.stg.m }
      else if !l.auto then l
      else if l.skip then { l with skip := false }
      else { l with ready := true, reach := 0, order := order } }

/-- STEAL_THRESHOLD: a ready sample has waited another STEAL_T (R248). -/
def execStealThreshold (p : Port) (s : State) : Res State :=
  if (s.port p).loop.ready then
    .next (s.onPort p fun x => { x with loop := { x.loop with reach := min (x.loop.reach + 1) 12 } })
  else .next s

/-- The home pump of a port (R247). -/
def homePump (p : Port) : Nat := p.val % 24

/-- Ring distance between two pumps. -/
def ringDist (n h : Nat) : Nat := min ((n + 24 - h) % 24) ((h + 24 - n) % 24)

/-- A sample of port q may be dispatched: ready, and the port's sample lock is free (R249). -/
def State.readyNow (s : State) (q : Port) : Bool := (s.port q).loop.ready && !(s.port q).loop.running

/-- The port of a list whose sample was triggered earliest. -/
def State.readyFirst (s : State) (l : List Port) : Option Port :=
  (l.filter s.readyNow).foldl (fun b q => match b with
    | none => some q
    | some c => if (s.port q).loop.order < (s.port c).loop.order then some q else b) none

/-- The stealable samples whose home pump is h, for a pump at distance d. -/
def State.stealFrom (s : State) (h d : Nat) : Option Port :=
  s.readyFirst (allPorts.filter fun q => decide (homePump q = h) && decide (d ≤ (s.port q).loop.reach))

/-- The nearest sample that pump n may steal, and whether a tie between its two sides was decided (R247). -/
def State.stealPick (s : State) (n : Pump) : Option (Port × Bool) :=
  (List.range 12).findSome? fun k =>
    let d := k + 1
    let a := s.stealFrom ((n.val + d) % 24) d
    let b := s.stealFrom ((n.val + 24 - d) % 24) d
    match a, b with
    | some x, some y => if x = y then some (x, false) else some (if s.pmp.cw[n] then x else y, true)
    | some x, none => some (x, false)
    | none, some y => some (y, false)
    | none, none => none

/-- The sample that a free pump takes: a home sample, else a stolen one if its own next home trigger lies at least 60 cycles ahead
(R247, R248). -/
def State.pickFor (s : State) (n : Pump) (ahead : Nat) : Option (Port × Bool) :=
  match s.readyFirst (allPorts.filter fun q => homePump q = n.val) with
  | some q => some (q, false)
  | none => if ahead < 60 then none else s.stealPick n

/-- Pump n lies on the clockwise side of pump h. -/
def clockwise (n h : Nat) : Bool := decide ((n + 24 - h) % 24 = ringDist n h)

/-- Free pump m may take the sample of port q in the same cycle as pump n (R248). -/
def State.rival (s : State) (q : Port) (n m : Pump) : Bool :=
  decide (m ≠ n) && (s.pump m).isNone && decide (ringDist m.val (homePump q) ≤ (s.port q).loop.reach)

/-- A rival at the same distance: the home pump's alternation pointer decides (R248). -/
def State.level (s : State) (q : Port) (n m : Pump) : Bool :=
  s.rival q n m && decide (ringDist m.val (homePump q) = ringDist n.val (homePump q))

/-- Among the pumps `others` that are free for a stolen sample in the same PMP cycle, one is nearer, or at equal distance on the side that
the home pump's alternation pointer names (R248). -/
def State.beaten (s : State) (q : Port) (n : Pump) (others : List Pump) : Bool :=
  decide (homePump q ≠ n.val) && others.any fun m =>
    (s.rival q n m && decide (ringDist m.val (homePump q) < ringDist n.val (homePump q))) ||
    (s.level q n m && (clockwise n.val (homePump q) != s.pmp.homeCw[homePump q]'(Nat.mod_lt _ (by decide))))

/-- Bytes of the coefficient block that a sample loads (R245, R267). -/
def State.setBytesOf (s : State) (p : Port) : Nat :=
  match s.trough.rom[p] with
  | some (long, _) => if long then 512 else 256
  | none => s.alm.cfg.setBytes

/-- The entry of a port's program in program memory; a ROM program has none there (R246, R267). -/
def State.entryOf (s : State) (p : Port) (preset : Bool) : Nat :=
  let c := (s.port p).cfg
  if s.prog.rom then 0 else if preset then c.presetAt else c.sampleAt

/-- What pump registers and the slot buffer hold at dispatch (R245, R246, R256). -/
def State.newRun (s : State) (p : Port) (preset : Bool) : PumpRun :=
  let pb := slotAt p
  let lines := (s.setBytesOf p + 255) / 256
  let k := s.draws
  { port := p, preset := preset, late := false, pc := s.entryOf p preset, stack := pb + 0x1000 - (s.port p).cfg.stack
    g := ((Vector.replicate 16 0#32).set 14 (BitVec.ofNat 32 pb)).set 15 (BitVec.ofNat 32 (pb + 0x1000))
    acc := Vector.replicate 4 0#72, mv := 0xFFFFFFFF#32, mi := 0xFFFFFFFF#32, user := 0#32, io := (s.port p).loop.io
    coefLn := memReads s.trough.dflt s.trough.cells pb (256 * lines)
    stLn := memReads s.trough.dflt s.trough.cells (pb + 0x400) 256
    stWritten := false, loc := [], stage := none, cycles := grantCycles k (lines + 1), grants := 0, k := k }

/-- The wait of a sample enters LOOP_WAIT and PMP_WAIT_MAX; above 333 ns, 200 cycles, WAITX sets (R253). -/
def State.noteWait (s : State) (p : Port) (wait : Nat) : State :=
  let s := s.onPort p fun x => { x with loop := { x.loop with wait := satN 16 wait } }
  { s with pmp := { s.pmp with
      waitMax := max s.pmp.waitMax (satN 16 wait)
      evt := if 200 < wait then setBit s.pmp.evt 0 else s.pmp.evt } }

/-- A steal counts, and the alternation pointers pass on: pump n's own when it had two such samples, the home pump's when two pumps
could take this one (R247, R248). -/
def State.noteSteal (s : State) (n : Pump) (p : Port) (tie level : Bool) : State :=
  if homePump p = n.val then s else
  let s := s.loopCnt p 1
  let h : Pump := ⟨homePump p, Nat.mod_lt _ (by decide)⟩
  { s with pmp := { s.pmp with
      stealCnt := satInc s.pmp.stealCnt
      cw := if tie then s.pmp.cw.set n (!s.pmp.cw[n]) else s.pmp.cw
      homeCw := if level then s.pmp.homeCw.set h (!s.pmp.homeCw[h]) else s.pmp.homeCw } }

/-- Pump n takes the sample of port p (R246, R247). -/
def State.dispatch (s : State) (n : Pump) (p : Port) (tie level preset : Bool) (wait : Nat) : State :=
  let r := s.newRun p preset
  let s := { s with draws := s.draws + 1 }
  let s := (s.noteWait p wait).noteSteal n p tie level
  let s := s.onPort p fun x => { x with loop := { x.loop with
    ready := false, running := true, first := if preset then x.loop.first else false } }
  s.setPump n (some r)

/-- SAMPLE_DISPATCH: free pump n takes its next sample; `wait` is the time from its trigger and `ahead` the time to the pump's own next
home trigger, in PMP cycles. `others` are the pumps that are free for a stolen sample in the same cycle: one that R248 puts before pump n
takes it by its own command. -/
def execSampleDispatch (n : Pump) (wait : Nat) (c : FreeCycle) (s : State) : Res State :=
  if (s.pump n).isSome then .next s else
  match s.pickFor n c.ahead with
  | none => .next s
  | some (p, tie) =>
    if (s.port p).loop.preset || s.beaten p n c.others then .next s
    else .next (s.dispatch n p tie (c.others.any (s.level p n)) false wait)

/-- The header of a port's coefficient block as PRESET needs it (R260, R263). -/
def State.headerOk (s : State) (p : Port) : Bool :=
  let form := (s.trough.read (slotAt p)).toNat
  let nv := (s.trough.read (slotAt p + 1)).toNat
  let ni := (s.trough.read (slotAt p + 2)).toNat
  decide (form = if (s.port p).cfg.form then 1 else 0) && decide (1 ≤ ni) && decide (ni ≤ 3) &&
  (if form = 1 then decide (4 ≤ nv) && decide (nv ≤ 8) else decide (1 ≤ nv) && decide (nv ≤ 3))

/-- The transfer to AUTO is refused on the header: the slot returns to MANUAL, and the bank goes on applying the held ratio (R260). -/
def State.badCoef (s : State) (p : Port) : State :=
  let s := s.onPort p fun x => { x with loop := { x.loop with
    auto := false, preset := false, ready := false, host := x.loop.fromHost, fromHost := false, mduty := x.loop.mheld } }
  (s.loopEvt p 4).loopCnt p 2

/-- PRESET_DISPATCH: as SAMPLE_DISPATCH, for a slot whose PRESET is pending; it waits for the window writes accepted before (R260,
R262). -/
def execPresetDispatch (n : Pump) (wait : Nat) (c : FreeCycle) (s : State) : Res State :=
  if (s.pump n).isSome then .next s else
  match s.pickFor n c.ahead with
  | none => .next s
  | some (p, tie) =>
    if !(s.port p).loop.preset || s.pmp.coefQ.any (fun e => e.1 = p) || s.beaten p n c.others then .next s
    else if s.headerOk p then .next (s.dispatch n p tie (c.others.any (s.level p n)) true wait)
    else .next (s.badCoef p)

/-- COMMIT_DEADLINE: 100 ns before the next period start of port p. A sample still running is late and the next trigger is skipped; a
sample not started is dropped (R249, R251). -/
def execCommitDeadline (p : Port) (s : State) : Res State :=
  let l := (s.port p).loop
  let late := s.pmp.pumps.toList.any fun r => match r with | some x => decide (x.port = p) && x.late | none => false
  if l.running && !late then
    let s := { s with pmp.pumps := Vector.ofFn fun i => s.pmp.pumps[i].map fun (x : PumpRun) => if x.port = p then { x with late := true } else x }
    .next ((s.onPort p fun x => { x with loop := { x.loop with skip := true } }).overrun p)
  else if l.ready then
    .next ((s.onPort p fun x => { x with loop := { x.loop with ready := false } }).overrun p)
  else .next s

/-- TROUGH_GRANT: the trough arbiter grants one of the requesters, 24 pumps, the metering unit and the POL coefficient path (R41,
R245, R428). A grant to the coefficient path moves its oldest word; the pumps' transfers are counted where they happen. -/
def execTroughGrant (reqs : List (Fin 26)) (s : State) : Res State :=
  match rrPick s.pmp.troughPtr 26 (fun k => reqs.any fun r => r.val = k) with
  | none => .next s
  | some w =>
    let s := { s with pmp := { s.pmp with troughPtr := (w + 1) % 26 } }
    if w = 25 then
      match s.pmp.coefQ with
      | [] => .next s
      | (p, i, v) :: t =>
        .next { s with trough := s.trough.write (slotAt p + 4 * i.val) (wordBytes v), pmp := { s.pmp with coefQ := t } }
    else .next s

/-! ## Host writes to a slot -/

/-- MANUAL by a host write: at the next trigger while the stage runs, else at once (R259). -/
def Loop.toManual (l : Loop) (den : Bool) : Loop :=
  if den then { l with manPend := true }
  else { l with auto := false, host := true, preset := false, manPend := false }

/-- AUTO by a host write (R260, R261, R268): the ratio held is the manual one; a held stage start goes on now, from VBS and VIN as measured
last, unless a gating cause has come (R223, R234). -/
def State.hostAuto (s : State) (p : Port) : State :=
  let l := (s.port p).loop
  if l.limp then s
  else if l.auto then s.onPort p fun x => { x with loop := { x.loop with manPend := false } }
  else if l.held then
    if !s.dev.vauxOk || s.fetsPair p then s else
    let (n, s) := s.startWait (s.port p).cfg.fsw
    s.onPort p fun x => { x with
      prior := none
      stg := x.stg.begin x.stg.target x.stg.vbs0 x.stg.rev n
      loop := { x.loop.toAuto (startRatio x.cfg.fsw x.stg.rev x.stg.vbs0 x.stg.vin0) with fromHost := true } }
  else s.onPort p fun x => { x with loop := { x.loop.toAuto x.loop.mduty with fromHost := true } }

/-- LOOP_CTL: CCLR is free; MODE needs the unlock and is ignored in LIMP; it reads as last written (R7, R259, R260, R387). -/
def State.wrLoopCtl (s : State) (p : Port) (w : Word) : State :=
  let s := if w.getLsbD 31 then s.onPort p fun x => { x with loop := { x.loop with cnt := Loop.reset.cnt, cycMax := 0 } } else s
  s.locked (w.getLsbD 0 != (s.port p).loop.ctl) fun s =>
    if (s.port p).loop.limp then s else
    let s := s.onPort p fun x => { x with loop := { x.loop with ctl := w.getLsbD 0 } }
    if w.getLsbD 0 then s.hostAuto p
    else s.onPort p fun x => { x with loop := x.loop.toManual x.stg.den }

/-- LOOP_MANUAL: LOOP_CTL.MODE written 0 (R259). -/
def execLoopManual (p : Port) (s : State) : Res State :=
  s.hostWrite (portReg p 0x83) 0#32 fun s => s.wrLoopCtl p 0#32

/-- LOOP_AUTO: LOOP_CTL.MODE written 1 (R260). -/
def execLoopAuto (p : Port) (s : State) : Res State :=
  s.hostWrite (portReg p 0x83) 1#32 fun s => s.wrLoopCtl p 1#32

/-- LOOP_MDUTY: the manual ratio, under the unlock (R258, R387). -/
def State.wrLoopMduty (s : State) (p : Port) (w : Word) : State :=
  s.locked (decide ((s.port p).loop.mduty ≠ w)) fun s => s.onPort p fun x => { x with loop := { x.loop with mduty := w } }

/-- LOOP_MDUTY_WRITE. -/
def execLoopMdutyWrite (p : Port) (w : Word) (s : State) : Res State :=
  s.hostWrite (portReg p 0x84) w fun s => s.wrLoopMduty p w

/-- A word of a coefficient window, under the unlock, in MANUAL only (R262, R268, R387). -/
def State.wrCoef (s : State) (p : Port) (i : Fin 256) (w : Word) : State :=
  s.locked true fun s =>
    if (s.port p).loop.auto then (s.loopEvt p 3).loopCnt p 2
    else { s with pmp := { s.pmp with coefQ := s.pmp.coefQ ++ [(p, i, w)] } }

/-- COEF_WINDOW_WRITE. -/
def execCoefWindowWrite (p : Port) (i : Fin 256) (w : Word) (s : State) : Res State :=
  s.hostWrite (0x4000 + 0x100 * p.val + i.val) w fun s => s.wrCoef p i w

end Sys2Proof.Machine
end

