-- ==== Sys2Proof/Machine/RomLoop.lean ====
section
/-! DEFINITION. The ROM loop programs (R260, R265 to R267): the manual prints no instruction of theirs, so a sample or PRESET of theirs is
taken as a whole at its END, by the law of R265 (assumption 5). Numbers in units of 2^-31 where FR32, and of 2^-28 where a ratio. -/

namespace Sys2Proof.Machine

/-- A word of the sample's slot. -/
def PyM.slotWord (m : PyM) (o : Nat) : Word := BitVec.ofNat 32 (beNat (m.bytes (slotAt m.run.port + o) 4))

/-- A gain of the header at offset o, shifted left by the three bits of HSHIFT from bit sh on (R263). -/
def PyM.romGain (m : PyM) (o sh : Nat) : Int :=
  (m.slotWord o).toInt * ((2 ^ ((m.slotWord 0x18).toNat / 2 ^ (16 + sh) % 8) : Nat) : Int)

/-- NV and NI of the header. -/
def PyM.romNv (m : PyM) : Nat := (m.byte (slotAt m.run.port + 1)).toNat
def PyM.romNi (m : PyM) : Nat := (m.byte (slotAt m.run.port + 2)).toNat

/-- The record of stage j (R264). -/
def PyM.romRec (m : PyM) (long : Bool) (j : Nat) : List Byte :=
  let n := if long then 20 else 24
  m.bytes (slotAt m.run.port + 0x40 + n * j) n

/-- A long-form record's EXP is out of range, which traps (R295, R299). -/
def PyM.romBad (m : PyM) (long : Bool) : Bool :=
  long && (List.range (m.romNv + m.romNi)).any fun j => decide (longExp (m.romRec true j) < -24) || decide (7 < longExp (m.romRec true j))

/-- The rounding mode of the stage records. -/
def romRnd (long : Bool) : PyRnd := match (Config.romMode long).val with | 0 => .t | 1 => .n | _ => .c

/-- n stages from stage j on, each fed by the one before, with their states `st`: the last output and the new states (R264, R294, R295). -/
def PyM.romPath (m : PyM) (long : Bool) (st : Nat → Word × Word) : Nat → Nat → Int → Int × List (Word × Word)
  | 0, _, x => (x, [])
  | n + 1, j, x =>
    let l := m.romRec long j
    let c := if long then (longCoefs l).map fun q => q * ((2 ^ (longExp l + 24).toNat : Nat) : Int) else shortCoefs l
    let y := stageStep (romRnd long) (if long then 47 else 31) c x (st j).1.toInt (st j).2.toInt
    let z := m.romPath long st n (j + 1) y.1.toInt
    (z.1, (y.2.1, y.2.2) :: z.2)

/-- A line of R265 in whole units of 2^-28, from its exact value in units of 2^-62, rounded to one of its two neighbours. -/
def romLine (long : Bool) (line : Nat) (exact : Int) : Int :=
  exact / 17179869184 + (if exact % 17179869184 ≠ 0 ∧ Config.romUp long line exact then 1 else 0)

/-- What a sample's inputs give: the proportional parts, the integrators' increments, and the stages' new states. -/
structure RomTerms where
  pv : Int
  dv : Int
  pi : Int
  di : Int
  st : List (Word × Word)
  deriving DecidableEq, Repr

/-- An error as FR32. -/
def frDiff (a b : Word) : Int := clampI (a.toInt - b.toInt) (-2147483648) 2147483647

/-- The proportional parts and the increments of R265. -/
def PyM.romTerms (m : PyM) (long : Bool) (st : Nat → Word × Word) : RomTerms :=
  let io := m.run.io
  let ev := frDiff io[4] io[5]
  let ei := frDiff io[6] io[2]
  let v := m.romPath long st m.romNv 0 ev
  let i := m.romPath long st m.romNi m.romNv ei
  let ff : Int := if (m.byte (slotAt m.run.port + 3)).getLsbD 0 then m.romGain 0x14 0 * io[7].toNat * 8 else 0
  { pv := romLine long 0 (ff + m.romGain 0x04 12 * v.1)
    dv := romLine long 1 (m.romGain 0x08 9 * ev)
    pi := romLine long 2 (m.romGain 0x0C 6 * i.1)
    di := romLine long 3 (m.romGain 0x10 3 * ei)
    st := v.2 ++ i.2 }

/-- The state line as a ROM program keeps it: xv, xi, and s1 and s2 of each stage (R265). -/
def romStLine (xv xi : Int) (st : List (Word × Word)) (old : List Byte) : List Byte :=
  let w (v : Int) : List Byte := wordBytes (BitVec.ofInt 32 (clampI v (-2147483648) 2147483647))
  let l := w xv ++ w xi ++ st.flatMap fun q => wordBytes q.1 ++ wordBytes q.2
  (l ++ old.drop l.length).take old.length

/-- A ratio as MV or MI holds it; 0xFFFF_FFFF would say that the output was not written (R256). -/
def romOut (v : Int) : Word := BitVec.ofInt 32 (clampI v 0 0xFFFFFFFE)

/-- The law of R265. -/
def PyM.romSample (m : PyM) (long : Bool) : PumpRun :=
  let t := m.romTerms long fun j => (m.slotWord (0x408 + 8 * j), m.slotWord (0x40C + 8 * j))
  let cv (v : Int) : Int := clampI v (m.slotWord 0x1C).toInt (m.slotWord 0x20).toInt
  let ci (v : Int) : Int := clampI v (m.slotWord 0x24).toInt (m.slotWord 0x28).toInt
  let xv := cv ((m.slotWord 0x400).toInt + t.dv)
  let xi := ci ((m.slotWord 0x404).toInt + t.di)
  let mv := t.pv + xv
  let mi := t.pi + xi
  let k := clampI (min mv mi) (m.slotWord 0x2C).toNat (m.slotWord 0x30).toNat
  let x := if mi < mv then (cv (k - t.pv), xi) else (xv, ci (k - t.pi))
  { m.run with mv := romOut mv, mi := romOut mi, stLn := romStLine x.1 x.2 t.st m.run.stLn, stWritten := true }

/-- PRESET leaves stage states that the manual does not give (free values from k on) and the integrators with which SAMPLE on the same inputs
commits MHELD (R260). -/
def PyM.romPreset (m : PyM) (long : Bool) (k : Nat) : PumpRun :=
  let st (j : Nat) : Word × Word := (BitVec.ofNat 32 (Config.free (k + 2 * j)), BitVec.ofNat 32 (Config.free (k + 2 * j + 1)))
  let t := m.romTerms long st
  let h : Int := m.run.io[9].toNat
  { m.run with
    mv := m.run.io[9], mi := m.run.io[9]
    stLn := romStLine (h - t.pv - t.dv) (h - t.pi - t.di) ((List.range (m.romNv + m.romNi)).map st) m.run.stLn, stWritten := true }

/-- The instruction cycles of a ROM program at most (R267). -/
def romCycles (long : Bool) : Nat := if long then 152 else 59

/-- A ROM program's END on pump n, after at most its cycles of R267, END's own among them. -/
def State.romEnd (s : State) (n : Pump) (r : PumpRun) : State :=
  let m : PyM := ⟨r, s.trough⟩
  let long := (s.port r.port).cfg.form
  let k := s.draws
  if m.romBad long then ({ s with draws := k + 1 }).pyTrap n r 0x09 (2 * (Config.free k % 65536))
  else
    let x := if r.preset then m.romPreset long (k + 1) else m.romSample long
    ({ s with draws := k + 23 }).endOf n { x with cycles := r.cycles + Config.between k 0 (romCycles long - 1) } s.trough

end Sys2Proof.Machine
end

