-- ==== Sys2Proof/Machine/Pyrog.lean ====
section
/-! DEFINITION. The Pyrog instructions (R282 to R302): pump n's core runs its next instruction when it is of the row's kind. -/

namespace Sys2Proof.Machine

/-- What a kind of instruction does: from the index of a free value, the instruction and the machine with its pc already past the
instruction, the base cycles and the machine after it, or a trap code. -/
abbrev PyMeaning := Nat → PyInst → PyM → Except Nat (Nat × PyM)

/-- One cycle. -/
def one (x : Except Nat PyM) : Except Nat (Nat × PyM) := x.map fun m => (1, m)

/-- The stage unit's time runs while the core spends cycles (R296). -/
def PumpRun.spend (r : PumpRun) (cyc : Nat) : PumpRun :=
  { r with cycles := r.cycles + cyc, stage := r.stage.map fun j => { j with left := j.left - cyc } }

/-- The instruction's cycles: the base, those already counted for memory operands, and its trough grants (R301). -/
def PyM.finish (m : PyM) (k base before : Nat) : PyM :=
  let mem := m.run.cycles - before
  { m with run := { { m.run with cycles := before, grants := 0 }.spend (base + mem + grantCycles k m.run.grants) with grants := 0 } }

/-- Pump n runs its next instruction if it is an `op`; an instruction that must wait for the stage unit does not issue yet (R296),
and one that traps stops the sample (R299). -/
def State.pyRun (s : State) (n : Pump) (op : PyOp) (f : PyMeaning) : State :=
  match s.pump n with
  | none => s
  | some r =>
    match s.prog.fetch r.pc with
    | .ok i =>
      if i.op = op ∧ mustWait i r = false then
        match (f s.draws i ⟨{ r with pc := i.next }, s.trough⟩).bind (fun x => x.2.spOk.map fun m => (x.1, m)) with
        | .error c => s.pyTrap n r c r.pc
        | .ok (base, m) =>
          let m := m.finish (s.draws + 1) base r.cycles
          { s with trough := m.trough, draws := s.draws + 2, pmp.pumps := s.pmp.pumps.set n (some m.run) }
      else s
    | .badSpec o c => if o = op then s.pyTrap n r c r.pc else s
    | .bad _ => s
    | .rom => s

/-! ## Moves (R283) -/

def pyMov : PyMeaning := fun _ i m => one do
  let (a, m) ← m.src i.ty (i.opd 0)
  m.dst i.ty (i.opd 1) a

def execMov (n : Pump) (s : State) : Res State := .next (s.pyRun n .mov pyMov)

def execMova (n : Pump) (s : State) : Res State := .next (s.pyRun n .mova fun k i m => one (pyMova (Config.free k) i m))

def pyLea : PyMeaning := fun _ i m => one do
  let (a, m) ← m.memOp i.ty.size (i.opd 0)
  m.dst .u32 (i.opd 1) (BitVec.ofNat 32 a)

def execLea (n : Pump) (s : State) : Res State := .next (s.pyRun n .lea pyLea)

/-! ## Arithmetic (R284 to R288) -/

def execAdd (n : Pump) (s : State) : Res State :=
  .next (s.pyRun n .add fun _ i m => one (py2 i m fun a b => pyFit i.ty i.sat (a + b)))

def execSub (n : Pump) (s : State) : Res State :=
  .next (s.pyRun n .sub fun _ i m => one (py2 i m fun a b => pyFit i.ty i.sat (a - b)))

def execNeg (n : Pump) (s : State) : Res State :=
  .next (s.pyRun n .neg fun _ i m => one (py1 i m fun a => pyFit i.ty i.sat (-a)))

def execAbs (n : Pump) (s : State) : Res State :=
  .next (s.pyRun n .abs fun _ i m => one (py1 i m fun a => pyFit i.ty i.sat a.natAbs))

/-- The low bits that MUL drops for a destination of the type. -/
def mulDrop : PyTy → Nat
  | .f32 => 31
  | .f16 => 15
  | _ => 0

def pyMul : PyMeaning := fun _ i m => do
  let (a, m) ← m.src i.ty (i.opd 0)
  let (b, m) ← m.src i.ty (i.opd 1)
  let p := pyVal i.ty a * pyVal i.ty b
  match (i.opd 2).whole with
  | some k => .ok (2, { m with run := { m.run with acc := m.run.acc.set k (BitVec.ofInt 72 (accProduct i.ty p)) } })
  | none => (m.dst i.ty (i.opd 2) (pyFit i.ty i.sat (pyRound i.rnd (mulDrop i.ty) p))).map fun m => (2, m)

def execMul (n : Pump) (s : State) : Res State := .next (s.pyRun n .mul pyMul)

def execMac (n : Pump) (s : State) : Res State := .next (s.pyRun n .mac fun _ i m => (pyAcc i m 1).map fun m => (2, m))

def execMsu (n : Pump) (s : State) : Res State := .next (s.pyRun n .msu fun _ i m => (pyAcc i m (-1)).map fun m => (2, m))

def execShl (n : Pump) (s : State) : Res State :=
  .next (s.pyRun n .shl fun _ i m => one (pyShift i m fun a k => pyFit i.ty i.sat (pyVal i.ty a * (2 ^ k : Nat))))

/-- The low w bits of a value of a type (R289). -/
def lowBits (t : PyTy) (w : Word) : Word := if t = .f16 then (w.setWidth 16).setWidth 32 else w

def execShr (n : Pump) (s : State) : Res State :=
  .next (s.pyRun n .shr fun _ i m => one (pyShift i m fun a k => lowBits i.ty a >>> k))

def execAsr (n : Pump) (s : State) : Res State :=
  .next (s.pyRun n .asr fun _ i m => one (pyShift i m fun a k => pyFit i.ty false (pyRound i.rnd k (pyVal i.ty a))))

/-- The low bits that RND drops (R287). -/
def rndDrop : PyTy → Nat
  | .f32 => 32
  | .f16 => 48
  | _ => 0

def pyRndOp : PyMeaning := fun _ i m =>
  match (i.opd 0).whole with
  | none => .error 0x02
  | some a => one (m.dst i.ty (i.opd 1) (pyFit i.ty i.sat (pyRound i.rnd (rndDrop i.ty) m.run.acc[a].toInt)))

def execRnd (n : Pump) (s : State) : Res State := .next (s.pyRun n .rnd pyRndOp)

/-- The range of SAT inside an accumulator (R287). -/
def satLo : PyTy → Int
  | .i32 => -2147483648
  | .u32 => 0
  | _ => -9223372036854775808

def satHi : PyTy → Int
  | .i32 => 2147483647
  | .u32 => 4294967295
  | _ => 9223372036854775807

def pySat : PyMeaning := fun _ i m =>
  match (i.opd 0).whole, (i.opd 1).whole with
  | some a, some b => .ok (1, { m with run := { m.run with
      acc := m.run.acc.set b (BitVec.ofInt 72 (clampI m.run.acc[a].toInt (satLo i.ty) (satHi i.ty))) } })
  | _, _ => .error 0x02

def execSat (n : Pump) (s : State) : Res State := .next (s.pyRun n .sat pySat)

def execMin (n : Pump) (s : State) : Res State :=
  .next (s.pyRun n .min fun _ i m => one (py2 i m fun a b => pyFit i.ty false (min a b)))

def execMax (n : Pump) (s : State) : Res State :=
  .next (s.pyRun n .max fun _ i m => one (py2 i m fun a b => pyFit i.ty false (max a b)))

/-- CLMP: the pair at m is one memory operand, and a mode that steps it steps it by size (R288). -/
def pyClmp : PyMeaning := fun _ i m => one do
  let (x, m) ← m.src i.ty (i.opd 0)
  let z := i.ty.size
  let (a, m) ← m.memOp z (i.opd 1)
  m.check a z z
  m.check (a + z) z z
  let lo := pyVal i.ty (BitVec.ofNat 32 (beNat (m.bytes a z)))
  let hi := pyVal i.ty (BitVec.ofNat 32 (beNat (m.bytes (a + z) z)))
  (m.costPair a z).dst i.ty (i.opd 2) (pyFit i.ty false (clampI (pyVal i.ty x) lo hi))

def execClmp (n : Pump) (s : State) : Res State := .next (s.pyRun n .clmp pyClmp)

/-! ## Logic and compares (R289, R290) -/

def execAnd (n : Pump) (s : State) : Res State := .next (s.pyRun n .and fun _ i m => one (pyBits i m fun a b => a &&& b))
def execOr (n : Pump) (s : State) : Res State := .next (s.pyRun n .or fun _ i m => one (pyBits i m fun a b => a ||| b))
def execXor (n : Pump) (s : State) : Res State := .next (s.pyRun n .xor fun _ i m => one (pyBits i m fun a b => a ^^^ b))

def pyNot : PyMeaning := fun _ i m => one do
  let (a, m) ← m.src i.ty (i.opd 0)
  m.dst i.ty (i.opd 1) (lowBits i.ty (~~~a))

def execNot (n : Pump) (s : State) : Res State := .next (s.pyRun n .not pyNot)

def execCeq (n : Pump) (s : State) : Res State :=
  .next (s.pyRun n .ceq fun _ i m => one (pyCmp i m fun a b => lowBits i.ty a == lowBits i.ty b))
def execCne (n : Pump) (s : State) : Res State :=
  .next (s.pyRun n .cne fun _ i m => one (pyCmp i m fun a b => lowBits i.ty a != lowBits i.ty b))
def execClt (n : Pump) (s : State) : Res State :=
  .next (s.pyRun n .clt fun _ i m => one (pyCmp i m fun a b => decide (pyVal i.ty a < pyVal i.ty b)))
def execCle (n : Pump) (s : State) : Res State :=
  .next (s.pyRun n .cle fun _ i m => one (pyCmp i m fun a b => decide (pyVal i.ty a ≤ pyVal i.ty b)))
def execCltu (n : Pump) (s : State) : Res State :=
  .next (s.pyRun n .cltu fun _ i m => one (pyCmp i m fun a b => decide ((lowBits i.ty a).toNat < (lowBits i.ty b).toNat)))
def execCleu (n : Pump) (s : State) : Res State :=
  .next (s.pyRun n .cleu fun _ i m => one (pyCmp i m fun a b => decide ((lowBits i.ty a).toNat ≤ (lowBits i.ty b).toNat)))

/-! ## Flow (R291, R292) -/

/-- The target of a branch: the next instruction's address plus twice the displacement. -/
def branchTo (i : PyInst) (m : PyM) (k : Nat) : Except Nat PyM :=
  match (i.opd k).disp i.ty with
  | none => .error 0x02
  | some d => m.jump ((i.next : Int) + 2 * d)

/-- BZ and BNZ; a target that cannot be traps only when the branch is taken. -/
def pyBranch (taken : Word → Bool) : PyMeaning := fun _ i m =>
  match (i.opd 0).direct, (i.opd 1).disp i.ty with
  | some r, some _ => if taken m.run.g[r] then (branchTo i m 1).map fun m => (3, m) else .ok (1, m)
  | _, _ => .error 0x02

def execBz (n : Pump) (s : State) : Res State := .next (s.pyRun n .bz (pyBranch fun w => w = 0#32))
def execBnz (n : Pump) (s : State) : Res State := .next (s.pyRun n .bnz (pyBranch fun w => w ≠ 0#32))
def execBra (n : Pump) (s : State) : Res State := .next (s.pyRun n .bra fun _ i m => (branchTo i m 0).map fun m => (2, m))

def pyJmp : PyMeaning := fun _ i m => do
  let (a, m) ← m.src .u32 (i.opd 0)
  (m.jump a.toNat).map fun m => (3, m)

def execJmp (n : Pump) (s : State) : Res State := .next (s.pyRun n .jmp pyJmp)

def pyCall : PyMeaning := fun _ i m =>
  match (i.opd 0).disp i.ty with
  | none => .error 0x02
  | some _ => do
    let m ← m.push (BitVec.ofNat 32 i.next)
    (branchTo i m 0).map fun m => (3, m)

def execCall (n : Pump) (s : State) : Res State := .next (s.pyRun n .call pyCall)

def pyRet : PyMeaning := fun _ _ m => do
  let (a, m) ← m.pop
  (m.jump a.toNat).map fun m => (3, m)

def execRet (n : Pump) (s : State) : Res State := .next (s.pyRun n .ret pyRet)

/-! ## Stage unit and system (R293 to R296) -/

def execStg (n : Pump) (s : State) : Res State := .next (s.pyRun n .stg fun k i m => one (pyStage k false i m))
def execStgb (n : Pump) (s : State) : Res State := .next (s.pyRun n .stgb fun k i m => one (pyStage k true i m))

/-- END: it waits for the stage unit, and then the sample ends (R293). A ROM program has then done what R265 gives. -/
def execEndSample (n : Pump) (s : State) : Res State :=
  match s.pump n with
  | none => .next s
  | some r =>
    match s.prog.fetch r.pc with
    | .ok i => if i.op = .endS ∧ mustWait i r = false then .next (s.endOf n { r with pc := i.next } s.trough) else .next s
    | .badSpec .endS c => .next (s.pyTrap n r c r.pc)
    | .rom => .next (s.romEnd n r)
    | _ => .next s

/-- TRAP #n: code 0x80 + n for a short immediate from 0 to 127, else 0x02. -/
def pyTrapCode (i : PyInst) : Nat :=
  match i.opd 0 with
  | .immS v => if v.toNat < 128 then 0x80 + v.toNat else 0x02
  | _ => 0x02

def execTrap (n : Pump) (s : State) : Res State := .next (s.pyRun n .trap fun _ i _ => .error (pyTrapCode i))

def execNop (n : Pump) (s : State) : Res State := .next (s.pyRun n .nop fun _ _ m => .ok (1, m))

/-- ILLEGAL_OPCODE: a fetch that gives no instruction traps (R282, R299). -/
def execIllegalOpcode (n : Pump) (s : State) : Res State :=
  match s.pump n with
  | none => .next s
  | some r =>
    match s.prog.fetch r.pc with
    | .bad c => .next (s.pyTrap n r c r.pc)
    | _ => .next s

/-- STAGE_UNIT_COMMIT: a stage instruction's busy time ends, and its s and v writes commit. The core may have waited for it (R296,
R301). -/
def execStageUnitCommit (n : Pump) (s : State) : Res State :=
  match s.pump n with
  | none => .next s
  | some r =>
    match r.stage with
    | none => .next s
    | some j =>
      let waits := match s.prog.fetch r.pc with | .ok i => mustWait i r | _ => false
      if decide (j.left = 0) || waits then
        let m := PyM.commitStage ⟨{ r with cycles := r.cycles + j.left }, s.trough⟩
        .next { s with trough := m.trough, pmp.pumps := s.pmp.pumps.set n (some m.run) }
      else .next s

/-- RUNAWAY_TRAP: a sample still runs 4,096 PMP cycles after dispatch (R299). -/
def execRunawayTrap (n : Pump) (s : State) : Res State :=
  match s.pump n with
  | none => .next s
  | some r => if 4096 ≤ r.cycles then .next (s.pyTrap n r 0x0A r.pc) else .next s

end Sys2Proof.Machine
end

