-- ==== Sys2Proof/Machine/Reset.lean ====
section
/-! DEFINITION. Supplies, clocks, die-to-die links, resets, start-up, administrative enable and rest (R29 to R61, R392 to R394). -/

namespace Sys2Proof.Machine

/-! ## Resets (R47 to R51) -/

/-- What no reset of the device clears of the trough: the stack regions (R244). -/
def Trough.stacks (t : Trough) : List Host.Cell := t.cells.filter fun c => decide (0xC00 ≤ c.1 % 4096) && decide (c.1 < 196608)

/-- A port in reset at whose CC pin the discharge goes on that its former state had begun, or begins as VCONN leaves it; AON time starts anew
(R103). -/
def PortState.discharging (x old : PortState) (aon : Nat) : PortState :=
  { x with tc := { x.tc with dis := (old.tc.vconnOff aon).dis.map fun d => (d.1, d.2 - aon) } }

/-- A device reset takes effect: every block returns to its reset values but what R48 and R244 keep; the external mux latches keep their
image (R192), and what the supervisor did while W0 was not heard waits for the link (R375). The device waits in reset for
RESET_RELEASE. -/
def State.deviceReset (s : State) (cause : Nat) : State :=
  let s := s.supFreeze
  { State.reset with
    dev := { Dev.reset with
      code := s.dev.code, vsb := s.dev.vsb, us := s.dev.us, rstCause := setBit s.dev.rstCause cause
      vauxOk := s.dev.vauxOk, vconnIn0 := s.dev.vconnIn0, vconnIn1 := s.dev.vconnIn1 }
    clk := { Clk.reset with x32fail := s.clk.x32fail, xfail := s.clk.xfail }
    alm := Alm.reset s.dev.code
    sup := { s.sup with evt := Sup.reset.evt, ie := Sup.reset.ie, cnt := Sup.reset.cnt
                        reports := if s.heard then [] else s.sup.reports }
    mux := { Mux.reset with latched := s.mux.latched }
    trough := ⟨s.trough.stacks, Vector.replicate 48 none⟩
    ports := Vector.ofFn fun p : Port => (PortState.reset p).discharging s.ports[p] s.dev.aon
    draws := s.draws, pending := s.pending }

/-- STANDBY_POR: VSB falls below its power-on threshold: everything is cleared, the input supervisor included (R47, R48). The pins take
their reset states, and while VSB is absent their unpowered ones; no row tells when it is (R32, assumption 92). -/
def execStandbyPor (s : State) : Res State :=
  .next { State.reset with
    dev := { Dev.reset with code := s.dev.code, vsb := false, vauxOk := s.dev.vauxOk, vconnIn0 := s.dev.vconnIn0, vconnIn1 := s.dev.vconnIn1 }
    alm := Alm.reset s.dev.code
    mux := { Mux.reset with latched := s.mux.latched }
    ports := Vector.ofFn fun p : Port => (PortState.reset p).discharging s.ports[p] s.dev.aon
    draws := s.draws, pending := s.pending }

/-- SUPPLY_BELOW_THRESHOLD: a main supply falls; reset at once, POR_MAIN set (R32, R49). -/
def execSupplyBelowThreshold (_ : MainSupply) (s : State) : Res State := .next (s.deviceReset 1)

/-- RST_N_LOW: reset at once, PIN set (R49, R51). -/
def execRstNLow (s : State) : Res State := .next (s.deviceReset 2)

/-- RESET_RELEASE: the straps are latched, TAG is drawn (free, R343) and start-up begins (R22, R29, R52). With TMODE high no behaviour of the manual applies
(R23). -/
def execResetRelease (straps : BitVec 3) (tmode : Bool) (s : State) : Res State :=
  if s.dev.phase = .reset then
    if tmode then .fault .factoryTestMode
    else
      let (t, s) := s.draw
      .next { s with
        dev := { s.dev with phase := .clock, relUs := s.dev.aon, vsb := true }
        twi := { s.twi with straps := straps }
        lnk := { s.lnk with tag := BitVec.ofNat 32 t } }
  else .next s

/-- STARTUP_OSCILLATOR_RUNNING: XREF runs (R34, R52). -/
def execStartupOscillatorRunning (s : State) : Res State :=
  if s.dev.phase = .clock then
    .next { s with dev := { s.dev with phase := .pll }, clk := { s.clk with suo := true, xrefOk := false } }
  else .next s

/-! ## Die-to-die links (R42 to R46, R56) -/

/-- Two counts of one counter together (R395). -/
def satAdd (v w : Word) : Word := BitVec.ofNat 32 (satN 32 (v.toNat + w.toNat))

/-- W0 is heard again: what happened while its link was down reaches the core's events and counters (R56, R375). -/
def Sup.hear (u : Sup) : Sup :=
  { u with
    held := none, evt := u.evt ||| u.late, cnt := Vector.ofFn fun i : Fin 8 => satAdd u.cnt[i] u.lateCnt[i]
    late := 0#32, lateCnt := Vector.replicate 8 0#32 }

def State.supHeard (s : State) (d : WDie) : State :=
  match d with | .w0 => { s with sup := s.sup.hear } | .w1 => s

/-- Both links have been trained or have failed: the read step begins (R43, R52). -/
def State.linksDone (s : State) : State :=
  let ok (l : D2d) : Bool := l.trained || l.d2df
  if ok s.clk.d0 && ok s.clk.d1 then { s with dev := { s.dev with phase := .read } } else s

/-- D2D_TRAINING_ATTEMPT_END (R42 to R44). DESIGN CHOICE (assumption 80): D2D_STATn shows UCREV and UCODE of a successful attempt only;
R44 does not say whether an attempt that fails after the revisions were exchanged shows them. -/
def execD2dTrainingAttemptEnd (d : WDie) (ok : Bool) (ucrev : Byte) (s : State) : Res State :=
  let l := s.d2 d
  if decide (s.dev.phase = .links) && !l.trained && !l.d2df then
    if ok then
      .next (((s.onD2 d fun l => { l with
        trained := true, tries := l.tries + 1, ucrev := ucrev, ucode := !Config.ucodeOk ucrev }).supHeard d).linksDone)
    else .next ((s.onD2 d fun l => { l with tries := l.tries + 1, d2df := decide (1 ≤ l.tries) }).linksDone)
  else .next s

/-- FLIT_CRC_FAIL: a flit is replayed (R39). -/
def execFlitCrcFail (d : WDie) (s : State) : Res State :=
  let l := s.d2 d
  if l.trained && !l.d2df && s.served then .next (s.onD2 d fun l => { l with crcCnt := satInc l.crcCnt }) else .next s

/-- A port whose die is lost: its pins, its contexts and its slot at their reset states; fault states, counters, events and metering
stay; the credits stay until the cistern's grant (R18, R45, R48). Its pin that carried VCONN is discharged (R103). DESIGN CHOICE (assumption 28):
a mode that was entered ends without VDM_EVT.EXIT, as R184 does not name D2DF among the ends that set it. -/
def PortState.dieLost (aon : Nat) (x : PortState) : PortState :=
  { x with
    live := false
    tc := (x.tc.vconnOff aon).leave .disabled
    prot := Prot.reset
    pd := { Pd.reset with charge := x.pd.charge, pledge := x.pd.pledge, inflow := x.pd.inflow
                          evt := x.pd.evt, ie := x.pd.ie, cnt := x.pd.cnt }
    vdm := { VdmP.reset with evt := x.vdm.evt, ie := x.vdm.ie, cnt := x.vdm.cnt }
    slc := { Slc.reset with st := if x.cnt.any then .fault else .off, evt := x.slc.evt, ie := x.slc.ie, cnt := x.slc.cnt
                            ilim := x.cfg.firstIlim, tcause := x.slc.tcause, tRamp := x.slc.tRamp, tDisch := x.slc.tDisch
                            offt := x.slc.offt }
    stg := Stg.reset
    loop := { x.loop.portReset with limp := x.loop.limp, lcause := x.loop.lcause, cycMax := x.loop.cycMax, cnt := x.loop.cnt }
    grd := { x.grd with ccFrame := none, notice := false }
    cnt := { x.cnt with busy := false, limpWait := false, since := [], waitOn := false }
    prior := none, slcWas := none }

/-- The requester of a die's link monitor at the yard arbiter (R428). -/
def WDie.monitor : WDie → Nat
  | .w0 => 52
  | .w1 => 53

/-- D2D_LINK_LOST: the die enters D2DF, and its monitor posts the event (R45, R46, R130, R375). -/
def execD2dLinkLost (d : WDie) (s : State) : Res State :=
  let l := s.d2 d
  if l.trained && !l.d2df && s.served then
    let s := match d with | .w0 => s.supFreeze | .w1 => s
    let s := s.forPorts (allPorts.filter fun p => dieOf p = d) fun s p =>
      let was := (s.port p).tc.attached
      let s := ((s.abortSamples p).yardClear p).onPort p (PortState.dieLost s.dev.aon)
      if was then s.muxUpdate p else s
    .next ((s.onD2 d fun l => { l with d2df := true }).note (WDie.monitor d) none 0 (.linkLost d))
  else .next s

/-- D2DF_CISTERN_RELEASE: the cistern's next grant in the crier's place (R45, R46, R332). -/
def execD2dfCisternRelease (d : WDie) (s : State) : Res State :=
  if (s.d2 d).d2df && s.cisOn then
    let s := (s.ledger fun s => s.forPorts (allPorts.filter fun p => dieOf p = d) fun s p => s.release p).cisGrant 17
    match d with
    | .w0 => .next (s.setProfile true)
    | .w1 => .next s
  else .next s

/-! ## The stop phase (R49) -/

/-- The stop phase begins: sluices discharge, a stop tally is requested, and an all-zero mux frame is due (R192, R319). -/
def State.stopPhase (s : State) (c : StopCause) : State :=
  if s.dev.stop.isSome then s else
  let s := { s with dev := { s.dev with stop := some c }, mux := { s.mux with zero := true } }
  (s.forPorts (allPorts.filter fun p => (s.port p).live) fun s p => s.slcOff p).askTally .stop

/-- The KEY of DEV_RST. -/
def State.wrDevRst (s : State) (w : Word) : State :=
  s.locked (decide (slice w 0 8 ≠ 0)) fun s => if slice w 0 8 = 0xD5 then s.stopPhase .soft else s

/-- DEV_RST: a write of the register (R49, R387). -/
def execDevRst (w : Word) (s : State) : Res State := s.hostWrite 0x008 w fun s => s.wrDevRst w

/-- RELOAD and CCLR of ALM_CTL. -/
def State.wrAlmCtl (s : State) (w : Word) : State :=
  let s := if w.getLsbD 31 then { s with alm := { s.alm with rejCnt := 0#32 } } else s
  s.locked (decide (slice w 0 8 ≠ 0)) fun s => if slice w 0 8 = 0xA7 then s.stopPhase .reload else s

/-- ALMANAC_RELOAD: a write of ALM_CTL (R49, R387). -/
def execAlmanacReload (w : Word) (s : State) : Res State := s.hostWrite 0x204 w fun s => s.wrAlmCtl w

/-- The all-zero frame of the stop phase stands in the external latches (R192). -/
def State.muxZero (s : State) : State := { s with mux := { s.mux with latched := Vector.replicate 48 0#4 } }

/-- STOP_PHASE_END: every VBC is below vSafe0V or 25 ms have passed (R49); the chain has shifted its all-zero frame (R192). -/
def execStopPhaseEnd (s : State) : Res State :=
  match s.dev.stop with
  | some .soft => .next (s.muxZero.deviceReset 3)
  | some .reload => .next (s.muxZero.deviceReset 4)
  | none => .next s

/-! ## Start-up after the links (R52 to R57) -/

/-- The coefficient block of port p at the apply step, of at most 1,024 bytes: its class's set, bytes beyond SET_BYTES 0 (R243, R244).
DESIGN CHOICE (assumption 82): a port without a class gets set 0, the COEF of its reset values; R79 and R244 give the block of a class
only. -/
def coefBytes (m : Image) (sets : List (List Byte)) (p : Nat) : List Byte := (tab sets (tab (m.ports.map (·.coef)) p 0) []).take 1024

/-- The slots as the apply step leaves them: coefficient blocks and the stack regions, which nothing clears (R244). -/
def coefCells (m : Image) (sets : List (List Byte)) (old : Trough) : List Host.Cell :=
  (List.range 48).flatMap fun p => memOf zeroByte (4096 * p) (coefBytes m sets p) ++ old.stacks.filter fun c => decide (c.1 / 4096 = p)

/-- The ROM set's frequency nearest a class's FSW, the lower one on a tie (R267). -/
def romKhz (fsw : Nat) : Nat :=
  [250, 300, 400, 500, 600, 700, 800, 900, 1000].foldl
    (fun (a b : Nat) => if ((b : Int) - fsw).natAbs < ((a : Int) - fsw).natAbs then b else a) 200

/-- The trough as the apply step leaves it; under the ROM sets a port without a class has no block (assumption 82). -/
def troughOf (m : Image) (old : Trough) : Trough :=
  match m.sets with
  | some l => ⟨coefCells m l old, Vector.replicate 48 none⟩
  | none => ⟨old.stacks, Vector.ofFn fun p : Port =>
      let c := tab m.ports p.val (PortCfg.reset p)
      if c.enabled then some (c.form, romKhz c.fsw) else none⟩

/-- POWER values reach the supervisor: in one cycle, or after HO_RUN (R87). -/
def Sup.power (u : Sup) (c : PowerCfg) : Sup := if u.st = .hoRun then { u with cfgPend := some c } else u.take c

/-- The supervisor shows the reserve in use (R56). -/
def Sup.onReserve (u : Sup) : Bool := u.st = .reserve || u.st = .rtnRun

/-- A link port that the image puts in use enters SEEK (R341). -/
def LinkPort.begin (l : LinkPort) (use : Bool) : LinkPort := if use then { l with st := .seek } else l

/-- The apply step (R56, R87, R88, R229, R333, R341). -/
def State.applyImage (s : State) (m : Image) : State :=
  let s := { s with
    dev := { s.dev with phase := .restore }
    alm := { s.alm with
      cfg := m.dev, fmtMajor := m.fmtMajor, fmtMinor := m.fmtMinor, talOff := m.talOff, featIgn := m.featIgn
      loopRom := m.romProg, skip := m.skip, defaults := decide (m.src = 2), src := m.src, seq := m.seq, build := m.build }
    ports := Vector.ofFn fun p : Port =>
      let c := tab m.ports p.val (PortCfg.reset p)
      { s.ports[p] with cfg := c, tc := { s.ports[p].tc with admEn := s.ports[p].tc.admEn && c.enabled }
                        slc := { s.ports[p].slc with ilim := c.firstIlim } }
    trough := troughOf m s.trough
    prog := ⟨m.romProg, if m.romProg then [] else memOf zeroByte 0 m.code⟩
    sup := if s.heard then s.sup.power m.power else s.sup
    pwm := if m.dev.syncTrack then { s.pwm with sync := .acquire } else s.pwm
    cis := { s.cis with reserve := s.clk.d0.d2df || s.sup.onReserve }
    lnk := { s.lnk with w := s.lnk.w.begin m.dev.linkW, e := s.lnk.e.begin m.dev.linkE } }
  s.tryHandOver.linkChanged

/-- ALMANAC_APPLY_DONE. -/
def execAlmanacApplyDone (s : State) : Res State :=
  if s.dev.phase = .apply then
    match s.alm.chosen with
    | some m => .next (s.applyImage m)
    | none => .next (s.applyImage (factoryImage s.dev.code))
  else .next s

/-- COUNTER_RESTORE_DONE: the tally region is scanned (R54, R85, R323). -/
def execCounterRestoreDone (slots : List TallySlot) (s : State) : Res State :=
  if s.dev.phase = .restore then .next (State.restoreTally { s with dev := { s.dev with phase := .cal } } slots) else .next s

/-- A free value as an integer. -/
def freeInt (k : Nat) : Int := if Config.free k % 2 = 0 then (Config.free k / 2 : Nat) else -((Config.free k / 2 : Nat) : Int) - 1

/-- Calibration of every modulator of the dies that are not lost: the offsets, and the gains if `gain`, become what was measured,
which no command shows (free values, assumption 3). -/
def State.calAll (s : State) (gain : Bool) : State :=
  let k := s.draws
  { s with
    draws := k + 288
    ports := Vector.ofFn fun p : Port =>
      let x := s.ports[p]
      if s.lost p then x else
      { x with met := { x.met with mods := Vector.ofFn fun i : Fin 3 =>
          let m := x.met.mods[i]
          { m with
            off := freeInt (k + 6 * p.val + 2 * i.val)
            gain := if gain then freeInt (k + 6 * p.val + 2 * i.val + 1) else m.gain
            aside := false } } } }

/-- INITIAL_CALIBRATION_DONE: coefficients of every modulator, the fine step of the delay-locked line in 0.1 ps, and PREF_IN on each die
if it is used (R228, R307, R313). -/
def execInitialCalibrationDone (pref0 pref1 : Nat) (s : State) : Res State :=
  if decide (s.dev.phase = .cal) && !s.mtr.calibrated then
    let (tap, s) := (s.calAll true).drawIn 129 132
    let s := { s with mtr.calibrated := true, pwm.tap := tap }
    if s.alm.cfg.pref then
      let s := if s.clk.d0.d2df then s else s.prefSee .w0 pref0
      .next (if s.clk.d1.d2df then s else s.prefSee .w1 pref1)
    else .next s
  else .next s

/-- The port may be enabled once no port reset is in progress: a class, ADM_EN, a die that is there and on the compatibility list, no fault
state (R17, R44, R55, R91, R394). -/
def State.canEnable (s : State) (p : Port) : Bool :=
  let x := s.port p
  x.cfg.enabled && x.tc.admEn && !s.lost p && !(s.d2 (dieOf p)).ucode && !x.cnt.any

/-- The port may be enabled now. -/
def State.mayEnable (s : State) (p : Port) : Bool := s.canEnable p && !(s.port p).cnt.busy

/-- A port enters SELFTEST from DISABLED (R91, R99); its dowser starts at frame 0, and the sluice that stands OFF opens a window of the
FET-short check (R218). DESIGN CHOICE (assumption 106): a run of the dowser's readings goes on over the time for which the port was disabled
and unmeasured, and that time does not count in it (R115). While a die cut stands its factor is 0, and it goes on to GUARD_OFF, as it does when F is 0 without a cut (R125). -/
def State.enable (s : State) (p : Port) : State :=
  let s := (s.onPort p fun x => { x with
    live := true
    tc := x.tc.fresh p .selftest
    slc := if x.slc.st = .off then x.slc.openWindow else x.slc
    grd := { x.grd with frame := 0, ccFrame := none, zeroF := false } }).noteConn p
  (if s.dieCut p then s.dieHotOn p else s).judgeZero p

/-- A port reset is complete: BUSY falls (R50, R393). -/
def State.resetDone (s : State) (p : Port) : State :=
  s.onPort p fun x => { x with
    cnt := { x.cnt with busy := false, waitOn := false, evt := setBit x.cnt.evt 1, prstCnt := satInc x.cnt.prstCnt } }

/-- PORTS_ENABLED at one port: a port reset that has run and waited for it is complete, and the port is enabled if it may be (R50, R55). -/
def State.enableFirst (s : State) (p : Port) : State :=
  let s := if (s.port p).cnt.waitOn then s.resetDone p else s
  if s.mayEnable p then s.enable p else s

/-- PORTS_ENABLED: the last step of start-up, `ms` after reset release (R52, R55, R192, R324). -/
def execPortsEnabled (ms : Nat) (s : State) : Res State :=
  if decide (s.dev.phase = .cal) && s.mtr.calibrated then
    let s := { s with
      dev := { s.dev with phase := .run, startMs := satN 16 ms, evt := setBit s.dev.evt 0 }
      mux := { s.mux with zero := true } }
    .next (s.forPorts allPorts State.enableFirst).firstErase
  else .next s

/-! ## Clock sources (R34 to R37) -/

/-- XREF and the PLLs are powered: the device is neither in reset nor in rest. -/
def State.clocked (s : State) : Bool :=
  match s.dev.phase with | .reset | .clock | .rest => false | _ => true

/-- XREF_CRYSTAL_QUALIFIED (R34, R35). -/
def execXrefCrystalQualified (s : State) : Res State :=
  if s.clocked && s.clk.suo then .next { s with clk := { s.clk with suo := false, xrefOk := true, xfail := false } } else .next s

/-- XREF_CRYSTAL_FAIL: the crystal in use stops or leaves ±0.5 % (R35). -/
def execXrefCrystalFail (s : State) : Res State :=
  if s.clocked && s.clk.xrefOk then
    .next { s with clk := { s.clk with suo := true, xrefOk := false, xfail := true, xfailCnt := satInc s.clk.xfailCnt } }
  else .next s

/-- PLL_LOCK_LOST: a device reset with LOCK set (R36, R49). DESIGN CHOICE (assumption 81): so it is from the PLLs' first lock on, in the
later steps of start-up and in rest exit too; R36 speaks of a running device. -/
def execPllLockLost (s : State) : Res State := if s.clk.pllS && s.clk.pllH && s.clocked then .next (s.deviceReset 5) else .next s

/-- X32_CRYSTAL_FAIL (R37). -/
def execX32CrystalFail (s : State) : Res State := .next { s with clk := { s.clk with x32fail := true } }

/-- X32_CRYSTAL_RECOVER (R37). -/
def execX32CrystalRecover (s : State) : Res State := .next { s with clk := { s.clk with x32fail := false } }

/-! ## Port reset (R50, R394) -/

/-- An administrative write that acts on port p is told to the hands (R130, R428). -/
def State.adminNote (s : State) (p : Port) : State := s.note 54 (some p) 3 .admin

/-- A port reset is accepted, in every condition in which the register is served, unless one is in progress or the die is lost (R50,
R394). In LIMP it waits until the limp PI has dropped DEN; only the port's sample ends at once (R50, R394). -/
def State.portReset (s : State) (p : Port) : State :=
  if s.lost p || (s.port p).cnt.busy then s
  else if (s.port p).cnt.limp && (s.port p).stg.den then ((s.abortSamples p).onPort p PortState.awaitReset).adminNote p
  else ((s.resetRun p).twinFreed p).adminNote p

/-- A twin that was held while this port was in FETS or LIMP may have its stage and attach (R220, R242). -/
def State.twinAgain (s : State) (p : Port) : State :=
  if (s.port p).cfg.twin then (s.twinStart (sibOf p)).twinRetry (sibOf p) else s

/-- PRST of CNT_RST. -/
def State.wrCntRst (s : State) (p : Port) (w : Word) : State := s.locked (w.getLsbD 0) fun s => if w.getLsbD 0 then s.portReset p else s

/-- PORT_RESET: PRST written 1 (R50, R387). -/
def execPortReset (p : Port) (s : State) : Res State :=
  s.hostWrite (portReg p 0xE0) 1#32 fun s => s.wrCntRst p 1#32

/-- PORT_RESET_COMPLETE: 25 ms have passed and the sluice is OFF: the port is enabled again if it may be, and BUSY falls (R50, R393, R394).
Before PORTS_ENABLED a port that may be enabled waits for that row with BUSY 1. -/
def execPortResetComplete (p : Port) (s : State) : Res State :=
  let x := s.port p
  if s.served && x.cnt.busy && !x.cnt.limpWait && !x.slc.open' then
    let s := (s.onPort p fun x => { x with
      tc := { x.tc with st := if x.cnt.any && decide (x.tc.st ≠ .disabled) then .fault else .disabled } })
    if !s.portsOn && s.canEnable p then .next (s.onPort p fun x => { x with cnt := { x.cnt with waitOn := true } })
    else
      let s := (s.resetDone p).twinAgain p
      .next (if s.mayEnable p then s.enable p else s)
  else .next s

/-! ## Administrative enable (R91, R394) -/

/-- ADM_EN written: it acts at once where the ports have been enabled, else at PORTS_ENABLED (R55, R91). -/
def State.adm (s : State) (p : Port) (en : Bool) : State :=
  let s := s.onPort p fun x => { x with tc := { x.tc with admEn := en } }
  let s := s.adminNote p
  if !s.portsOn then s
  else if en then
    if (s.port p).tc.st = .disabled ∧ s.mayEnable p then s.enable p else s
  else if (s.port p).tc.st = .disabled then s
  else ((s.ledgerOf p fun s => s.leave p .disabled).twinFreed p).onPort p fun x => { x with grd := { x.grd with ccFrame := none } }

/-- TC_CTL: CCLR is free, ADM_EN needs the unlock (R387). -/
def State.wrTcCtl (s : State) (p : Port) (w : Word) : State :=
  let s := if w.getLsbD 31 then s.onPort p fun x => { x with tc := { x.tc with cnt := Tc.reset.cnt } } else s
  let en := w.getLsbD 0
  s.locked (en != (s.port p).tc.admEn) fun s =>
    if en = (s.port p).tc.admEn || (en && !(s.port p).cfg.enabled) then s else s.adm p en

/-- ADM_DISABLE: TC_CTL.ADM_EN written 0. -/
def execAdmDisable (p : Port) (s : State) : Res State :=
  s.hostWrite (portReg p 0x03) 0#32 fun s => s.wrTcCtl p 0#32

/-- ADM_ENABLE: TC_CTL.ADM_EN written 1. -/
def execAdmEnable (p : Port) (s : State) : Res State :=
  s.hostWrite (portReg p 0x03) 1#32 fun s => s.wrTcCtl p 1#32

/-! ## Rest (R58 to R61) -/

/-- The dowser goes on after rest with the frame that it stood in. -/
def PortState.dowserGo (x : PortState) : PortState :=
  if x.live ∧ x.cfg.dowser then { x with grd := { x.grd with ccFrame := nextCc x.grd.frame x.tc.st } } else x

/-- REST_ENTRY: the idle time has passed: SLEEP goes out on each linked port, and the device rests once that has been acknowledged; at once where no
port has a partner (R58, R340, R360). -/
def execRestEntry (s : State) : Res State :=
  if s.mayRest then
    if s.lnk.w.isLinked || s.lnk.e.isLinked then
      let w := s.wakeMs
      let s := { s with draws := s.draws + 1 }
      let s := if s.lnk.w.isLinked then s.sendFrame false (.sleep w) else s
      .next (if s.lnk.e.isLinked then s.sendFrame true (.sleep w) else s)
    else .next s.restNow
  else .next s

/-- REST_WAKE. -/
def execRestWake (src : WakeSource) (s : State) : Res State := .next (s.wake src)

/-- REST_EXIT_LINKS_RETRAINED. -/
def execRestExitLinksRetrained (s : State) : Res State :=
  if s.dev.phase = .wakeLinks then .next { s with dev := { s.dev with phase := .wakeCal } } else .next s

/-- REST_EXIT_COMPLETE: offsets refreshed, calibration from slot 0, the dowsers on again (R61, R113, R311). -/
def execRestExitComplete (s : State) : Res State :=
  if s.dev.phase = .wakeCal then
    let s := (s.calAll false).onPorts PortState.dowserGo
    .next { s with
      dev := { s.dev with phase := .run }
      mtr := { s.mtr with grp := Vector.ofFn fun i => { s.mtr.grp[i] with slot := 0, beside := false, standIn := false } } }
  else .next s

end Sys2Proof.Machine
end

