-- ==== Sys2Proof/Machine/Supervisor.lean ====
section
/-! DEFINITION. The input supervisor on W0 and the crier (R362 to R376). Input voltages in 10 mV units. The supervisor runs in every
condition of the device; what it reports arrives while W0 is heard. -/

namespace Sys2Proof.Machine

/-- WRN_SET: IN_A has stayed below V_WRN for 20 µs (R364). -/
def execWrnSet (inA : Nat) (s : State) : Res State :=
  let s := s.seeA inA
  if inA < s.sup.cfg.vWrn then .next s.setWrn else .next s

/-- WRN_CLEAR: IN_A has stayed above V_WRN + V_WRN_HYS for T_CLR, and the supervisor is in NORMAL (R364, R371). -/
def execWrnClear (inA : Nat) (s : State) : Res State :=
  let s := s.seeA inA
  let u := s.sup
  if u.wrn && decide (u.st = .normal) && decide (u.cfg.vWrn + u.cfg.vWrnHys < inA) then .next s.clearWrn else .next s

/-- WRN_ALERT: WRN has lasted T_ALERT, while W0 is heard (R372, R375). -/
def execWrnAlert (s : State) : Res State :=
  let u := s.sup
  if u.wrn && !u.dipSent && u.cfg.alert && s.crierOn then
    .next ((s.onSup fun u => { u with dipSent := true }).crierAsk .dip)
  else .next s

/-- HO_REQUEST: IN_A has stayed below V_HO for T_HO; WRN sets with it, and in NORMAL the hand-over starts or is refused (R364 to
R367). -/
def execHoRequest (inA : Nat) (s : State) : Res State :=
  let s := s.seeA inA
  if decide (inA < s.sup.cfg.vHo) && !s.sup.hoReq then
    .next ((s.onSup fun u => { u with hoReq := true, hoRefd := false }).setWrn).tryHandOver
  else .next s

/-- HO_REQUEST_CLEAR: IN_A rises above V_HO while a refused HO request is still set (R364, R367). -/
def execHoRequestClear (inA : Nat) (s : State) : Res State :=
  .next (s.seeA inA)

/-- HO_GATE_CHECK: GB_DRV stands 8 V above the inputs, or 900 µs have passed: GA_DRV turns off (R366, R370). -/
def execHoGateCheck (slow : Bool) (s : State) : Res State :=
  if decide (s.sup.st = .hoRun) && s.sup.ga then .next ((s.gateSlow slow).onSup fun u => { u with ga := false, gaOff := some u.now }) else .next s

/-- HO_COMPLETE: the sink phase ends, `us` after HO_RUN began: RESERVE, and the hand-over is posted (R87, R366, R372). If IN_B fell too
low meanwhile and IN_A stands above V_HO, the return follows at once (R368). -/
def execHoComplete (us : Nat) (s : State) : Res State :=
  if decide (s.sup.st = .hoRun) && !s.sup.ga then
    let s := s.onSup fun u => { u.settle with st := .reserve, hoUs := us, reports := u.reports ++ [true] }
    .next (((s.supEvt 2).supCnt 1).tryEmergency)
  else .next s

/-- QUAL_START: IN_A rises above V_RTN in HO_RUN or RESERVE (R364, R366). -/
def execQualStart (inA : Nat) (s : State) : Res State :=
  let s := s.seeA inA
  let u := s.sup
  if u.qual.isNone && (decide (u.st = .hoRun) || decide (u.st = .reserve)) && decide (u.cfg.vRtn < inA) then
    .next ((s.onSup fun u => { u with qual := some s.sup.now }).tryEmergency)
  else .next s.tryEmergency

/-- QUAL_BREAK: a sample finds IN_A not above V_RTN (R364). -/
def execQualBreak (inA : Nat) (s : State) : Res State :=
  let s := s.seeA inA
  if inA ≤ s.sup.cfg.vRtn then .next ((s.onSup fun u => { u with qual := none }).tryEmergency) else .next s.tryEmergency

/-- QUAL_COMPLETE: QUAL has lasted T_QUAL: the return starts (R365, R368). -/
def execQualComplete (s : State) : Res State :=
  if decide (s.sup.st = .reserve) && s.sup.qual.isSome then .next s.startReturn else .next s

/-- EMERGENCY_RETURN: a sample in RESERVE with RSV_LOW set and IN_A above V_HO (R368). -/
def execEmergencyReturn (inA : Nat) (s : State) : Res State := .next (s.seeA inA).tryEmergency

/-- RTN_GATE_CHECK: GA_DRV stands 8 V above the inputs, or 900 µs have passed: GB_DRV turns off (R368, R370). -/
def execRtnGateCheck (slow : Bool) (s : State) : Res State :=
  if decide (s.sup.st = .rtnRun) && s.sup.gb then .next ((s.gateSlow slow).onSup fun u => { u with gb := false, gbOff := some u.now }) else .next s

/-- RTN_COMPLETE: the sink phase ends: NORMAL, and the return is posted (R368, R372). An HO request that formed meanwhile is acted on
(R365). -/
def execRtnComplete (us : Nat) (s : State) : Res State :=
  if decide (s.sup.st = .rtnRun) && !s.sup.gb then
    let s := s.onSup fun u => { u with st := .normal, rtnUs := us, reports := u.reports ++ [false] }
    .next (((s.supEvt 3).supCnt 2).tryHandOver)
  else .next s

/-- RSV_LOW_SET: IN_B has stayed below VB_MIN for 20 µs (R364, R368). -/
def execRsvLowSet (inB : Nat) (s : State) : Res State :=
  let s := s.seeB inB
  if inB < s.sup.cfg.vbMin then .next (s.onSup fun u => { u with rsvLow := true }).tryEmergency else .next s

/-- RSV_LOW_CLEAR: IN_B has stayed above VB_MIN + 1.00 V for 1 s; a refused hand-over whose request is still set starts (R364,
R367). -/
def execRsvLowClear (inB : Nat) (s : State) : Res State :=
  let s := s.seeB inB
  if s.sup.cfg.vbMin + 100 < inB then .next (s.onSup fun u => { u with rsvLow := false }).tryHandOver else .next s

/-- BROWN_OUT_WARNING: VSB has stood below 3.0 V for 20 µs (R376). -/
def execBrownOutWarning (s : State) : Res State :=
  if s.sup.bow then .next s
  else .next ((((s.onSup fun u => { u with bow := true }).supEvt 7).supCnt 6).warnTally.wake .brownOut)

/-- BROWN_OUT_CLEAR: VSB has stood above the clear threshold for T_CLR (R376). -/
def execBrownOutClear (s : State) : Res State := .next (s.seeVsb.onSup fun u => { u with bow := false })

end Sys2Proof.Machine
end

