-- ==== Sys2Proof/Machine/Vdm.lean ====
section
/-! DEFINITION. Vendor-defined messages, cable and partner discovery, alternate modes, and the mux chain (R175 to R193). -/

namespace Sys2Proof.Machine

/-- The SVDM versions accepted (R175). -/
def verOk (v : Nat) : Bool := v = 20 || v = 21

/-- The machine awaits the response to its command in this state. -/
def VdmP.awaits (m : VdmP) (st : VdmState) : Bool := decide (m.st = st) && m.out.isSome && !m.intr && !m.waiting

/-- A VDM belongs to a pending command. -/
def isAnswer (out : Option Vdm) (v : Vdm) : Bool :=
  match out with | some c => decide (c.cmd = v.cmd) && decide (c.svid = v.svid) | none => false

def VdmP.answers (m : VdmP) (v : Vdm) : Bool := isAnswer m.out v

/-- Cable discovery awaits this answer in this state. -/
def VdmP.cabAnswers (m : VdmP) (st : VdmState) (v : Vdm) : Bool := decide (m.cab = st) && !m.cabIntr && isAnswer m.cabOut v

/-- A message of the partner at an accepted version lowers the version used with it (R175). -/
def State.verSeen (s : State) (p : Port) (v : Vdm) : State :=
  s.onVdm p fun m => { m with ver := if verOk v.ver then min m.ver v.ver else m.ver }

/-- The pending command is answered. -/
def State.vdmAnswered (s : State) (p : Port) (v : Vdm) : State :=
  ((s.vdmTimersOff p).onVdm p fun m => { m with out := none, busies := 0 }).verSeen p v

/-- A step on an ACK on SOP for the pending command in state st, which has gone out; any other one is discarded (R176, R179). An ACK of a version
not accepted fails the step. -/
def State.onAck (s : State) (h : Hand) (p : Port) (row : MsgRow) (st : VdmState) (f : Vdm → State → State) : Res State :=
  s.onMsg h p row fun m s => match m.msg with
    | .vdm v =>
      let d := (s.port p).vdm
      if !(d.awaits st && d.answers v) || (s.port p).prot.unsent .vdm then s
      else if verOk v.ver then f v (s.vdmAnswered p v)
      else s.vdmStepFails p
    | _ => s

/-! ## Cable discovery (R180 to R182) -/

/-- TVCONNSTABLE_EXPIRY: cable discovery begins. -/
def execTvconnstableExpiry (h : Hand) (p : Port) (s : State) : Res State :=
  s.timerStep h p .vconnStable fun s =>
    if s.bmcRuns p && (s.port p).tc.isSrc && !(s.port p).pd.cabled then (s.onVdm p fun m => { m with tries := 0 }).cableTry p else s

/-- PD_CABLE from a cable's identity (R181). -/
def cableOf (i : Identity) : Cable :=
  ⟨true, if i.amps5 then 2 else 1, i.vmax.toNat, i.epr && decide (i.vmax = 3#2)⟩

/-- A PID and VID as a register shows them. -/
def pidVid (i : Identity) : Word := i.pid ++ i.vid

/-- CABLE_DISCOVER_IDENTITY_RESPONSE: an ACK of a cable sets PD_CABLE; NAK, BUSY and an ACK of something else are failed attempts. -/
def execCableDiscoverIdentityResponse (h : Hand) (p : Port) (s : State) : Res State :=
  s.onMsg h p .cableId fun m s => match m.msg with
    | .vdm v =>
      if !(s.port p).vdm.cabAnswers .cableSop1 v || (s.port p).prot.unsent .cable then s else
      let s := s.cableTimersOff p
      match v.typ, v.body with
      | .ack, .identity i =>
        if !verOk v.ver || decide (i.product = .other) then s.cableTryFailed p (fun s => s.eprAnswer p)
        else
          let s := s.onPort p fun x => { x with
            pd := { x.pd with cable := cableOf i }
            vdm := { x.vdm with cable := pidVid i, cabOut := none, cabVer := min x.vdm.cabVer v.ver } }
          if decide (i.product = .activeCable) && i.sop2 then s.cabSend p .cableSop2 (discIdentityCmd (s.port p).vdm.cabVer)
          else s.cableDone p (fun s => s.eprAnswer p)
      | .nak, _ => (s.vdmCnt p 1).cableTryFailed p (fun s => s.eprAnswer p)
      | .busy, _ => (s.vdmCnt p 2).cableTryFailed p (fun s => s.eprAnswer p)
      | _, _ => s.cableTryFailed p (fun s => s.eprAnswer p)
    | _ => s

/-- TDISCOVERIDENTITY_EXPIRY: the next attempt (R180). -/
def execTdiscoveridentityExpiry (h : Hand) (p : Port) (s : State) : Res State :=
  s.timerStep h p .discoverIdentity fun s => if s.bmcRuns p ∧ (s.port p).vdm.cab = .cableSop1 then s.cableTry p else s

/-- CABLE_DISCOVERY_TIME_LIMIT: discovery is abandoned; what an SOP′ answer has set stands (R180). -/
def execCableDiscoveryTimeLimit (h : Hand) (p : Port) (s : State) : Res State :=
  s.timerStep h p .cableLimit fun s =>
    if s.bmcRuns p && !(s.port p).pd.cabled then
      let s := ((s.disarm p .vconnStable).cableTimersOff p).onProt p fun t => t.withdraw (· = .cable)
      if (s.port p).vdm.cab = .cableSop2 then s.cableDone p (fun s => s.eprAnswer p) else s.cableFailed p (fun s => s.eprAnswer p)
    else s

/-- SOP2_DISCOVER_IDENTITY_RESPONSE: recorded, and discovery is over; a NAK and a BUSY count as anywhere (R178, R180, R182). -/
def execSop2DiscoverIdentityResponse (h : Hand) (p : Port) (s : State) : Res State :=
  s.onMsg h p .sop2Id fun m s => match m.msg with
    | .vdm v =>
      if (s.port p).vdm.cabAnswers .cableSop2 v && !(s.port p).prot.unsent .cable then
        let s := match v.typ with | .nak => s.vdmCnt p 1 | .busy => s.vdmCnt p 2 | _ => s
        ((s.cableTimersOff p).onVdm p fun m => { m with sop2 := some v }).cableDone p (fun s => s.eprAnswer p)
      else s
    | _ => s

/-! ## Partner discovery and mode entry (R183, R186) -/

/-- PARTNER_DISCOVERY_START: Discover Identity on SOP; away from READY it waits for the next entry into it. DESIGN CHOICE (assumption 102): while it waits VDM_STAT shows DISC_ID with INTR 1, as for a command that gave way; R183 does
not say what is shown then. -/
def execPartnerDiscoveryStart (h : Hand) (p : Port) (s : State) : Res State :=
  s.timerStep h p .partnerDiscovery fun s =>
    if !(s.bmcRuns p && (s.port p).tc.isSrc) then s else
    let c := discIdentityCmd (s.port p).vdm.ver
    let s := s.onVdm p fun m => { m with left := (s.port p).cfg.list.filter (fun e => decide (e < 16)), svids := [], rounds := 0 }
    if (s.port p).pd.src = .ready then s.vdmSend p .discId c
    else s.onVdm p fun m => { m with st := .discId, out := some c, intr := true }

/-- Discover SVIDs sent once more. -/
def State.askSvids (s : State) (p : Port) : State :=
  (s.onVdm p fun m => { m with rounds := m.rounds + 1 }).vdmSend p .discSvid
    ⟨0xFF00#16, (s.port p).vdm.ver, .discSvids, .req, 0, .none⟩

/-- DISCOVER_IDENTITY_ACK: VDM_ID, then Discover SVIDs (R183 steps 1 and 2). -/
def execDiscoverIdentityAck (h : Hand) (p : Port) (s : State) : Res State :=
  s.onAck h p .discId .discId fun v s =>
    let s := match v.body with | .identity i => s.onVdm p fun m => { m with id := pidVid i } | _ => s
    (s.vdmEvt p 0).askSvids p

/-- DISCOVER_SVIDS_ACK: again while 12 SVIDs come without an ending zero, at most four times (R183 steps 2 and 3). -/
def execDiscoverSvidsAck (h : Hand) (p : Port) (s : State) : Res State :=
  s.onAck h p .discSvids .discSvid fun v s =>
    let l := match v.body with | .svids l => l | _ => []
    let s := s.onVdm p fun m => { m with svids := m.svids ++ l.filter fun x => decide (x ≠ 0#16) }
    if decide (l.length = 12) && decide (l.getLast? ≠ some 0#16) && decide ((s.port p).vdm.rounds < 4) then s.askSvids p
    else s.nextEntry p

/-- The mode VDO that the DisplayPort handshake accepts (R186). -/
def dpOk (m : ModeVdo) : Bool := m.vdo.getLsbD 0 && m.pinC

/-- DISCOVER_MODES_ACK: Enter Mode at OBJPOS, or the next entry (R183 steps 4 to 6). -/
def execDiscoverModesAck (h : Hand) (p : Port) (s : State) : Res State :=
  s.onAck h p .discModes .discModes fun v s =>
    let l := match v.body with | .modes l => l | _ => []
    let e := s.entryOfVdm p
    match (if e.objPos = 0 then none else l[e.objPos - 1]?) with
    | none => s.nextEntry p
    | some m =>
      if decide (e.kind = 1) && !dpOk m then s.nextEntry p
      else s.vdmSend p .enter (s.entryCmd p .enterMode e.objPos .none)

/-- MODE reached: the nibble goes to the mux chain (R183, R186, R190). -/
def State.modeReached (s : State) (p : Port) : State :=
  (s.onVdm p fun m => { m with st := .mode }).muxUpdate p

/-- The DisplayPort Status that this DFP_U shows: DFP_D Connected and Enabled (R186). -/
def dpStatusVdo : Word := 0x00000009#32

/-- UFP_U as UFP_D, signalling DP, pin assignment C (R186). -/
def dpConfigVdo : Word := 0x00000406#32

/-- ENTER_MODE_ACK: the mode is entered; DisplayPort is then configured (R183 step 7). DESIGN CHOICE (assumption 87): a KIND 1 mode too
counts as entered, with VDM_EVT.ENTER, at this ACK and so before Configure, and a failed Status Update ends it without VDM_EVT.EXIT; R183
does not say when ENTER sets. -/
def execEnterModeAck (h : Hand) (p : Port) (s : State) : Res State :=
  s.onAck h p .enterMode .enter fun _ s =>
    let s := (s.onVdm p fun m => { m with entered := true, hpd := false }).vdmEvt p 1
    let e := s.entryOfVdm p
    if e.kind = 1 then s.vdmSend p .dpStatus (s.entryCmd p .dpStatus e.objPos (.vdo dpStatusVdo))
    else s.modeReached p

/-- DP_STATUS_UPDATE_ACK: HPD State is relayed, and Configure follows (R186). -/
def execDpStatusUpdateAck (h : Hand) (p : Port) (s : State) : Res State :=
  s.onAck h p .dpStatus .dpStatus fun v s =>
    let s := match v.body with | .vdo w => s.onVdm p fun m => { m with hpd := w.getLsbD 7 } | _ => s
    s.vdmSend p .dpConfig (s.entryCmd p .dpConfigure (s.entryOfVdm p).objPos (.vdo dpConfigVdo))

/-- DP_CONFIGURE_ACK: the mode bits are set on the mux chain (R186). -/
def execDpConfigureAck (h : Hand) (p : Port) (s : State) : Res State :=
  s.onAck h p .dpConfig .dpConfig fun _ s => s.modeReached p

/-! ## Failures (R178) -/

/-- A NAK or BUSY on SOP, of an accepted version, belongs to the pending command (R175). DESIGN CHOICE (assumption 41): one of another version is
ignored, and the response timer runs on; R175 does not say what becomes of it. -/
def VdmP.heeds (m : VdmP) (v : Vdm) : Bool :=
  m.out.isSome && !m.intr && !m.waiting && m.answers v && verOk v.ver

/-- VDM_NAK (R178). -/
def execVdmNak (h : Hand) (p : Port) (s : State) : Res State :=
  s.onMsg h p .vdmNak fun m s => match m.msg with
    | .vdm v => if (s.port p).vdm.heeds v && !(s.port p).prot.unsent .vdm then ((s.verSeen p v).vdmCnt p 1).vdmStepFails p else s
    | _ => s

/-- VDM_BUSY: sent again after tVDMBusy, at most three times; the fourth fails the step (R178). -/
def execVdmBusy (h : Hand) (p : Port) (s : State) : Res State :=
  s.onMsg h p .vdmBusy fun m s => match m.msg with
    | .vdm v =>
      if (s.port p).vdm.heeds v && !(s.port p).prot.unsent .vdm then
        let s := (((s.verSeen p v).vdmCnt p 2).vdmTimersOff p).onVdm p fun m => { m with busies := m.busies + 1 }
        if 4 ≤ (s.port p).vdm.busies then s.vdmStepFails p
        else (s.onVdm p fun m => { m with waiting := true }).arm p .vdmBusy
      else s
    | _ => s

/-- TVDMBUSY_EXPIRY: the command goes again (R178). -/
def execTvdmbusyExpiry (h : Hand) (p : Port) (s : State) : Res State :=
  s.timerStep h p .vdmBusy fun s => if s.bmcRuns p && (s.port p).vdm.waiting then s.vdmAgain p else s

/-- TVDMSENDERRESPONSE_EXPIRY, of the partner's command or of the cable's: counted, and the step fails (R178, R180). -/
def execTvdmsenderresponseExpiry (h : Hand) (p : Port) (s : State) : Res State :=
  s.timersStep h p (fun t => decide (t = .vdmSenderResponse) || decide (t = .cableResponse)) fun t s =>
    let m := (s.port p).vdm
    if !s.bmcRuns p then s
    else if t = .cableResponse then
      if m.cabOut.isSome && !m.cabIntr then (s.vdmCnt p 3).cabStepFails p else s
    else if m.out.isSome && !m.intr then (s.vdmCnt p 3).vdmStepFails p
    else s

/-- TVDMWAITMODEENTRY_EXPIRY: counted, and the next entry is tried (R178, R183). -/
def execTvdmwaitmodeentryExpiry (h : Hand) (p : Port) (s : State) : Res State :=
  s.timerStep h p .vdmWaitModeEntry fun s =>
    if s.bmcRuns p && (s.port p).vdm.awaits .enter then (s.vdmCnt p 3).vdmStepFails p else s

/-! ## Attention (R185, R187) -/

/-- The HPD bit set, with its nibble (R185). -/
def State.setHpd (s : State) (p : Port) (b : Bool) : State :=
  if (s.port p).vdm.hpd = b then s else (s.onVdm p fun m => { m with hpd := b }).muxUpdate p

/-- HPD State and IRQ_HPD of an Attention or of a deferred one take effect (R185, R187). -/
def State.hpdEffect (s : State) (p : Port) (was hpd irq : Bool) : State :=
  let s := s.setHpd p hpd
  if was && hpd && irq then
    let s := (s.setHpd p false).onVdm p fun m => { m with lowTime := true, lowHpd := true, lowIrq := false }
    (s.vdmEvt p 4).arm p .irqHpdLow
  else s

/-- A DisplayPort Status VDO of an Attention. During the low time it waits for its end. -/
def State.dpAttention (s : State) (p : Port) (w : Word) : State :=
  let m := (s.port p).vdm
  let s := if w.getLsbD 8 then s.vdmCnt p 6 else s
  if m.lowTime then s.onVdm p fun m => { m with lowHpd := w.getLsbD 7, lowIrq := m.lowIrq || w.getLsbD 8 }
  else s.hpdEffect p m.hpd (w.getLsbD 7) (w.getLsbD 8)

/-- ATTENTION: acted on when SVID and position match the entered mode, else discarded and counted (R176, R185). DESIGN CHOICE (assumption
102): so is one of an SVDM version other than 2.0 and 2.1, for which R175 gives no treatment. -/
def execAttention (h : Hand) (p : Port) (s : State) : Res State :=
  s.onMsg h p .attention fun r s => match r.msg with
    | .vdm v =>
      let e := s.entryOfVdm p
      if (s.port p).vdm.entered && decide (v.svid = e.svid) && decide (v.objPos = e.objPos) && verOk v.ver then
        let s := ((s.verSeen p v).vdmCnt p 0).vdmEvt p 3
        match v.body with
        | .vdo w =>
          let s := s.onVdm p fun m => { m with attn := w }
          if e.kind = 1 then s.dpAttention p w else if e.kind = 2 then s.setHpd p (w.getLsbD 0) else s
        | _ => s
      else s.vdmCnt p 5
    | _ => s

/-- IRQ_HPD_LOW_TIME_END: the bit returns to 1, or to what a deferred Attention says (R187). -/
def execIrqHpdLowTimeEnd (h : Hand) (p : Port) (s : State) : Res State :=
  s.timerStep h p .irqHpdLow fun s =>
    let m := (s.port p).vdm
    if s.bmcRuns p && m.lowTime then
      (s.onVdm p fun m => { m with lowTime := false, lowIrq := false }).hpdEffect p true m.lowHpd m.lowIrq
    else s

/-! ## Received commands (R175, R176) -/

/-- STRUCTURED_VDM_COMMAND: answered NAK at the lower version, and counted; of the responses that have no row of their own, the ACK of the
port's Exit Mode ends that exchange (R178, R184), and one that no command of the port awaits is discarded. -/
def execStructuredVdmCommand (h : Hand) (p : Port) (s : State) : Res State :=
  s.onMsg h p .vdmCommand fun r s => match r.msg with
    | .vdm v =>
      if v.typ ≠ .req then (if (s.port p).vdm.heeds v && !(s.port p).prot.unsent .vdm then s.vdmAnswered p v else s) else
      let s := (s.vdmCnt p 5).verSeen p v
      s.say p (.vdm ⟨v.svid, (s.port p).vdm.ver, v.cmd, .nak, v.objPos, .none⟩)
    | _ => s

/-- UNSTRUCTURED_VDM: Not_Supported (R175). -/
def execUnstructuredVdm (h : Hand) (p : Port) (s : State) : Res State := s.onMsg h p .unstructured fun _ s => s.notSupported p

/-! ## The mux chain (R188 to R193) -/

/-- MUX_FRAME_START: a pending update, or an all-zero frame that is due (R192), starts a frame; its update window of 16 cycles grants what
waits, and stays open for what comes (R190). The zero frame of a stop phase waits for every sluice. DESIGN CHOICE (assumption 89): nibble
updates that wait when a zero frame starts are discarded; R192 does not say what becomes of them. -/
def execMuxFrameStart (s : State) : Res State :=
  let m := s.mux
  if (decide (s.dev.phase ≠ .run) && s.dev.stop.isNone) || m.busy then .next s
  else if m.zero && !(s.dev.stop.isSome && s.ports.toList.any fun x => x.slc.open') then
    .next { s with mux := { m with busy := true, zero := false, next := Vector.replicate 48 0#4, reqs := [], left := 0 } }
  else if m.reqs.isEmpty then .next s
  else .next { s with mux := Mux.window 16 { m with busy := true, left := 16, used := 0 } }

/-- MUX_FRAME_END: the image is latched (R190). -/
def execMuxFrameEnd (s : State) : Res State :=
  if s.mux.busy then
    .next { s with mux := { s.mux with busy := false, shown := true, latched := s.mux.next, frames := satInc s.mux.frames, left := 0 } }
  else .next s

end Sys2Proof.Machine
end

