-- ==== Sys2Proof/Machine/Regs.lean ====
section
/-! DEFINITION. The register map: what each word index reads (R6, R382), the interrupt pins and the live views of what is pending
(R397), and the words that latch a copy (R329). A reserved index reads 0. -/

namespace Sys2Proof.Machine

def w32 (n : Nat) : Word := BitVec.ofNat 32 n

/-- Entry k of a list of words; reserved offsets read 0. -/
def wordAt (l : List Word) (k : Nat) : Word := l.getD k 0#32

/-- Counter k of a block. -/
def cntAt {n : Nat} (v : Vector Word n) (k : Nat) : Word := wordAt v.toList k

/-! ## Codes that only registers show -/

def SrcState.code : SrcState → Nat
  | .idle => 0 | .startup => 1 | .sendCaps => 2 | .negotiate => 3 | .admission => 4 | .transition => 5 | .ready => 6
  | .waitReq => 7 | .softReset => 8 | .hardReset => 9 | .typecOnly => 10

def SnkState.code : SnkState → Nat
  | .idle => 0 | .startup => 1 | .evaluate => 2 | .select => 3 | .transition => 4 | .ready => 5 | .waited => 6
  | .softReset => 8 | .hardReset => 9

def EprState.code : EprState → Nat
  | .spr => 0 | .entry => 1 | .epr => 2 | .exit => 3

def VdmState.code : VdmState → Nat
  | .idle => 0 | .cableSop1 => 1 | .cableSop2 => 2 | .discId => 3 | .discSvid => 4 | .discModes => 5 | .enter => 6
  | .dpStatus => 7 | .dpConfig => 8 | .mode => 9 | .noMode => 10

def Kind.code : Kind → Nat
  | .dflt => 0 | .fixed => 1 | .pps => 2 | .eprFixed => 3 | .avs => 4

def RampPhase.code : RampPhase → Nat
  | .none => 0 | .precharge => 1 | .slope => 2 | .enhance => 3

def SyncState.code : SyncState → Nat
  | .internal => 0 | .acquire => 1 | .track => 2 | .freerun => 3

def LinkState.code : LinkState → Nat
  | .isolated => 0 | .seek => 1 | .up => 2 | .relay => 3 | .asleep => 4 | .miswire => 5 | .closing => 6

/-- START_STAT.PHASE; a device in rest has finished its start-up. -/
def Phase.code : Phase → Nat
  | .reset => 0 | .clock => 1 | .pll => 2 | .links => 3 | .read => 4 | .apply => 5 | .restore => 6 | .cal => 7
  | .run => 8 | .rest => 8 | .wakePll => 8 | .wakeLinks => 8 | .wakeCal => 8

/-! ## Interrupts (R397) -/

/-- The status bits that CLK_IE names, in its positions. -/
def Clk.irqBits (c : Clk) : Word :=
  w32 (bitAt 5 c.x32fail + bitAt 4 c.xfail + bitAt 3 c.d1.ucode + bitAt 2 c.d0.ucode + bitAt 1 c.d1.d2df + bitAt 0 c.d0.d2df)

/-- ALM_STAT. -/
def Alm.stat (a : Alm) : Word :=
  w32 (field 28 4 a.rejB + field 24 4 a.rejA + field 20 4 a.fmtMajor + field 16 4 a.fmtMinor + bitAt 8 a.slow + bitAt 7 a.talOff +
    bitAt 6 (a.featIgn ≠ 0) + bitAt 5 a.loopRom + bitAt 4 a.skip + bitAt 3 a.defaults + field 0 2 a.src)

/-- An enabled event bit is set. -/
def asserts (evt ie : Word) : Bool := decide (evt &&& ie ≠ 0#32)

/-- The interrupts of the global blocks, entries 0 to 12 of IRQ_ROUTE. -/
def State.blockIrqs (s : State) : List Bool :=
  [asserts s.dev.evt s.dev.ie, asserts s.clk.irqBits s.clk.ie, asserts s.alm.stat s.alm.ie, asserts s.sup.evt s.sup.ie,
   asserts s.cis.evt s.cis.ie, asserts s.lnk.evt s.lnk.ie, asserts s.twi.evt s.twi.ie, asserts s.mtr.evt s.mtr.ie,
   asserts s.pmp.evt s.pmp.ie, asserts s.hnd.evt s.hnd.ie, asserts s.grd.evt s.grd.ie, asserts s.pwm.evt s.pwm.ie, false]

/-- The interrupts of a port's sub-blocks, entries 16 to 23. -/
def PortState.irqs (x : PortState) : List Bool :=
  [asserts x.tc.evt x.tc.ie, asserts x.pd.evt x.pd.ie, asserts x.vdm.evt x.vdm.ie, asserts x.slc.evt x.slc.ie,
   asserts x.loop.evt x.loop.ie, asserts x.met.evt x.met.ie, asserts x.grd.evt x.grd.ie, asserts x.cnt.evt x.cnt.ie]

/-- Some sub-block of the port asserts. -/
def PortState.irq (x : PortState) : Bool := x.irqs.any id

/-- INTn_N is driven low: a block whose IRQ_ROUTE entry is n asserts. -/
def State.intLow (s : State) (n : Nat) : Bool :=
  let dest (k : Nat) : Bool := decide (tab s.alm.cfg.route k 0 = n)
  (s.blockIrqs.zipIdx.any fun b => b.1 && dest b.2) ||
  s.ports.toList.any fun x => x.irqs.zipIdx.any fun b => b.1 && dest (16 + b.2)

/-- Bits from a list of Bools, the first at bit 0. -/
def bitsOf (l : List Bool) : Nat := l.foldr (fun b a => (if b then 1 else 0) + 2 * a) 0

/-- PEND_SYS. -/
def State.pendSys (s : State) : Word :=
  w32 (field 24 4 (bitsOf ((List.range 4).map s.intLow)) + bitAt 16 (s.ports.toList.any PortState.irq) + bitsOf s.blockIrqs)

/-- PEND_PORT0 and PEND_PORT1. -/
def State.pendPort (s : State) (k : Nat) : Word := w32 (bitsOf (((s.ports.toList.map PortState.irq).drop (32 * k)).take 32))

/-! ## Global blocks -/

def State.devReg (s : State) (i : Nat) : Word :=
  match i with
  | 0x00 => match s.dev.code with | .e => 0x0D48B00E#32 | .c => 0x0D48B00C#32
  | 0x04 => w32 (bitAt 16 s.dev.unlock)
  | 0x09 => s.dev.rstCause
  | 0x0A => w32 (field 16 16 s.dev.startMs + bitAt 4 s.dev.second + s.dev.phase.code)
  | 0x10 => s.pendSys
  | 0x11 => s.pendPort 0
  | 0x12 => s.pendPort 1
  | 0x13 => s.dev.evt
  | 0x14 => s.dev.ie
  | _ => 0#32

def D2d.stat (l : D2d) : Word := w32 (field 4 8 l.ucrev.toNat + field 2 2 l.tries + bitAt 1 l.ucode + bitAt 0 l.d2df)

def State.clkReg (s : State) (i : Nat) : Word :=
  match i with
  | 0x100 => w32 (bitAt 5 s.clk.x32fail + bitAt 4 s.clk.xfail + bitAt 3 s.clk.suo + bitAt 2 s.clk.pllS + bitAt 1 s.clk.pllH +
      bitAt 0 s.clk.xrefOk)
  | 0x101 => s.clk.xfailCnt
  | 0x102 => w32 (field 2 6 s.alm.cfg.restIdle + bitAt 0 s.alm.cfg.restEn)
  | 0x103 => s.clk.wake
  | 0x104 => s.clk.d0.stat
  | 0x105 => s.clk.d1.stat
  | 0x106 => s.clk.d0.crcCnt
  | 0x107 => s.clk.d1.crcCnt
  | 0x108 => s.clk.ie
  | _ => 0#32

/-- Words 0x0200 to 0x0207. ALM_TAL_PTR counts slots of 2 KiB from flash offset 0x200000, and reads 0 while tallies are disabled. DESIGN CHOICE
(assumption 105): with tallies enabled it reads the start of the region between the apply step and the counter-restore step, which sets
it; R85 says nothing of that time. -/
def State.almReg (s : State) (i : Nat) : Word :=
  match i with
  | 0x200 => s.alm.stat
  | 0x201 => w32 s.alm.seq
  | 0x202 => w32 s.alm.build
  | 0x203 => s.alm.ie
  | 0x205 => s.alm.rejCnt
  | 0x206 => w32 s.alm.featIgn
  | 0x207 => if s.alm.cfg.tallyEn then w32 (0x200000 + 2048 * s.alm.talPtr) else 0#32
  | _ => 0#32

/-- SUP_STAT, SUP_VIN and SUP_HOTIME: live while W0 is heard, else as last received (R375). -/
def State.supWords (s : State) : List Word := s.sup.held.getD (s.sup.words s.sup.now)

def State.supReg (s : State) (i : Nat) : Word :=
  let c := s.sup.cfg
  match i with
  | 0x300 => wordAt s.supWords 0 ||| w32 (bitAt 8 c.fitted)
  | 0x301 => s.sup.evt
  | 0x302 => s.sup.ie
  | 0x304 => wordAt s.supWords 1
  | 0x305 => wordAt s.supWords 2
  | 0x306 => w32 (field 16 16 c.vHo + field 0 16 c.vWrn)
  | 0x307 => w32 (field 16 16 c.vbMin + field 0 16 c.vRtn)
  | 0x308 => w32 (field 16 16 c.vWrnHys + field 0 16 c.tHo)
  | 0x309 => w32 (field 16 16 c.tClr + field 8 8 c.tQual + field 0 8 c.tAlert)
  | n => if 0x30A ≤ n ∧ n ≤ 0x311 then cntAt s.sup.cnt (n - 0x30A) else 0#32

/-- The copy that TWM's read of CIS_STAT latched serves its later reads of the ledger words (R329). -/
def State.cisReg (s : State) (i : Nat) : Word :=
  match i with
  | 0x400 => w32 (bitAt 7 s.cis.reqE.isSome + bitAt 6 s.cis.reqW.isSome + bitAt 1 (s.free < 0) + bitAt 0 s.cis.reserve)
  | 0x401 => s.cis.evt
  | 0x402 => s.cis.ie
  | 0x40E => w32 s.alm.cfg.home
  | 0x40F => w32 s.alm.cfg.guard
  | 0x410 => w32 s.alm.cfg.resHome
  | 0x411 => w32 s.alm.cfg.resGuard
  | 0x412 => w32 s.alm.cfg.sysTotal
  | 0x413 => w32 (field 0 16 s.alm.cfg.tShed)
  | n =>
    if 0x404 ≤ n ∧ n ≤ 0x40D then wordAt (s.twi.cisCopy.getD s.ledgerWords) (n - 0x404)
    else if 0x414 ≤ n ∧ n ≤ 0x419 then cntAt s.cis.cnt (n - 0x414)
    else 0#32

/-- The two words of a loan record. -/
def Loan.word (l : Loan) (us : Nat) (hi : Bool) : Word :=
  if !l.valid then 0#32
  else if hi then w32 (field 16 16 l.id.toNat + satN 16 ((l.ends - us) / 10000))
  else w32 (bitAt 31 true + bitAt 30 l.lent + bitAt 29 l.east + bitAt 28 l.relay + field 23 5 (if l.relay then l.linked else 0) +
    field 0 17 l.amount)

def State.lnkReg (s : State) (i : Nat) : Word :=
  let l := s.lnk
  let c := s.alm.cfg
  match i with
  | 0x480 => w32 (field 16 14 (l.node.getD 0x3FFF) + bitAt 15 l.node.isSome + bitAt 14 l.west + bitAt 13 l.ring + bitAt 12 l.overId +
      field 4 4 l.e.st.code + field 0 4 l.w.st.code)
  | 0x481 => l.evt
  | 0x482 => l.ie
  | 0x484 => w32 (field 20 12 c.audit + field 14 6 c.lease + field 10 4 c.hops + bitAt 3 c.xformer + bitAt 2 c.sleepOk +
      bitAt 1 c.linkE + bitAt 0 c.linkW)
  | 0x485 => w32 (field 16 16 c.lendKeep + field 8 8 l.e.ver + field 0 8 l.w.ver)
  | 0x486 => (Config.uid.extractLsb' 32 16).setWidth 32
  | 0x487 => Config.uid.extractLsb' 0 32
  | 0x488 => l.tag
  | 0x489 => l.aud
  | 0x48A => l.nodes.setWidth 32
  | 0x4A0 => l.audErr
  | 0x4A1 => l.audLost
  | 0x4A2 => l.enumCnt
  | n =>
    if 0x490 ≤ n ∧ n ≤ 0x495 then cntAt l.w.cnt (n - 0x490)
    else if 0x498 ≤ n ∧ n ≤ 0x49D then cntAt l.e.cnt (n - 0x498)
    else if 0x4C0 ≤ n ∧ n ≤ 0x4FF then (s.cis.loans.toList.getD ((n - 0x4C0) / 2) Loan.none).word s.dev.aon (n % 2 = 1)
    else 0#32

/-- TWI counters of target t at 0x510 + 8·t. -/
def State.twiReg (s : State) (i : Nat) : Word :=
  let c := s.alm.cfg
  match i with
  | 0x500 => w32 (field 16 7 (0x40 + s.twi.straps.toNat) + field 0 3 c.auxEn)
  | 0x501 => s.twi.evt
  | 0x502 => s.twi.ie
  | 0x504 => w32 (field 16 7 c.baseC + field 8 7 c.baseB + field 0 7 c.baseA)
  | n =>
    if 0x508 ≤ n ∧ n ≤ 0x50B then
      match c.timing[n - 0x508]? with
      | some t => w32 (bitAt 10 t.pec + field 8 2 t.filt + field 0 6 t.hold)
      | none => 0#32
    else if 0x510 ≤ n ∧ n ≤ 0x52C ∧ n % 8 < 5 then cntAt s.twi.cnt (5 * ((n - 0x510) / 8) + n % 8)
    else 0#32

def State.mtrReg (s : State) (i : Nat) : Word :=
  let m := s.mtr
  let c := s.alm.cfg
  match i with
  | 0x600 => w32 (bitAt 9 m.pref1.bad + bitAt 8 m.pref0.bad + 4 * bitsOf (m.grp.toList.map (·.relf)) + bitAt 1 m.erase.isSome +
      bitAt 0 m.job.isSome)
  | 0x601 => m.evt
  | 0x602 => m.ie
  | 0x604 => w32 (field 16 16 c.size + field 8 8 c.interval + bitAt 0 c.tallyEn)
  | 0x605 => w32 (field 16 16 c.holdC + field 0 16 c.holdVmin)
  | 0x606 => w32 (65536 * satN 16 s.eAvl + satN 16 (m.holdUv / 10000))
  | 0x607 => w32 m.tseq
  | 0x609 => w32 (65536 * twos 16 m.pref1.ppm + twos 16 m.pref0.ppm)
  | n => if 0x60A ≤ n ∧ n ≤ 0x610 then cntAt m.cnt (n - 0x60A) else 0#32

def State.pmpReg (s : State) (i : Nat) : Word :=
  let m := s.pmp
  match i with
  | 0x700 => w32 (field 24 8 m.load + field 0 5 (m.pumps.toList.countP (·.isSome)))
  | 0x701 => m.evt
  | 0x702 => m.ie
  | 0x704 => w32 (field 24 8 64 + field 16 8 200 + field 8 8 130 + 3)
  | 0x705 => w32 (satN 16 m.waitMax)
  | 0x706 => m.stealCnt
  | 0x707 => m.ovrCnt
  | _ => 0#32

def State.hndReg (s : State) (i : Nat) : Word :=
  let m := s.hnd
  match i with
  | 0x800 => w32 (65536 * satN 16 m.sharedHwm + field 0 14 m.inUse)
  | 0x801 => m.evt
  | 0x802 => m.ie
  | 0x804 => w32 (field 16 16 0x003F + 0x0102)
  | 0x805 => m.stealCnt
  | 0x806 => m.fullCnt
  | 0x807 => w32 (satN 16 m.stepMax)
  | _ => 0#32

def DieTemp.word (d : DieTemp) : Word := w32 (bitAt 25 d.cut + bitAt 24 d.derate + field 16 3 d.hottest + twos 16 d.temp)

def State.ggrdReg (s : State) (i : Nat) : Word :=
  let c := s.alm.cfg
  match i with
  | 0x900 => s.grd.dies[0].word
  | 0x901 => s.grd.dies[1].word
  | 0x902 => s.grd.dies[2].word
  | 0x903 => s.grd.evt
  | 0x904 => s.grd.ie
  | 0x905 => w32 (field 8 8 c.dieCut + field 0 8 c.dieDerate)
  | 0x906 => w32 (field 16 16 c.zDry + field 0 16 c.zWet)
  | 0x907 => w32 (field 16 16 c.tWet + field 0 16 c.vCorr)
  | 0x908 => w32 (field 0 16 c.tDry)
  | 0x909 => s.grd.cutCnt
  | _ => 0#32

/-- PWM_REF, with the trim (R236), PWM_DUTY and PWM_CFG of a port. -/
def PortState.pwmRef (x : PortState) : Word := w32 (field 16 16 x.stg.target + field 0 16 ((x.stg.ref + x.stg.trim) / 1000).toNat)
def PortState.pwmDuty (x : PortState) : Word := w32 (field 16 16 x.stg.da + field 0 16 x.stg.db)
def PortState.pwmCfg (x : PortState) : Word :=
  w32 (field 16 16 x.cfg.phase + field 14 2 x.stg.band + bitAt 13 x.stg.limpPi + bitAt 12 x.stg.den + bitAt 11 x.stg.rev +
    bitAt 10 x.cfg.twin + field 0 10 x.cfg.fsw)

/-- T̂ in ns: 76.8 fine steps a nanosecond; the error in 10 ns units, toward 0. -/
def State.pwmReg (s : State) (i : Nat) : Word :=
  let m := s.pwm
  match i with
  | 0xA00 => w32 (field 4 4 m.misses + m.sync.code)
  | 0xA01 => m.evt
  | 0xA02 => m.ie
  | 0xA04 => w32 (field 0 21 (m.est * 10 / 768))
  | 0xA05 => w32 (twos 16 (m.err.tdiv 768))
  | 0xA06 => w32 (field 0 16 m.tap)
  | n =>
    if 0xA08 ≤ n ∧ n ≤ 0xA0C then cntAt m.cnt (n - 0xA08)
    else if h : 0xA40 ≤ n ∧ n < 0xA70 then (s.port ⟨n - 0xA40, by omega⟩).pwmRef
    else if h : 0xA80 ≤ n ∧ n < 0xAB0 then (s.port ⟨n - 0xA80, by omega⟩).pwmDuty
    else if h : 0xAC0 ≤ n ∧ n < 0xAF0 then (s.port ⟨n - 0xAC0, by omega⟩).pwmCfg
    else 0#32

/-- The nibble last latched for a port since the reset (MUX_IMAGE, VDM_STAT). -/
def State.nibbleSeen (s : State) (p : Port) : BitVec 4 := if s.mux.shown then s.mux.latched[p] else 0#4

/-- MUX_IMAGEn: the nibble of port 8n + q at bits [4q+3:4q]. -/
def State.muxImage (s : State) (n : Nat) : Word :=
  w32 ((List.range 8).foldl (fun a q => if h : 8 * n + q < 48 then a + (s.nibbleSeen ⟨8 * n + q, h⟩).toNat * 16 ^ q else a) 0)

def State.muxReg (s : State) (i : Nat) : Word :=
  match i with
  | 0xB00 => w32 (bitAt 1 s.alm.cfg.altmode + bitAt 0 s.mux.busy)
  | 0xB01 => s.mux.frames
  | n => if 0xB04 ≤ n ∧ n ≤ 0xB09 then s.muxImage (n - 0xB04) else 0#32

/-! ## The sub-blocks of a port -/

def PortState.tcReg (x : PortState) (o : Nat) : Word :=
  let t := x.tc
  match o with
  | 0x00 => w32 (bitAt 15 x.cnt.any + bitAt 14 x.cnt.phyx + bitAt 13 t.vconn + bitAt 12 t.vcoc + field 10 2 t.prp + bitAt 9 t.ra +
      bitAt 8 t.orient + t.st.code)
  | 0x01 => t.evt
  | 0x02 => t.ie
  | 0x03 => w32 (bitAt 0 t.admEn)
  | 0x04 => w32 (bitAt 9 x.cfg.eprOk + bitAt 8 x.cfg.ntc + bitAt 7 x.cfg.dowser + bitAt 6 x.cfg.drp + bitAt 5 x.cfg.vconnSrc +
      field 2 2 x.cfg.rp + field 0 2 x.cfg.role)
  | 0x05 => w32 (65536 * satN 16 t.cc2 + satN 16 t.cc1)
  | 0x06 => w32 (65536 * satN 16 t.ampCapt + satN 16 t.ampLast)
  | n => if 0x08 ≤ n ∧ n ≤ 0x13 then cntAt t.cnt (n - 0x08) else 0#32

/-- The explicit contract in force, none on a port without one. -/
def PortState.pdReg (x : PortState) (o : Nat) : Word :=
  let d := x.pd
  let has (f : Kind → Bool) : Bool := match d.contract with | some c => f c.kind | none => false
  match o with
  | 0x20 => w32 (field 28 4 d.src.code + field 24 4 d.snk.code + field 20 4 d.epr.code + field 16 4 d.vcs + bitAt 12 d.holdTwin +
      bitAt 11 d.holdCred + bitAt 10 d.shed + bitAt 9 (d.offer.bound.getLsbD 0) + field 6 2 d.hrc + bitAt 4 (has (· = .pps)) +
      bitAt 3 (has (· = .avs)) + bitAt 2 (d.epr = .epr ∨ d.epr = .exit) + bitAt 1 x.tc.isSnk + bitAt 0 d.contract.isSome)
  | 0x21 => d.evt
  | 0x22 => d.ie
  | 0x24 => match d.contract with
    | some c => w32 (field 28 4 c.pos + field 25 3 c.kind.code + field 12 12 (c.mv / 20) + field 0 12 (c.ma / 10))
    | none => 0#32
  | 0x25 => w32 (field 16 16 d.pledge + satN 16 (if x.tc.isSnk then d.inflow else d.charge))
  | 0x26 => w32 (65536 * satN 16 d.offer.budget) ||| (d.offer.bound &&& 0x7F#32)
  | 0x27 => w32 (bitAt 5 d.cable.epr + field 3 2 d.cable.imax + field 1 2 d.cable.vmax + bitAt 0 d.cable.disc)
  | n => if 0x28 ≤ n ∧ n ≤ 0x34 then cntAt d.cnt (n - 0x28) else 0#32

/-- VDM_STAT.STATE shows cable discovery while it runs beside the partner's machine, and INTR a step of either that waits to be sent again
(R179, R180, R183). -/
def State.vdmReg (s : State) (p : Port) (o : Nat) : Word :=
  let x := s.port p
  let v := x.vdm
  let nib := s.nibbleSeen p
  match o with
  | 0x40 => w32 (field 16 16 (if v.entered then (match s.alm.cfg.svids[v.entry]? with | some e => e.svid.toNat | none => 0) else 0) +
      bitAt 12 (v.intr || v.cabIntr) + bitAt 11 (nib.getLsbD 3) + field 9 2 (nib.toNat / 2) + bitAt 8 v.entered +
      field 4 4 (if v.entered then v.entry else 0) + (if v.cab = .idle then v.st else v.cab).code)
  | 0x41 => v.evt
  | 0x42 => v.ie
  | 0x44 => v.id
  | 0x45 => v.cable
  | 0x46 => v.attn
  | 0x47 => w32 (field 24 8 (tab x.cfg.list 0 255) + field 16 8 (tab x.cfg.list 1 255) + field 8 8 (tab x.cfg.list 2 255) +
      field 0 8 (tab x.cfg.list 3 255))
  | n => if 0x48 ≤ n ∧ n ≤ 0x4E then cntAt v.cnt (n - 0x48) else 0#32

/-- CNT_FLT.FIRST of a port: D2DF shows as 6 when no port fault state came before it (R393). -/
def State.firstCode (s : State) (p : Port) : Nat :=
  if (s.port p).cnt.first = 0 ∧ s.lost p then 6 else (s.port p).cnt.first

/-- The gate is held at SRC (R195). -/
def SlcState.atSrc (st : SlcState) : Bool := st = .off || st = .retryWait || st = .fault

/-- The bounds of V_GS in mV as SLC_GATE shows it, with the measurement error of 100 mV on either side: at most the clamp, and once two
refreshes of 1 ms have seen the state what the pump holds in ON, or 0 V where the gate is held at SRC (R195, R198). -/
def Slc.gateBounds (c : Slc) (aon : Nat) : Nat × Nat :=
  if aon < c.gateAt + 2000 then (0, 15100)
  else if c.st = .on then (9900, 12600)
  else if c.st.atSrc then (0, 100)
  else (0, 15100)

/-- SLC_GATE (R198). -/
def State.gateSeen (s : State) (p : Port) : Nat :=
  let b := (s.port p).slc.gateBounds s.dev.aon
  if (s.port p).live then b.1 + Config.gateMv p.val (s.dev.us / 1000) % (b.2 - b.1 + 1) else 0

/-- SLC_STAT.FCAUSE: a lost die shows at each of its ports (R219, R393). DESIGN CHOICE (assumption 109): where several faults hold it shows the
first, as CNT_FLT.FIRST does; R219 says only that it shows which fault holds. -/
def State.faultCause (s : State) (p : Port) : Nat := if s.lost p then 6 else (s.port p).cnt.first

def State.slcReg (s : State) (p : Port) (o : Nat) : Word :=
  let x := s.port p
  let c := x.slc
  match o with
  | 0x60 => w32 (field 24 8 c.retries + field 20 4 (s.faultCause p) + field 16 4 c.tcause + bitAt 9 (!s.dev.vauxOk) + bitAt 8 c.dsc +
      field 4 2 c.phase.code + c.st.code)
  | 0x61 => c.evt
  | 0x62 => c.ie
  | 0x64 => w32 (field 28 3 x.cfg.retry + field 24 3 x.cfg.tripK + field 20 3 x.cfg.faultT + field 16 3 x.cfg.ramp +
      field 0 10 x.cfg.ilim)
  | 0x65 => w32 (field 16 2 x.cfg.tGck + field 0 16 x.cfg.shunt)
  | 0x66 => w32 (field 16 12 (x.cfg.tripK * c.ilim) + field 0 10 c.ilim)
  | 0x67 => w32 (s.gateSeen p)
  | 0x68 => w32 (65536 * satN 16 c.tRamp + satN 16 c.tDisch)
  | 0x69 => w32 (satN 16 c.offt)
  | n => if 0x6A ≤ n ∧ n ≤ 0x71 then cntAt c.cnt (n - 0x6A) else 0#32

/-- LOOP_CFG.PROG reads 0xFF while the ROM programs run. -/
def State.loopReg (s : State) (p : Port) (o : Nat) : Word :=
  let x := s.port p
  let l := x.loop
  match o with
  | 0x80 => w32 (field 8 4 l.orun + field 6 2 l.lcause + bitAt 5 l.limp + bitAt 4 l.preset + bitAt 3 l.held + bitAt 2 l.cc +
      bitAt 1 l.host + bitAt 0 l.auto)
  | 0x81 => l.evt
  | 0x82 => l.ie
  | 0x83 => w32 (bitAt 0 l.ctl)
  | 0x84 => l.mduty
  | 0x85 => w32 (field 21 11 x.cfg.stack + bitAt 16 x.cfg.form + field 8 8 x.cfg.coef +
      field 0 8 (if s.alm.loopRom && x.cfg.enabled then 0xFF else x.cfg.prog))
  | 0x86 => l.m
  | 0x87 => w32 (65536 * satN 16 l.cycMax + satN 16 l.cycLast)
  | 0x88 => w32 (satN 16 l.wait)
  | 0x89 => w32 (field 24 8 l.trapCode + field 0 17 l.trapAt)
  | 0x8A => l.user
  | n => if 0x8B ≤ n ∧ n ≤ 0x8E then cntAt l.cnt (n - 0x8B) else 0#32

/-- MET_STAT; NOACC is judged once registers are served. -/
def State.metStat (s : State) (p : Port) : Word :=
  let m := (s.port p).met
  w32 (field 16 16 m.epoch + bitAt 3 (s.served && s.noAcc p) + bitAt 2 m.range + bitAt 1 (m.mods.toList.any (·.aside)) +
    bitAt 0 (m.mods.toList.any (·.stale)))

/-- Words 0xA4 to 0xB3 as a target reads them: its copy of the port, if it has one, else live (R329). -/
def State.metCopied (s : State) (t : Target) (p : Port) : List Word :=
  match s.twi.metCopy[Target.idx t] with
  | some (q, l) => if q = p then l else (s.port p).metWords
  | none => (s.port p).metWords

def State.metReg (s : State) (t : Target) (p : Port) (o : Nat) : Word :=
  match o with
  | 0xA0 => s.metStat p
  | 0xA1 => (s.port p).met.evt
  | 0xA2 => (s.port p).met.ie
  | n => if 0xA4 ≤ n ∧ n ≤ 0xB3 then wordAt (s.metCopied t p) (n - 0xA4) else 0#32

/-- GRD_STAT, with DERATE while F is below 100. -/
def State.grdStat (s : State) (p : Port) : Word :=
  let g := (s.port p).grd
  w32 (field 8 8 (s.factor p) + bitAt 6 g.dieHot + bitAt 5 (s.factor p < 100) + bitAt 4 g.ntcf + bitAt 3 g.hot + bitAt 2 g.corr +
    bitAt 1 g.flood + bitAt 0 g.wet)

def State.grdReg (s : State) (p : Port) (o : Nat) : Word :=
  let x := s.port p
  let g := x.grd
  match o with
  | 0xC0 => s.grdStat p
  | 0xC1 => g.evt
  | 0xC2 => g.ie
  | 0xC4 => w32 (satN 16 g.z)
  | 0xC5 => w32 (65536 * satN 16 g.zcc2 + satN 16 g.zcc1)
  | 0xC6 => w32 (twos 16 g.vdc)
  | 0xC7 => w32 (65536 * satN 16 (if s.cisOn && x.cfg.enabled then s.pAllow p else 0) + twos 16 (if x.cfg.ntc then (g.temp + 50) / 100 else 0))
  | 0xCE => w32 (field 24 8 x.cfg.therm.pMin + field 16 8 x.cfg.therm.tCut + field 8 8 x.cfg.therm.tD2 + field 0 8 x.cfg.therm.tD1)
  | n => if 0xC8 ≤ n ∧ n ≤ 0xCC then cntAt g.cnt (n - 0xC8) else 0#32

def State.cntReg (s : State) (p : Port) (o : Nat) : Word :=
  let c := (s.port p).cnt
  match o with
  | 0xE0 => w32 (bitAt 1 c.busy)
  | 0xE1 => w32 (bitAt 13 (s.lost p) + bitAt 12 c.phyx + bitAt 11 c.limp + bitAt 10 c.dscf + bitAt 9 c.fets + bitAt 8 c.fetg +
      s.firstCode p)
  | 0xE2 => c.evt
  | 0xE3 => c.ie
  | 0xE5 => c.prstCnt
  | 0xE6 => c.faultCnt
  | _ => 0#32

/-- PORT[p], word offset o. -/
def State.portWord (s : State) (t : Target) (p : Port) (o : Nat) : Word :=
  match o / 32 with
  | 0 => (s.port p).tcReg o
  | 1 => (s.port p).pdReg o
  | 2 => s.vdmReg p o
  | 3 => s.slcReg p o
  | 4 => s.loopReg p o
  | 5 => s.metReg t p o
  | 6 => s.grdReg p o
  | _ => s.cntReg p o

/-! ## The map -/

/-- The global blocks, by the upper byte of the index. -/
def State.globalWord (s : State) (i : Nat) : Word :=
  match i / 256 with
  | 0 => s.devReg i
  | 1 => s.clkReg i
  | 2 => s.almReg i
  | 3 => s.supReg i
  | 4 => if i < 0x480 then s.cisReg i else s.lnkReg i
  | 5 => s.twiReg i
  | 6 => s.mtrReg i
  | 7 => s.pmpReg i
  | 8 => s.hndReg i
  | 9 => s.ggrdReg i
  | 10 => s.pwmReg i
  | 11 => s.muxReg i
  | _ => 0#32

/-- What target t reads at word index i, as it stands (R6, R382); 0x1000 on the ports, 0x4000 on the coefficient windows (R262), 0x7000
on tally staging (R325). -/
def State.regRead (s : State) (t : Target) (i : Nat) : Word :=
  if i < 0x1000 then s.globalWord i
  else if h : i < 0x4000 then s.portWord t ⟨(i - 0x1000) / 256, by omega⟩ (i % 256)
  else if i < 0x7000 then s.trough.word (4096 * ((i - 0x4000) / 256) + 4 * (i % 256))
  else if i < 0x8000 then w32 (beNat (memReads zeroByte s.mtr.staging (4 * (i - 0x7000)) 4))
  else 0#32

/-- What a read of a word leaves behind: MET_STAT and CIS_STAT latch the reader's copy (R329). -/
def State.afterRead (s : State) (t : Target) (i : Nat) : State :=
  if i = 0x400 then { s with twi := { s.twi with cisCopy := some s.ledgerWords } }
  else if h : 0x1000 ≤ i ∧ i < 0x4000 then
    if i % 256 = 0xA0 then s.latchMet t ⟨(i - 0x1000) / 256, by omega⟩ else s
  else s

end Sys2Proof.Machine
end

