-- ==== Sys2Proof/Machine/RegWrite.lean ====
section
/-! DEFINITION. Runtime writes (R387): W1C acknowledgement, interrupt enables, counter clears, the unlock (R386) and every control
field, applied field by field. A write to anything else is ignored (R7, R382). -/

namespace Sys2Proof.Machine

/-! ## Event acknowledgement (R396) -/

/-- W1C of a port's event registers, word offset o. -/
def PortState.ack (x : PortState) (o : Nat) (w : Word) : PortState :=
  match o with
  | 0x01 => { x with tc := { x.tc with evt := w1c x.tc.evt w } }
  | 0x21 => { x with pd := { x.pd with evt := w1c x.pd.evt w } }
  | 0x41 => { x with vdm := { x.vdm with evt := w1c x.vdm.evt w } }
  | 0x61 => { x with slc := { x.slc with evt := w1c x.slc.evt w } }
  | 0x81 => { x with loop := { x.loop with evt := w1c x.loop.evt w } }
  | 0xA1 => { x with met := { x.met with evt := w1c x.met.evt w } }
  | 0xC1 => { x with grd := { x.grd with evt := w1c x.grd.evt w } }
  | 0xE2 => { x with cnt := { x.cnt with evt := w1c x.cnt.evt w } }
  | _ => x

/-- W1C of the register at word index i. -/
def State.ack (s : State) (i : Nat) (w : Word) : State :=
  if h : 0x1000 ≤ i ∧ i < 0x4000 then s.onPort ⟨(i - 0x1000) / 256, by omega⟩ fun x => x.ack (i % 256) w
  else match i with
    | 0x009 => { s with dev := { s.dev with rstCause := w1c s.dev.rstCause w } }
    | 0x013 => { s with dev := { s.dev with evt := w1c s.dev.evt w } }
    | 0x103 => { s with clk := { s.clk with wake := w1c s.clk.wake w } }
    | 0x301 => { s with sup := { s.sup with evt := w1c s.sup.evt w } }
    | 0x401 => { s with cis := { s.cis with evt := w1c s.cis.evt w } }
    | 0x481 => { s with lnk := { s.lnk with evt := w1c s.lnk.evt w } }
    | 0x501 => { s with twi := { s.twi with evt := w1c s.twi.evt w } }
    | 0x601 => { s with mtr := { s.mtr with evt := w1c s.mtr.evt w } }
    | 0x701 => { s with pmp := { s.pmp with evt := w1c s.pmp.evt w } }
    | 0x801 => { s with hnd := { s.hnd with evt := w1c s.hnd.evt w } }
    | 0x903 => { s with grd := { s.grd with evt := w1c s.grd.evt w } }
    | 0xA01 => { s with pwm := { s.pwm with evt := w1c s.pwm.evt w } }
    | _ => s

/-! ## Interrupt enables -/

/-- A port's enable registers, word offset o; reserved bits stay 0. -/
def PortState.enables (x : PortState) (o : Nat) (w : Word) : PortState :=
  match o with
  | 0x02 => { x with tc := { x.tc with ie := rwMask 0x1FF#32 w } }
  | 0x22 => { x with pd := { x.pd with ie := rwMask 0xFFFF#32 w } }
  | 0x42 => { x with vdm := { x.vdm with ie := rwMask 0xFF#32 w } }
  | 0x62 => { x with slc := { x.slc with ie := rwMask 0x7FF#32 w } }
  | 0x82 => { x with loop := { x.loop with ie := rwMask 0x7F#32 w } }
  | 0xA2 => { x with met := { x.met with ie := rwMask 0x7#32 w } }
  | 0xC2 => { x with grd := { x.grd with ie := rwMask 0xFF#32 w } }
  | 0xE3 => { x with cnt := { x.cnt with ie := rwMask 0x3#32 w } }
  | _ => x

/-- The enable register at word index i. -/
def State.enables (s : State) (i : Nat) (w : Word) : State :=
  if h : 0x1000 ≤ i ∧ i < 0x4000 then s.onPort ⟨(i - 0x1000) / 256, by omega⟩ fun x => x.enables (i % 256) w
  else match i with
    | 0x014 => { s with dev := { s.dev with ie := rwMask 0x1#32 w } }
    | 0x108 => { s with clk := { s.clk with ie := rwMask 0x3F#32 w } }
    | 0x203 => { s with alm := { s.alm with ie := rwMask 0x1F8#32 w } }
    | 0x302 => { s with sup := { s.sup with ie := rwMask 0xFF#32 w } }
    | 0x402 => { s with cis := { s.cis with ie := rwMask 0x1F#32 w } }
    | 0x482 => { s with lnk := { s.lnk with ie := rwMask 0x7FF#32 w } }
    | 0x502 => { s with twi := { s.twi with ie := rwMask 0xF#32 w } }
    | 0x602 => { s with mtr := { s.mtr with ie := rwMask 0x3F#32 w } }
    | 0x702 => { s with pmp := { s.pmp with ie := rwMask 0x1#32 w } }
    | 0x802 => { s with hnd := { s.hnd with ie := rwMask 0x1#32 w } }
    | 0x904 => { s with grd := { s.grd with ie := rwMask 0x77#32 w } }
    | 0xA02 => { s with pwm := { s.pwm with ie := rwMask 0x7#32 w } }
    | _ => s

/-! ## Counter clears (R395, R396) -/

/-- Word index of the register that holds a block's CCLR bit. -/
def ClearBlock.index : ClearBlock → Nat
  | .clk => 0x102 | .d2d .w0 => 0x104 | .d2d .w1 => 0x105 | .alm => 0x204 | .sup => 0x303 | .cis => 0x403 | .lnk => 0x483
  | .twi => 0x503 | .mtr => 0x603 | .pmp => 0x703 | .hnd => 0x803 | .grd => 0x90A | .pwm => 0xA03 | .mux => 0xB02
  | .tc p => portReg p 0x03 | .pd p => portReg p 0x23 | .vdm p => portReg p 0x43 | .slc p => portReg p 0x63
  | .loop p => portReg p 0x83 | .met p => portReg p 0xA3 | .pgrd p => portReg p 0xC3 | .cnt p => portReg p 0xE4

/-- The word that writes a block's CCLR and leaves its other control fields as they stand (R387). -/
def State.cclrWord (s : State) (b : ClearBlock) : Word :=
  0x80000000#32 ||| (match b with
    | .tc p => BitVec.ofNat 32 (bitAt 0 (s.port p).tc.admEn)
    | .loop p => BitVec.ofNat 32 (bitAt 0 (s.port p).loop.ctl)
    | _ => 0#32)

/-- What a CCLR bit clears. -/
def State.clearCounts (s : State) (b : ClearBlock) : State :=
  match b with
  | .clk => { s with clk := { s.clk with xfailCnt := 0#32 } }
  | .d2d d => s.onD2 d fun l => { l with crcCnt := 0#32 }
  | .alm => { s with alm := { s.alm with rejCnt := 0#32 } }
  | .sup => { s with sup := { s.sup with cnt := Vector.replicate 8 0#32 } }
  | .cis => { s with cis := { s.cis with cnt := Vector.replicate 6 0#32 } }
  | .lnk => { s with lnk := { s.lnk with audErr := 0#32, audLost := 0#32, enumCnt := 0#32 } }
  | .twi => { s with twi := { s.twi with cnt := Vector.replicate 20 0#32 } }
  | .mtr => { s with mtr := { s.mtr with cnt := Vector.replicate 7 0#32 } }
  | .pmp => { s with pmp := { s.pmp with stealCnt := 0#32, ovrCnt := 0#32, waitMax := 0 } }
  | .hnd => { s with hnd := { s.hnd with stealCnt := 0#32, fullCnt := 0#32, stepMax := 0 } }
  | .grd => { s with grd := { s.grd with cutCnt := 0#32 } }
  | .pwm => { s with pwm := { s.pwm with cnt := Vector.replicate 5 0#32 } }
  | .mux => { s with mux := { s.mux with frames := 0#32 } }
  | .tc p => s.onPort p fun x => { x with tc := { x.tc with cnt := Vector.replicate 12 0#32 } }
  | .pd p => s.onPort p fun x => { x with pd := { x.pd with cnt := Vector.replicate 13 0#32 } }
  | .vdm p => s.onPort p fun x => { x with vdm := { x.vdm with cnt := Vector.replicate 7 0#32 } }
  | .slc p => s.onPort p fun x => { x with slc := { x.slc with cnt := Vector.replicate 8 0#32 } }
  | .loop p => s.onPort p fun x => { x with loop := { x.loop with cnt := Vector.replicate 4 0#32, cycMax := 0 } }
  | .met p => s.onPort p fun x => { x with met := { x.met with calCnt := 0#32, rejCnt := 0#32 } }
  | .pgrd p => s.onPort p fun x => { x with grd := { x.grd with cnt := Vector.replicate 5 0#32 } }
  | .cnt p => s.onPort p fun x => { x with cnt := { x.cnt with prstCnt := 0#32, faultCnt := 0#32 } }

/-- HND_CTL.HWMCLR: the mark falls to the shared records in use now (R395). -/
def State.hwmClear (s : State) : State := { s with hnd := { s.hnd with sharedHwm := s.hnd.sharedUsed } }

/-! ## The unlock (R386) -/

/-- A word written to DEV_UNLOCK. -/
def State.wrUnlock (s : State) (key : BitVec 16) : State :=
  if key = 0x00A5#16 then { s with dev := { s.dev with keyPend := true } }
  else if key = 0x005A#16 then
    if s.dev.keyPend then { s with dev := { s.dev with unlock := true, keyPend := false } } else s
  else { s with dev := { s.dev with unlock := false, keyPend := false } }

/-! ## Control fields -/

/-- A block cleared when CCLR is written 1. -/
def State.wrCclr (s : State) (b : ClearBlock) (w : Word) : State := if w.getLsbD 31 then s.clearCounts b else s

/-- The control fields of a port's registers, word offset o. -/
def State.portCtl (s : State) (p : Port) (o : Nat) (w : Word) : State :=
  match o with
  | 0x03 => s.wrTcCtl p w
  | 0x23 => s.wrCclr (.pd p) w
  | 0x43 => s.wrCclr (.vdm p) w
  | 0x63 => s.wrCclr (.slc p) w
  | 0x83 => s.wrLoopCtl p w
  | 0x84 => s.wrLoopMduty p w
  | 0xA3 => s.wrCclr (.met p) w
  | 0xC3 => s.wrCclr (.pgrd p) w
  | 0xE0 => s.wrCntRst p w
  | 0xE4 => s.wrCclr (.cnt p) w
  | _ => s

/-- The control fields of the global registers. -/
def State.globalCtl (s : State) (i : Nat) (w : Word) : State :=
  match i with
  | 0x004 => s.wrUnlock (w.setWidth 16)
  | 0x008 => s.wrDevRst w
  | 0x102 => s.wrCclr .clk w
  | 0x104 => s.wrCclr (.d2d .w0) w
  | 0x105 => s.wrCclr (.d2d .w1) w
  | 0x204 => s.wrAlmCtl w
  | 0x303 => s.wrCclr .sup w
  | 0x403 => s.wrCclr .cis w
  | 0x483 => s.wrLnkCtl w
  | 0x503 => s.wrCclr .twi w
  | 0x603 => s.wrCclr .mtr w
  | 0x608 => s.wrBclr w
  | 0x703 => s.wrCclr .pmp w
  | 0x803 => let s := s.wrCclr .hnd w; if w.getLsbD 30 then s.hwmClear else s
  | 0x90A => s.wrCclr .grd w
  | 0xA03 => s.wrCclr .pwm w
  | 0xB02 => s.wrCclr .mux w
  | _ => s

/-- The control fields and windows at word index i. -/
def State.control (s : State) (i : Nat) (w : Word) : State :=
  if i < 0x1000 then s.globalCtl i w
  else if h : i < 0x4000 then s.portCtl ⟨(i - 0x1000) / 256, by omega⟩ (i % 256) w
  else if h : i < 0x7000 then s.wrCoef ⟨(i - 0x4000) / 256, by omega⟩ ⟨i % 256, Nat.mod_lt _ (by decide)⟩ w
  else s

/-- A committed word reaches the register at word index i (R387). -/
def State.regWrite (s : State) (i : Nat) (w : Word) : State := ((s.ack i w).enables i w).control i w

/-- The committed words that no row has brought to their registers yet reach them, in order (R383, assumption 16). -/
def State.drain (s : State) : State :=
  if s.served then s.twi.commits.foldl (fun s e => s.regWrite e.1.toNat e.2) { s with twi.commits := [] } else s

end Sys2Proof.Machine
end

