-- ==== Sys2Proof/Machine/Twi.lean ====
section
/-! DEFINITION. The four two-wire targets: transaction formats (R381 to R385), SCL timeout (R378), and the rows of the words that
reach a register (R386, R387, R395, R396). A row of a transaction leaves in `twi.reply` the bytes that the target sent and in
`twi.nak` whether it answered a byte of the controller with N. -/

namespace Sys2Proof.Machine

/-- What the bus saw of the transaction. -/
def State.answer (s : State) (reply : List Byte) (nak : Bool) : State := { s with twi := { s.twi with reply := reply, nak := nak } }

/-- Nothing acknowledged (R388). -/
def State.noAck (s : State) : State := s.answer [] true

/-- An event of TWI_EVT with its counter (R383): 0 PEC, 1 PART of target t. -/
def State.twiEvt (s : State) (i : Nat) : State := { s with twi := { s.twi with evt := setBit s.twi.evt i } }

/-- The timing entry of a target requires PEC (R384). -/
def State.pecNeeded (s : State) (t : Target) : Bool :=
  match s.alm.cfg.timing[(Target.idx t).val]? with | some e => e.pec | none => false

/-- k words that target t reads, one after another from the indices f 0, f 1, …, with the copies that the reads latch (R329, R382). -/
def State.readSeq (t : Target) : Nat → (Nat → Nat) → State → List Word × State
  | 0, _, s => ([], s)
  | k + 1, f, s =>
    let w := s.regRead t (f 0)
    let (l, s) := State.readSeq t k (fun j => f (j + 1)) (s.afterRead t (f 0))
    (w :: l, s)

/-- n data bytes: the words they come from, a word begun being read too. -/
def State.readBytes (s : State) (t : Target) (n : Nat) (f : Nat → Nat) : List Byte × State :=
  let (l, s) := State.readSeq t ((n + 3) / 4) f s
  ((l.flatMap wordBytes).take n, s)

/-- An address byte with its R/W bit. -/
def addrByte (addr : BitVec 7) (read : Bool) : Byte := addr ++ (if read then 1#1 else 0#1)

/-! ## TWM -/

/-- TWM's address (R379). -/
def State.twmAddr (s : State) : BitVec 7 := 0x40#7 + s.twi.straps.setWidth 7

/-- Word indices from the index on; they wrap from 0xFFFF to 0 (R382). -/
def twmIdx (idx : Index) (j : Nat) : Nat := (idx.toNat + j) % 65536

def State.setIndex (s : State) (idx : Index) (k : Nat) : State := { s with twi := { s.twi with index := idx + BitVec.ofNat 16 k } }

/-- The words of a write that its remainder and its PEC commit (R383): the words, and whether the write counts on PEC, on its length,
and sets TWI_EVT.PEC. -/
def judge (addr : Byte) (idx : Index) (need : Bool) (b : List Byte) : List Word × Bool × Bool × Bool :=
  let good := b.getLast? = some (pec (addr :: idx.extractLsb' 8 8 :: idx.extractLsb' 0 8 :: b.dropLast))
  match b.length % 4 with
  | 0 => if need && !b.isEmpty then ([], true, false, false) else (wordsOf b, false, false, false)
  | 1 => if good then (wordsOf b.dropLast, false, false, false) else ([], true, false, true)
  | _ => (if need then [] else wordsOf b, false, true, false)

/-- TWM while registers are not served: nothing is acknowledged in reset; else the address is acknowledged and SCL stretched until the
PLLs lock, and in rest the match wakes the device (R57, R59, R388). -/
def State.stretch (s : State) (c : TwmOp) : State :=
  let held := { s with twi := { s.twi with stretched := s.twi.stretched ++ [c] } }.answer [] false
  match s.dev.phase with
  | .clock | .pll | .wakePll => held
  | .rest => held.wake .twm
  | _ => s.noAck

/-- A write ends at P. The words it commits wait, in order, for their registers (R381 to R383). -/
def State.twmWrite (s : State) (idx : Index) (bytes : List Byte) : State :=
  let b := bytes.take 65
  let (l, cPec, cPart, ePec) := judge (addrByte s.twmAddr false) idx (s.pecNeeded .twm) b
  let s := (s.answer [] (decide (65 < bytes.length))).setIndex idx (b.length / 4)
  let s := { s with twi := { s.twi with commits := s.twi.commits ++ l.zipIdx.map fun e => (idx + BitVec.ofNat 16 e.2, e.1) } }
  let s := if cPec then s.twiCnt .twm 0 else s
  let s := if ePec then s.twiEvt 2 else s
  if cPart then (s.twiEvt 1).twiCnt .twm 1 else s

/-- TWM_WRITE. -/
def execTwmWrite (idx : Index) (bytes : List Byte) (s : State) : Res State :=
  .next (if s.served then s.drain.twmWrite idx bytes else s.stretch (.write idx bytes))

/-- The index alone is set. -/
def State.twmSetIndex (s : State) (idx : Index) : State := (s.answer [] false).setIndex idx 0

/-- TWM_SET_INDEX. -/
def execTwmSetIndex (idx : Index) (s : State) : Res State :=
  .next (if s.served then s.drain.twmSetIndex idx else s.stretch (.setIndex idx))

/-- n bytes read from an index on, and the index left behind. -/
def State.twmStream (s : State) (idx : Index) (n : Nat) : State :=
  let (b, s) := s.readBytes .twm n (twmIdx idx)
  (s.answer b false).setIndex idx (n / 4)

/-- n data bytes until the controller's N; refused where PEC is required (R384). -/
def State.twmStreamed (s : State) (idx : Index) (n : Nat) : State :=
  if s.pecNeeded .twm then s.noAck.setIndex idx 0 else s.twmStream idx n

/-- TWM_STREAMED_READ. -/
def execTwmStreamedRead (idx : Index) (n : Nat) (s : State) : Res State :=
  .next (if s.served then s.drain.twmStreamed idx n else s.stretch (.streamed idx n))

/-- COUNT words and a PEC, then 0xFF for each further byte; a COUNT of 0 or above 32 is answered N (R381). `after` is what the write phase
carried after the index: more than COUNT is a wrong length (R384). -/
def State.twmCounted (s : State) (idx : Index) (after : List Byte) (extra : Nat) : State :=
  match after with
  | [] => s.noAck
  | [c] =>
    if c = 0#8 ∨ 32 < c.toNat then s.noAck.setIndex idx 0
    else
      let (b, s') := s.readBytes .twm (4 * c.toNat) (twmIdx idx)
      let sum := pec ([addrByte s.twmAddr false, idx.extractLsb' 8 8, idx.extractLsb' 0 8, c, addrByte s.twmAddr true] ++ b)
      (s'.answer (b ++ sum :: List.replicate extra 0xFF#8) false).setIndex idx c.toNat
  | _ => ((s.noAck.setIndex idx 0).twiEvt 1).twiCnt .twm 1

/-- TWM_COUNTED_READ. -/
def execTwmCountedRead (idx : Index) (after : List Byte) (extra : Nat) (s : State) : Res State :=
  .next (if s.served then s.drain.twmCounted idx after extra else s.stretch (.counted idx after extra))

/-- From the index left by the last transaction. -/
def State.twmCurrent (s : State) (n : Nat) : State := if s.pecNeeded .twm then s.noAck else s.twmStream s.twi.index n

/-- TWM_CURRENT_READ. -/
def execTwmCurrentRead (n : Nat) (s : State) : Res State :=
  .next (if s.served then s.drain.twmCurrent n else s.stretch (.current n))

/-- A stretched transaction goes on, behind the words that the ones before it committed (R383). -/
def State.twmServe (s : State) (c : TwmOp) : State :=
  let s := s.drain
  match c with
  | .write idx b => s.twmWrite idx b
  | .setIndex idx => s.twmSetIndex idx
  | .streamed idx n => s.twmStreamed idx n
  | .counted idx after extra => s.twmCounted idx after extra
  | .current n => s.twmCurrent n

/-- The transactions that were stretched go on, oldest first, now that registers are served (R57, R388). -/
def State.twmRelease (s : State) : State :=
  s.twi.stretched.foldl State.twmServe { s with twi := { s.twi with stretched := [] } }

/-- PLLS_LOCKED: PLLH and PLLS lock during start-up, and TWM is served (R52, R57). -/
def execPllsLocked (s : State) : Res State :=
  if s.dev.phase = .pll then
    .next { s with dev := { s.dev with phase := .links }, clk := { s.clk with pllS := true, pllH := true } }.twmRelease
  else .next s

/-- REST_EXIT_PLL_RELOCK: the PLLs have locked again, and TWM is served (R61, R388). -/
def execRestExitPllRelock (s : State) : Res State :=
  if s.dev.phase = .wakePll then
    .next { s with dev := { s.dev with phase := .wakeLinks }, clk := { s.clk with pllS := true, pllH := true } }.twmRelease
  else .next s

/-! ## The metering targets (R379, R385) -/

def AuxTarget.target : AuxTarget → Target
  | .twa => .twa | .twb => .twb | .twc => .twc

/-- The port that a metering target serves at an address, if it acknowledges it: enabled, after the apply step (R379, R388). -/
def State.auxPort (s : State) (t : AuxTarget) (addr : BitVec 7) : Option Port :=
  let (k, base) : Nat × Nat := match t with
    | .twa => (0, s.alm.cfg.baseA) | .twb => (1, s.alm.cfg.baseB) | .twc => (2, s.alm.cfg.baseC)
  let a := addr.toNat - base
  if s.served && s.cisOn && s.alm.cfg.auxEn.testBit k && decide (base ≤ addr.toNat) && decide (a < 16) then
    if h : 16 * k + a < 48 then some ⟨16 * k + a, h⟩ else none
  else none

/-- Word indices of the MET sub-block from an offset on; the offset wraps from 0x1F to 0. -/
def metIdx (p : Port) (off j : Nat) : Nat := 0x10A0 + 0x100 * p.val + (off + j) % 32

/-- The wake source of a metering target. -/
def AuxTarget.source : AuxTarget → WakeSource
  | .twa => .twa | .twb => .twb | .twc => .twc

/-- A metering target that does not serve the address answers N; in rest a match of an enabled target's own addresses wakes the device
(R59, R388). -/
def State.auxNone (s : State) (t : AuxTarget) (addr : BitVec 7) : State :=
  let base := match t with | .twa => s.alm.cfg.baseA | .twb => s.alm.cfg.baseB | .twc => s.alm.cfg.baseC
  if base ≤ addr.toNat ∧ addr.toNat < base + 16 then s.noAck.wake (AuxTarget.source t) else s.noAck

def State.setOffset (s : State) (p : Port) (o : Nat) : State := { s with twi := { s.twi with offsets := s.twi.offsets.set p (o % 32) } }

/-- n bytes from an offset on. -/
def State.auxStream (s : State) (t : AuxTarget) (p : Port) (off n : Nat) : State :=
  let (b, s) := s.readBytes (AuxTarget.target t) n (metIdx p off)
  (s.answer b false).setOffset p (off + n / 4)

/-- METERING_SET_OFFSET; an offset of 0x20 or more is answered N. -/
def execMeteringSetOffset (t : AuxTarget) (addr : BitVec 7) (off : Byte) (s : State) : Res State :=
  match s.auxPort t addr with
  | none => .next (s.auxNone t addr)
  | some p => if off.toNat < 32 then .next ((s.answer [] false).setOffset p off.toNat) else .next s.noAck

/-- METERING_STREAMED_READ. -/
def execMeteringStreamedRead (t : AuxTarget) (addr : BitVec 7) (off : Byte) (n : Nat) (s : State) : Res State :=
  match s.auxPort t addr with
  | none => .next (s.auxNone t addr)
  | some p =>
    if 32 ≤ off.toNat then .next s.noAck
    else if s.pecNeeded (AuxTarget.target t) then .next (s.noAck.setOffset p off.toNat)
    else .next (s.auxStream t p off.toNat n)

/-- METERING_COUNTED_READ. -/
def execMeteringCountedRead (t : AuxTarget) (addr : BitVec 7) (off : Byte) (after : List Byte) (extra : Nat) (s : State) : Res State :=
  match s.auxPort t addr with
  | none => .next (s.auxNone t addr)
  | some p =>
    if 32 ≤ off.toNat then .next s.noAck else
    match after with
    | [] => .next s.noAck
    | [c] =>
      if c = 0#8 ∨ 32 < c.toNat then .next (s.noAck.setOffset p off.toNat)
      else
        let (b, s') := s.readBytes (AuxTarget.target t) (4 * c.toNat) (metIdx p off.toNat)
        let sum := pec ([addrByte addr false, off, c, addrByte addr true] ++ b)
        .next ((s'.answer (b ++ sum :: List.replicate extra 0xFF#8) false).setOffset p (off.toNat + c.toNat))
    | _ => .next (((s.noAck.setOffset p off.toNat).twiEvt 1).twiCnt (AuxTarget.target t) 1)

/-- METERING_CURRENT_READ: from the address's own offset. -/
def execMeteringCurrentRead (t : AuxTarget) (addr : BitVec 7) (n : Nat) (s : State) : Res State :=
  match s.auxPort t addr with
  | none => .next (s.auxNone t addr)
  | some p =>
    if s.pecNeeded (AuxTarget.target t) then .next s.noAck else .next (s.auxStream t p s.twi.offsets[p] n)

/-- METERING_WRITE: every data byte is answered N, and nothing is written; the OFFSET byte is taken (R385). -/
def execMeteringWrite (t : AuxTarget) (addr : BitVec 7) (off : Byte) (bytes : List Byte) (s : State) : Res State :=
  match s.auxPort t addr with
  | none => .next (s.auxNone t addr)
  | some p => if off.toNat < 32 then .next ((s.answer [] (!bytes.isEmpty)).setOffset p off.toNat) else .next s.noAck

/-- SCL_TIMEOUT: the target releases the bus, and a transaction that was being stretched commits nothing (R378). -/
def execSclTimeout (t : Target) (s : State) : Res State :=
  if s.clocked then
    let s := (s.twiEvt 3).twiCnt t 3
    .next (if t = .twm then { s with twi := { s.twi with stretched := [] } } else s)
  else .next s

/-! ## Committed words at their registers -/

/-- UNLOCK_FIRST_KEY. -/
def execUnlockFirstKey (s : State) : Res State := s.hostWrite 0x004 0x00A5#32 fun s => s.wrUnlock 0x00A5#16

/-- UNLOCK_SECOND_KEY. -/
def execUnlockSecondKey (s : State) : Res State := s.hostWrite 0x004 0x005A#32 fun s => s.wrUnlock 0x005A#16

/-- UNLOCK_CLOSE. -/
def execUnlockClose (key : BitVec 16) (s : State) : Res State := 
  s.hostWrite 0x004 (key.setWidth 32) fun s => s.wrUnlock key

/-- UNLOCK_KEY_WINDOW_EXPIRY: 1 ms without the second key. -/
def execUnlockKeyWindowExpiry (s : State) : Res State := .next { s with dev := { s.dev with keyPend := false } }

/-- UNLOCK_TIMEOUT: 100 ms without a committed TWM write. -/
def execUnlockTimeout (s : State) : Res State := .next { s with dev := { s.dev with unlock := false } }

/-- COUNTER_CLEAR: CCLR of a block written 1, and its other fields as they stand, so that none of them acts (R387, R395, R396). -/
def execCounterClear (b : ClearBlock) (s : State) : Res State :=
  s.hostWrite (ClearBlock.index b) (s.cclrWord b) fun s => s.clearCounts b

/-- HWMCLR (R395). -/
def execHwmclr (s : State) : Res State := s.hostWrite 0x803 0x40000000#32 State.hwmClear

/-- EVENT_ACK: a word written to a register with W1C bits, applied field by field (R387, R396). -/
def execEventAck (idx : Index) (w : Word) (s : State) : Res State :=
  s.hostWrite idx.toNat w fun s => s.regWrite idx.toNat w

/-- REGISTER_WRITE: a committed word at its register, field by field (R383, R387). -/
def execRegisterWrite (idx : Index) (w : Word) (s : State) : Res State :=
  s.hostWrite idx.toNat w fun s => s.regWrite idx.toNat w

end Sys2Proof.Machine
end

