-- ==== Sys2Proof/Machine/Yard.lean ====
section
/-! DEFINITION. The yard arbiter and the timer unit (R129 to R132, R41, R428). -/

namespace Sys2Proof.Machine

/-! ## The layouts of a record (R129) -/

/-- PORT of a record: 63 for a device-wide event. -/
def portField (p : Option Port) : BitVec 6 := match p with | some p => BitVec.ofNat 6 p.val | none => 63#6

/-- The number by which `Config.evCode` and `Config.evArg` know an event: the manual numbers the codes no further (assumption 13). -/
def EvCode.num : EvCode → Nat
  | .hardReset => 0
  | .msg => 1
  | .txOk k => 32 + k.ctorIdx
  | .txFail k => 64 + k.ctorIdx
  | .sluice => 2
  | .timer t _ => 96 + t.ctorIdx
  | .guard => 3
  | .shed => 4
  | .crier c => 16 + c.ctorIdx
  | .note (.linkLost .w0) => 6
  | .note (.linkLost .w1) => 7
  | .note .conn => 8
  | .note .grant => 9
  | .note .loan => 10
  | .note (.dieTemp .core) => 11
  | .note (.dieTemp .w0) => 12
  | .note (.dieTemp .w1) => 13
  | .note .sup => 14
  | .note .admin => 15

/-- An event record: bit 63 is 0, then CLASS, PORT, CODE, TIME and ARG (R129). -/
def YardRec.word (r : YardRec) : BitVec 64 :=
  0#1 ++ BitVec.ofNat 2 r.cls ++ portField r.port ++ Config.evCode r.ev.num ++ r.time ++ Config.evArg r.ev.num

/-- A timer record: bit 63 is 1, then CLASS 2 and CODE of its expiry with PORT between them, EXPIRY and TAG (R129, R130). -/
def TimerRec.word (r : TimerRec) : BitVec 64 :=
  1#1 ++ 2#2 ++ portField (some r.port) ++ Config.evCode (EvCode.timer r.id r.tag).num ++ r.expiry ++ r.tag

/-- XREF time, modulo 2^32, has reached an EXPIRY: it lies less than half the range ahead of it (R129, R132, assumption 2). -/
def reached (us : Nat) (expiry : Word) : Bool := decide ((BitVec.ofNat 32 us - expiry).toNat < 2 ^ 31)

/-! ## The arbiter -/

/-- The timer record that an expiry event names. -/
def Hnd.timerOf (h : Hnd) (p : Option Port) (e : EvCode) : Option TimerRec :=
  match e with
  | .timer t tag => h.timers.find? fun r => decide (some r.port = p) && decide (r.id = t) && decide (r.tag = tag)
  | _ => none

/-- A request finds a record: an expiry turns its own timer record into the event; any other takes a free record (R131, R132). -/
def Hnd.recFor (h : Hnd) (r : YardReq) : Option Bool :=
  match r.ev with
  | .timer _ _ => match h.timerOf r.port r.ev with | some t => t.place | none => none
  | _ => h.findRec r.port r.cls

/-- Expiries of timers disarmed since they asked are withdrawn. -/
def Hnd.prune (h : Hnd) : Hnd :=
  { h with reqs := h.reqs.filter fun r => match r.ev with | .timer _ _ => (h.timerOf r.port r.ev).isSome | _ => true }

/-- The oldest request of requester k. -/
def Hnd.head (h : Hnd) (k : Nat) : Option YardReq := h.reqs.find? fun r => decide (r.from' = k)

/-- The armed timer that has waited longest for a record, if one is free for it. -/
def Hnd.waiter (h : Hnd) : Option (TimerRec × Bool) :=
  h.timers.findSome? fun t => if t.place.isSome then none else (h.findRec (some t.port) 2).map fun b => (t, b)

/-- Requester k can be granted. -/
def Hnd.ripe (h : Hnd) (k : Nat) : Bool :=
  (match h.head k with | some r => (h.recFor r).isSome | none => false) || (decide (k = 50) && h.waiter.isSome)

/-- Oldest requests that find no record count their wait, once each (R131). -/
def Hnd.noteFull (h : Hnd) : Hnd :=
  (List.range 64).foldl (fun h k =>
    match h.head k with
    | some r =>
      if (h.recFor r).isSome || r.full then h
      else { h with evt := setBit h.evt 0, fullCnt := satInc h.fullCnt
                    reqs := h.reqs.map fun q => if q = r then { q with full := true } else q }
    | none => h) h

/-- A request is granted: the event is ready, with the XREF time of its acceptance (R129, R130). -/
def Hnd.accept (h : Hnd) (r : YardReq) (shared : Bool) (us : Nat) : Hnd :=
  let h := { h with
    reqs := h.reqs.erase r
    timers := match r.ev with
      | .timer t tag => h.timers.filter fun x => !(decide (some x.port = r.port) && decide (x.id = t) && decide (x.tag = tag))
      | _ => h.timers
    ready := h.ready ++ [YardRec.mk r.port r.cls r.ev shared (BitVec.ofNat 24 us) false] }
  h.mark

/-- A waiting timer gets its record; past its EXPIRY it is ready at once (R132). -/
def Hnd.place (h : Hnd) (t : TimerRec) (shared : Bool) (us : Nat) : Hnd :=
  let h := { h with timers := h.timers.map fun x => if x = t then { x with place := some shared } else x }
  let h := if !reached us t.expiry then h
    else { h with timers := h.timers.erase { t with place := some shared }
                  ready := h.ready ++ [YardRec.mk (some t.port) 2 (.timer t.id t.tag) shared (BitVec.ofNat 24 us) false] }
  h.mark

/-- One grant of the yard arbiter (R41, R131, R132). -/
def Hnd.grant (h : Hnd) (us : Nat) : Hnd :=
  let h := h.prune.noteFull
  match rrPick h.ptr 64 h.ripe with
  | none => h
  | some k =>
    let h := { h with ptr := ptrAfter 64 k }
    match h.head k with
    | some r =>
      match h.recFor r with
      | some b => h.accept r b us
      | none => match h.waiter with | some (t, b) => h.place t b us | none => h
    | none => match h.waiter with | some (t, b) => h.place t b us | none => h

/-- YARD_EVENT_ACCEPT: the yard arbiter grants one request. -/
def execYardEventAccept (s : State) : Res State := if s.running then .next { s with hnd := s.hnd.grant s.dev.us } else .next s

/-- YARD_TIMER_EXPIRY: XREF time reaches the EXPIRY of timer t of port p, and the timer unit asks the arbiter (R132). -/
def execYardTimerExpiry (p : Port) (t : TimerId) (s : State) : Res State :=
  if !s.running then .next s else
  match s.hnd.timers.find? (isTimer p t) with
  | none => .next s
  | some r =>
    let s := if reached s.dev.us r.expiry then s else s.pass (r.expiry - BitVec.ofNat 32 s.dev.us).toNat true
    if r.place.isSome && !s.hnd.reqs.any (fun q => decide (q.ev = .timer t r.tag)) then
      .next (s.post 50 (some p) 2 (.timer t r.tag))
    else .next s

end Sys2Proof.Machine
end

