-- ==== Sys2Proof/Machine/Dispatch.lean ====
section
/-! DEFINITION. One arm per command: the meaning it calls. -/

namespace Sys2Proof.Machine

def exec (i : Instr) (s : State) : Host.Outcome State Fault Refusal :=
  match i with
  | .standbyPor => Sys2Proof.Machine.execStandbyPor s
  | .supplyBelowThreshold which => Sys2Proof.Machine.execSupplyBelowThreshold which s
  | .rstNLow => Sys2Proof.Machine.execRstNLow s
  | .resetRelease straps tmode => Sys2Proof.Machine.execResetRelease straps tmode s
  | .vauxLow => Sys2Proof.Machine.execVauxLow s
  | .vauxRecover => Sys2Proof.Machine.execVauxRecover s
  | .vconnInLow d => Sys2Proof.Machine.execVconnInLow d s
  | .startupOscillatorRunning => Sys2Proof.Machine.execStartupOscillatorRunning s
  | .pllsLocked => Sys2Proof.Machine.execPllsLocked s
  | .d2dTrainingAttemptEnd d ok ucrev => Sys2Proof.Machine.execD2dTrainingAttemptEnd d ok ucrev s
  | .almanacReadDone sfdp imgA imgB => Sys2Proof.Machine.execAlmanacReadDone sfdp imgA imgB s
  | .almanacApplyDone => Sys2Proof.Machine.execAlmanacApplyDone s
  | .counterRestoreDone slots => Sys2Proof.Machine.execCounterRestoreDone slots s
  | .initialCalibrationDone pref0 pref1 => Sys2Proof.Machine.execInitialCalibrationDone pref0 pref1 s
  | .portsEnabled ms => Sys2Proof.Machine.execPortsEnabled ms s
  | .xrefCrystalQualified => Sys2Proof.Machine.execXrefCrystalQualified s
  | .xrefCrystalFail => Sys2Proof.Machine.execXrefCrystalFail s
  | .pllLockLost => Sys2Proof.Machine.execPllLockLost s
  | .x32CrystalFail => Sys2Proof.Machine.execX32CrystalFail s
  | .x32CrystalRecover => Sys2Proof.Machine.execX32CrystalRecover s
  | .flitCrcFail d => Sys2Proof.Machine.execFlitCrcFail d s
  | .d2dLinkLost d => Sys2Proof.Machine.execD2dLinkLost d s
  | .d2dfCisternRelease d => Sys2Proof.Machine.execD2dfCisternRelease d s
  | .devRst w => Sys2Proof.Machine.execDevRst w s
  | .almanacReload w => Sys2Proof.Machine.execAlmanacReload w s
  | .stopPhaseEnd => Sys2Proof.Machine.execStopPhaseEnd s
  | .portReset p => Sys2Proof.Machine.execPortReset p s
  | .portResetComplete p => Sys2Proof.Machine.execPortResetComplete p s
  | .admDisable p => Sys2Proof.Machine.execAdmDisable p s
  | .admEnable p => Sys2Proof.Machine.execAdmEnable p s
  | .restEntry => Sys2Proof.Machine.execRestEntry s
  | .restWake src => Sys2Proof.Machine.execRestWake src s
  | .restExitPllRelock => Sys2Proof.Machine.execRestExitPllRelock s
  | .restExitLinksRetrained => Sys2Proof.Machine.execRestExitLinksRetrained s
  | .restExitComplete => Sys2Proof.Machine.execRestExitComplete s
  | .yardEventAccept => Sys2Proof.Machine.execYardEventAccept s
  | .yardTimerExpiry p t => Sys2Proof.Machine.execYardTimerExpiry p t s
  | .ccTerminationSeen p cc1 cc2 => Sys2Proof.Machine.execCcTerminationSeen p cc1 cc2 s
  | .tccdebounceExpiry p vbc => Sys2Proof.Machine.execTccdebounceExpiry p vbc s
  | .backvRelease p vbc => Sys2Proof.Machine.execBackvRelease p vbc s
  | .tpddebounceExpiry p => Sys2Proof.Machine.execTpddebounceExpiry p s
  | .tsrcdisconnectExpiry p => Sys2Proof.Machine.execTsrcdisconnectExpiry p s
  | .sinkVbusLost p => Sys2Proof.Machine.execSinkVbusLost p s
  | .drpToggle p => Sys2Proof.Machine.execDrpToggle p s
  | .errRecovEnd p => Sys2Proof.Machine.execErrRecovEnd p s
  | .selftestResult p pass => Sys2Proof.Machine.execSelftestResult p pass s
  | .vconnOvercurrent p => Sys2Proof.Machine.execVconnOvercurrent p s
  | .packetReceive p k => Sys2Proof.Machine.execPacketReceive p k s
  | .capture p amp => Sys2Proof.Machine.execCapture p amp s
  | .hardResetOrderedSet p => Sys2Proof.Machine.execHardResetOrderedSet p s
  | .transmitStart p => Sys2Proof.Machine.execTransmitStart p s
  | .treceiveExpiry p => Sys2Proof.Machine.execTreceiveExpiry p s
  | .txGoodcrc h p => Sys2Proof.Machine.execTxGoodcrc h p s
  | .txfail h p => Sys2Proof.Machine.execTxfail h p s
  | .dowserFrame p r => Sys2Proof.Machine.execDowserFrame p r s
  | .ntcMeasure p ohm => Sys2Proof.Machine.execNtcMeasure p ohm s
  | .dieTempReport d sensor temp => Sys2Proof.Machine.execDieTempReport d sensor temp s
  | .thermalEvaluation p => Sys2Proof.Machine.execThermalEvaluation p s
  | .cutClear c => Sys2Proof.Machine.execCutClear c s
  | .guardNotice h p => Sys2Proof.Machine.execGuardNotice h p s
  | .vsafe5vInBand p vbc => Sys2Proof.Machine.execVsafe5vInBand p vbc s
  | .request h p => Sys2Proof.Machine.execRequest h p s
  | .eprRequest h p => Sys2Proof.Machine.execEprRequest h p s
  | .softReset h p => Sys2Proof.Machine.execSoftReset h p s
  | .hardResetReceived h p => Sys2Proof.Machine.execHardResetReceived h p s
  | .accept h p => Sys2Proof.Machine.execAccept h p s
  | .reject h p => Sys2Proof.Machine.execReject h p s
  | .wait h p => Sys2Proof.Machine.execWait h p s
  | .psRdy h p => Sys2Proof.Machine.execPsRdy h p s
  | .sourceCapabilities h p => Sys2Proof.Machine.execSourceCapabilities h p s
  | .eprSourceCapabilities h p => Sys2Proof.Machine.execEprSourceCapabilities h p s
  | .getSourceCap h p => Sys2Proof.Machine.execGetSourceCap h p s
  | .getSinkCap h p => Sys2Proof.Machine.execGetSinkCap h p s
  | .getPpsStatus h p => Sys2Proof.Machine.execGetPpsStatus h p s
  | .getStatus h p => Sys2Proof.Machine.execGetStatus h p s
  | .getRevision h p => Sys2Proof.Machine.execGetRevision h p s
  | .eprModeEnter h p => Sys2Proof.Machine.execEprModeEnter h p s
  | .eprModeExit h p => Sys2Proof.Machine.execEprModeExit h p s
  | .eprModeResponse h p => Sys2Proof.Machine.execEprModeResponse h p s
  | .eprKeepalive h p => Sys2Proof.Machine.execEprKeepalive h p s
  | .vconnSwap h p => Sys2Proof.Machine.execVconnSwap h p s
  | .prSwap h p => Sys2Proof.Machine.execPrSwap h p s
  | .drSwap h p => Sys2Proof.Machine.execDrSwap h p s
  | .frSwap h p => Sys2Proof.Machine.execFrSwap h p s
  | .dataReset h p => Sys2Proof.Machine.execDataReset h p s
  | .unsupportedMessage h p => Sys2Proof.Machine.execUnsupportedMessage h p s
  | .senderResponseTimerExpiry h p => Sys2Proof.Machine.execSenderResponseTimerExpiry h p s
  | .ttypecsendsourcecapExpiry h p => Sys2Proof.Machine.execTtypecsendsourcecapExpiry h p s
  | .tsrctransitionExpiry h p => Sys2Proof.Machine.execTsrctransitionExpiry h p s
  | .transitionLimitExpiry h p => Sys2Proof.Machine.execTransitionLimitExpiry h p s
  | .settleReport p mv => Sys2Proof.Machine.execSettleReport p mv s
  | .waitWindowExpiry h p => Sys2Proof.Machine.execWaitWindowExpiry h p s
  | .rejectResendCaps h p => Sys2Proof.Machine.execRejectResendCaps h p s
  | .sinkWaitCapTimerExpiry h p => Sys2Proof.Machine.execSinkWaitCapTimerExpiry h p s
  | .psTransitionTimerExpiry h p => Sys2Proof.Machine.execPsTransitionTimerExpiry h p s
  | .tsinkrequestExpiry h p => Sys2Proof.Machine.execTsinkrequestExpiry h p s
  | .tpshardresetExpiry h p => Sys2Proof.Machine.execTpshardresetExpiry h p s
  | .tsrcrecoverExpiry h p => Sys2Proof.Machine.execTsrcrecoverExpiry h p s
  | .sinkHardResetRecoveryExpiry h p => Sys2Proof.Machine.execSinkHardResetRecoveryExpiry h p s
  | .sinkHardResetVbusReturn p vbc => Sys2Proof.Machine.execSinkHardResetVbusReturn p vbc s
  | .tppstimeoutExpiry h p => Sys2Proof.Machine.execTppstimeoutExpiry h p s
  | .tsourceeprkeepaliveExpiry h p => Sys2Proof.Machine.execTsourceeprkeepaliveExpiry h p s
  | .tsinkeprkeepaliveExpiry h p => Sys2Proof.Machine.execTsinkeprkeepaliveExpiry h p s
  | .tvconnsourceonExpiry h p => Sys2Proof.Machine.execTvconnsourceonExpiry h p s
  | .shedNotice h p => Sys2Proof.Machine.execShedNotice h p s
  | .shedLimitExpiry h p => Sys2Proof.Machine.execShedLimitExpiry h p s
  | .freeRise p => Sys2Proof.Machine.execFreeRise p s
  | .reofferSpacingExpiry h p => Sys2Proof.Machine.execReofferSpacingExpiry h p s
  | .sluiceStateChange h p => Sys2Proof.Machine.execSluiceStateChange h p s
  | .crierAlert h => Sys2Proof.Machine.execCrierAlert h s
  | .alertWaitExpiry h p => Sys2Proof.Machine.execAlertWaitExpiry h p s
  | .tvconnstableExpiry h p => Sys2Proof.Machine.execTvconnstableExpiry h p s
  | .cableDiscoverIdentityResponse h p => Sys2Proof.Machine.execCableDiscoverIdentityResponse h p s
  | .tdiscoveridentityExpiry h p => Sys2Proof.Machine.execTdiscoveridentityExpiry h p s
  | .cableDiscoveryTimeLimit h p => Sys2Proof.Machine.execCableDiscoveryTimeLimit h p s
  | .sop2DiscoverIdentityResponse h p => Sys2Proof.Machine.execSop2DiscoverIdentityResponse h p s
  | .partnerDiscoveryStart h p => Sys2Proof.Machine.execPartnerDiscoveryStart h p s
  | .discoverIdentityAck h p => Sys2Proof.Machine.execDiscoverIdentityAck h p s
  | .discoverSvidsAck h p => Sys2Proof.Machine.execDiscoverSvidsAck h p s
  | .discoverModesAck h p => Sys2Proof.Machine.execDiscoverModesAck h p s
  | .enterModeAck h p => Sys2Proof.Machine.execEnterModeAck h p s
  | .dpStatusUpdateAck h p => Sys2Proof.Machine.execDpStatusUpdateAck h p s
  | .dpConfigureAck h p => Sys2Proof.Machine.execDpConfigureAck h p s
  | .vdmNak h p => Sys2Proof.Machine.execVdmNak h p s
  | .vdmBusy h p => Sys2Proof.Machine.execVdmBusy h p s
  | .tvdmbusyExpiry h p => Sys2Proof.Machine.execTvdmbusyExpiry h p s
  | .tvdmsenderresponseExpiry h p => Sys2Proof.Machine.execTvdmsenderresponseExpiry h p s
  | .tvdmwaitmodeentryExpiry h p => Sys2Proof.Machine.execTvdmwaitmodeentryExpiry h p s
  | .attention h p => Sys2Proof.Machine.execAttention h p s
  | .irqHpdLowTimeEnd h p => Sys2Proof.Machine.execIrqHpdLowTimeEnd h p s
  | .structuredVdmCommand h p => Sys2Proof.Machine.execStructuredVdmCommand h p s
  | .unstructuredVdm h p => Sys2Proof.Machine.execUnstructuredVdm h p s
  | .muxFrameStart => Sys2Proof.Machine.execMuxFrameStart s
  | .muxFrameEnd => Sys2Proof.Machine.execMuxFrameEnd s
  | .sluiceOn p => Sys2Proof.Machine.execSluiceOn p s
  | .sluiceOff p => Sys2Proof.Machine.execSluiceOff p s
  | .ilimActChange p => Sys2Proof.Machine.execIlimActChange p s
  | .prechargeEnd p => Sys2Proof.Machine.execPrechargeEnd p s
  | .slopeEnd p => Sys2Proof.Machine.execSlopeEnd p s
  | .rampOn p dur => Sys2Proof.Machine.execRampOn p dur s
  | .gateRiseCheckFail p => Sys2Proof.Machine.execGateRiseCheckFail p s
  | .limitEntry p sinceUs => Sys2Proof.Machine.execLimitEntry p sinceUs s
  | .limitExit p limUs => Sys2Proof.Machine.execLimitExit p limUs s
  | .faultTimerTrip p limUs => Sys2Proof.Machine.execFaultTimerTrip p limUs s
  | .fastTrip p => Sys2Proof.Machine.execFastTrip p s
  | .reverseCurrentTrip p => Sys2Proof.Machine.execReverseCurrentTrip p s
  | .rampTimeout p => Sys2Proof.Machine.execRampTimeout p s
  | .tripDischarged p dur stressUs => Sys2Proof.Machine.execTripDischarged p dur stressUs s
  | .retryOffTimeEnd p => Sys2Proof.Machine.execRetryOffTimeEnd p s
  | .retryCountReset p => Sys2Proof.Machine.execRetryCountReset p s
  | .dischargeDone p dur => Sys2Proof.Machine.execDischargeDone p dur s
  | .dscf p => Sys2Proof.Machine.execDscf p s
  | .fets p => Sys2Proof.Machine.execFets p s
  | .stageStart p vbs vin => Sys2Proof.Machine.execStageStart p vbs vin s
  | .stageStop p => Sys2Proof.Machine.execStageStop p s
  | .targetChange p => Sys2Proof.Machine.execTargetChange p s
  | .stopTimeout p => Sys2Proof.Machine.execStopTimeout p s
  | .periodStart p m => Sys2Proof.Machine.execPeriodStart p m s
  | .refTrim p => Sys2Proof.Machine.execRefTrim p s
  | .syncEdge e => Sys2Proof.Machine.execSyncEdge e s
  | .syncWindowMiss => Sys2Proof.Machine.execSyncWindowMiss s
  | .sampleTrigger p => Sys2Proof.Machine.execSampleTrigger p s
  | .stealThreshold p => Sys2Proof.Machine.execStealThreshold p s
  | .sampleDispatch n wait c => Sys2Proof.Machine.execSampleDispatch n wait c s
  | .presetDispatch n wait c => Sys2Proof.Machine.execPresetDispatch n wait c s
  | .commitDeadline p => Sys2Proof.Machine.execCommitDeadline p s
  | .troughGrant reqs => Sys2Proof.Machine.execTroughGrant reqs s
  | .stageUnitCommit n => Sys2Proof.Machine.execStageUnitCommit n s
  | .runawayTrap n => Sys2Proof.Machine.execRunawayTrap n s
  | .loopManual p => Sys2Proof.Machine.execLoopManual p s
  | .loopAuto p => Sys2Proof.Machine.execLoopAuto p s
  | .loopMdutyWrite p w => Sys2Proof.Machine.execLoopMdutyWrite p w s
  | .coefWindowWrite p i' w => Sys2Proof.Machine.execCoefWindowWrite p i' w s
  | .mov n => Sys2Proof.Machine.execMov n s
  | .mova n => Sys2Proof.Machine.execMova n s
  | .lea n => Sys2Proof.Machine.execLea n s
  | .add n => Sys2Proof.Machine.execAdd n s
  | .sub n => Sys2Proof.Machine.execSub n s
  | .neg n => Sys2Proof.Machine.execNeg n s
  | .abs n => Sys2Proof.Machine.execAbs n s
  | .mul n => Sys2Proof.Machine.execMul n s
  | .mac n => Sys2Proof.Machine.execMac n s
  | .msu n => Sys2Proof.Machine.execMsu n s
  | .shl n => Sys2Proof.Machine.execShl n s
  | .shr n => Sys2Proof.Machine.execShr n s
  | .asr n => Sys2Proof.Machine.execAsr n s
  | .rnd n => Sys2Proof.Machine.execRnd n s
  | .sat n => Sys2Proof.Machine.execSat n s
  | .min n => Sys2Proof.Machine.execMin n s
  | .max n => Sys2Proof.Machine.execMax n s
  | .clmp n => Sys2Proof.Machine.execClmp n s
  | .and n => Sys2Proof.Machine.execAnd n s
  | .or n => Sys2Proof.Machine.execOr n s
  | .xor n => Sys2Proof.Machine.execXor n s
  | .not n => Sys2Proof.Machine.execNot n s
  | .ceq n => Sys2Proof.Machine.execCeq n s
  | .cne n => Sys2Proof.Machine.execCne n s
  | .clt n => Sys2Proof.Machine.execClt n s
  | .cle n => Sys2Proof.Machine.execCle n s
  | .cltu n => Sys2Proof.Machine.execCltu n s
  | .cleu n => Sys2Proof.Machine.execCleu n s
  | .bz n => Sys2Proof.Machine.execBz n s
  | .bnz n => Sys2Proof.Machine.execBnz n s
  | .bra n => Sys2Proof.Machine.execBra n s
  | .jmp n => Sys2Proof.Machine.execJmp n s
  | .call n => Sys2Proof.Machine.execCall n s
  | .ret n => Sys2Proof.Machine.execRet n s
  | .stg n => Sys2Proof.Machine.execStg n s
  | .stgb n => Sys2Proof.Machine.execStgb n s
  | .endSample n => Sys2Proof.Machine.execEndSample n s
  | .trap n => Sys2Proof.Machine.execTrap n s
  | .nop n => Sys2Proof.Machine.execNop n s
  | .illegalOpcode n => Sys2Proof.Machine.execIllegalOpcode n s
  | .meteringSample m => Sys2Proof.Machine.execMeteringSample m s
  | .calSlotStart g => Sys2Proof.Machine.execCalSlotStart g s
  | .reliefSwitchIn g => Sys2Proof.Machine.execReliefSwitchIn g s
  | .calResult g offset gain => Sys2Proof.Machine.execCalResult g offset gain s
  | .reliefSwitchBack g => Sys2Proof.Machine.execReliefSwitchBack g s
  | .reliefCalibration g pass => Sys2Proof.Machine.execReliefCalibration g pass s
  | .calstale p m => Sys2Proof.Machine.execCalstale p m s
  | .prefMeasure d uv => Sys2Proof.Machine.execPrefMeasure d uv s
  | .billingClear w => Sys2Proof.Machine.execBillingClear w s
  | .metStatRead t p => Sys2Proof.Machine.execMetStatRead t p s
  | .cisStatRead t => Sys2Proof.Machine.execCisStatRead t s
  | .tallyInterval => Sys2Proof.Machine.execTallyInterval s
  | .tallyRecordStart => Sys2Proof.Machine.execTallyRecordStart s
  | .holdupRecheck => Sys2Proof.Machine.execHoldupRecheck s
  | .pageProgramDone => Sys2Proof.Machine.execPageProgramDone s
  | .tallyReadback ok => Sys2Proof.Machine.execTallyReadback ok s
  | .blockEraseDone => Sys2Proof.Machine.execBlockEraseDone s
  | .holdSnsSample mv => Sys2Proof.Machine.execHoldSnsSample mv s
  | .profileChange => Sys2Proof.Machine.execProfileChange s
  | .hello d k f => Sys2Proof.Machine.execHello d k f s
  | .ack d seq => Sys2Proof.Machine.execAck d seq s
  | .enum d k nextId waveUid chain => Sys2Proof.Machine.execEnum d k nextId waveUid chain s
  | .enumDone d k nodes closing => Sys2Proof.Machine.execEnumDone d k nodes closing s
  | .audit d k t => Sys2Proof.Machine.execAudit d k t s
  | .auditRes d k auditNo result nodes => Sys2Proof.Machine.execAuditRes d k auditNo result nodes s
  | .sleep d k wakeMs => Sys2Proof.Machine.execSleep d k wakeMs s
  | .req d k reqId amount hops => Sys2Proof.Machine.execReq d k reqId amount hops s
  | .grant d k reqId xid loanId amount leaseMs => Sys2Proof.Machine.execGrant d k reqId xid loanId amount leaseMs s
  | .refuse d k reqId => Sys2Proof.Machine.execRefuse d k reqId s
  | .renew d k loanId amount leaseMs => Sys2Proof.Machine.execRenew d k loanId amount leaseMs s
  | .renewAck d k loanId kept => Sys2Proof.Machine.execRenewAck d k loanId kept s
  | .lapse d k xid loanId amount => Sys2Proof.Machine.execLapse d k xid loanId amount s
  | .linkAckTimeout d => Sys2Proof.Machine.execLinkAckTimeout d s
  | .helloTimer d => Sys2Proof.Machine.execHelloTimer d s
  | .linkPartnerLost d => Sys2Proof.Machine.execLinkPartnerLost d s
  | .linkReset d => Sys2Proof.Machine.execLinkReset d s
  | .loanRequestTimeout d => Sys2Proof.Machine.execLoanRequestTimeout d s
  | .renewDue i' => Sys2Proof.Machine.execRenewDue i' s
  | .renewMissing i' => Sys2Proof.Machine.execRenewMissing i' s
  | .shedLead i' => Sys2Proof.Machine.execShedLead i' s
  | .borrowerLeaseEnd i' => Sys2Proof.Machine.execBorrowerLeaseEnd i' s
  | .lenderLeaseEnd i' => Sys2Proof.Machine.execLenderLeaseEnd i' s
  | .candidateWaveStart => Sys2Proof.Machine.execCandidateWaveStart s
  | .auditStart => Sys2Proof.Machine.execAuditStart s
  | .auditTokenLost => Sys2Proof.Machine.execAuditTokenLost s
  | .auditSlotGuardEnd d => Sys2Proof.Machine.execAuditSlotGuardEnd d s
  | .wrnSet inA => Sys2Proof.Machine.execWrnSet inA s
  | .wrnClear inA => Sys2Proof.Machine.execWrnClear inA s
  | .wrnAlert => Sys2Proof.Machine.execWrnAlert s
  | .hoRequest inA => Sys2Proof.Machine.execHoRequest inA s
  | .hoGateCheck slow => Sys2Proof.Machine.execHoGateCheck slow s
  | .hoComplete us => Sys2Proof.Machine.execHoComplete us s
  | .qualComplete => Sys2Proof.Machine.execQualComplete s
  | .emergencyReturn inA => Sys2Proof.Machine.execEmergencyReturn inA s
  | .rtnGateCheck slow => Sys2Proof.Machine.execRtnGateCheck slow s
  | .rtnComplete us => Sys2Proof.Machine.execRtnComplete us s
  | .rsvLowSet inB => Sys2Proof.Machine.execRsvLowSet inB s
  | .rsvLowClear inB => Sys2Proof.Machine.execRsvLowClear inB s
  | .brownOutWarning => Sys2Proof.Machine.execBrownOutWarning s
  | .brownOutClear => Sys2Proof.Machine.execBrownOutClear s
  | .twmWrite idx bytes => Sys2Proof.Machine.execTwmWrite idx bytes s
  | .twmSetIndex idx => Sys2Proof.Machine.execTwmSetIndex idx s
  | .twmStreamedRead idx n => Sys2Proof.Machine.execTwmStreamedRead idx n s
  | .twmCountedRead idx after extra => Sys2Proof.Machine.execTwmCountedRead idx after extra s
  | .twmCurrentRead n => Sys2Proof.Machine.execTwmCurrentRead n s
  | .meteringSetOffset t addr off => Sys2Proof.Machine.execMeteringSetOffset t addr off s
  | .meteringStreamedRead t addr off n => Sys2Proof.Machine.execMeteringStreamedRead t addr off n s
  | .meteringCountedRead t addr off after extra => Sys2Proof.Machine.execMeteringCountedRead t addr off after extra s
  | .meteringCurrentRead t addr n => Sys2Proof.Machine.execMeteringCurrentRead t addr n s
  | .meteringWrite t addr off bytes => Sys2Proof.Machine.execMeteringWrite t addr off bytes s
  | .sclTimeout t => Sys2Proof.Machine.execSclTimeout t s
  | .unlockFirstKey => Sys2Proof.Machine.execUnlockFirstKey s
  | .unlockSecondKey => Sys2Proof.Machine.execUnlockSecondKey s
  | .unlockClose key => Sys2Proof.Machine.execUnlockClose key s
  | .unlockKeyWindowExpiry => Sys2Proof.Machine.execUnlockKeyWindowExpiry s
  | .unlockTimeout => Sys2Proof.Machine.execUnlockTimeout s
  | .counterClear b => Sys2Proof.Machine.execCounterClear b s
  | .hwmclr => Sys2Proof.Machine.execHwmclr s
  | .eventAck idx w => Sys2Proof.Machine.execEventAck idx w s
  | .registerWrite idx w => Sys2Proof.Machine.execRegisterWrite idx w s
  | .vconnInRecover d => Sys2Proof.Machine.execVconnInRecover d s
  | .sinkVbusDetect p vbc => Sys2Proof.Machine.execSinkVbusDetect p vbc s
  | .preambleDetected p amp kbps => Sys2Proof.Machine.execPreambleDetected p amp kbps s
  | .transmitEnd p => Sys2Proof.Machine.execTransmitEnd p s
  | .notSupportedReceived h p => Sys2Proof.Machine.execNotSupportedReceived h p s
  | .frameStart => Sys2Proof.Machine.execFrameStart s
  | .hoRequestClear inA => Sys2Proof.Machine.execHoRequestClear inA s
  | .qualStart inA => Sys2Proof.Machine.execQualStart inA s
  | .qualBreak inA => Sys2Proof.Machine.execQualBreak inA s
  | .linkFrameDropped d why => Sys2Proof.Machine.execLinkFrameDropped d why s
  | .wakeBurstEnd d => Sys2Proof.Machine.execWakeBurstEnd d s

end Sys2Proof.Machine
end

