-- ==== Sys2Proof/Machine/Step.lean ====
section
/-! DEFINITION. One step: the command at the front of the queue. -/

namespace Sys2Proof.Machine

/-- With no command waiting the block idles: the committed words that still wait reach their registers (R383, assumption 16), and a microsecond
passes (assumption 2). The hands of a running device take, meanwhile, the ready events from which nothing follows (R131, R133, assumption
13). -/
def State.idle (s : State) : State := State.skipAll (s.drain.pass 1 s.clocked)

/-- The command at the front of the queue runs on the state with the queue's rest. -/
def step (s : State) : Host.Outcome State Fault Refusal :=
  match s.pending with
  | [] => .next s.idle
  | c :: rest => exec c { s with pending := rest }

/-- s with the command that a word spells put at the front of its queue; no word spells one. -/
def State.withFetchWord (s : State) (nbits w : Nat) : State :=
  match decodeTableWord nbits w with
  | some c => { s with pending := c :: s.pending }
  | none => s

end Sys2Proof.Machine
end

