-- ==== Sys2Proof/Machine/Pins.lean ====
section
/-! DEFINITION. What the pins show and how they stand (R16 to R24, R30, R32): no pin is stored; each follows from the state. -/

namespace Sys2Proof.Machine

/-- What a CC pin presents: nothing, Rp at one of the three levels, Rd, or VCONN. -/
inductive CcDrive where
  | highZ | rp (level : Nat) | rd | vconn
  deriving DecidableEq, Repr

/-- An output with a passive path: left to it, driven to its off level, or driven on. For GATE `off` is the active pull-down to SRC, and for
the input drives and the digital outputs `passive` is high impedance. -/
inductive OutPin where
  | passive | off | on
  deriving DecidableEq, Repr

/-- A power stage output: pulled low, driven low, or high from each period's start to a falling edge, in fine steps (R227). -/
inductive PwmPin where
  | passive | low | pulse (fall : Nat)
  deriving DecidableEq, Repr

/-- An input: high impedance and not used, ignored though powered, in use, or in use with its 50 kΩ pull-up or pull-down. -/
inductive InPin where
  | highZ | ignored | used | pullUp | pullDown
  deriving DecidableEq, Repr

/-- The pins of a port. `sense` stands for VBC, VBS, ISP and ISN, `msn` for the dowser's excitation, `ntc` for the thermistor's bias, `dis` for
the CC pin, true for CC2, that the wellhead discharges after VCONN has left it (R103). -/
structure PortPins where
  cc1   : CcDrive
  cc2   : CcDrive
  dis   : Option Bool
  sense : InPin
  src   : InPin
  gate  : OutPin
  dsc   : OutPin
  pwa   : PwmPin
  pwb   : PwmPin
  den   : OutPin
  msn   : Bool
  ntc   : Bool
  deriving DecidableEq, Repr

/-- The unpowered states (R16): the passive paths alone. -/
def PortPins.unpowered : PortPins := ⟨.highZ, .highZ, none, .highZ, .used, .passive, .passive, .passive, .passive, .passive, false, false⟩

/-- The reset states (R16): GATE's active pull-down works while VAUX is there. -/
def PortPins.reset (vaux : Bool) : PortPins :=
  ⟨.highZ, .highZ, none, .highZ, .used, if vaux then .off else .passive, .off, .low, .low, .off, false, false⟩

/-- The Rp level presented: the class level before an explicit contract; under one, 3.0 A, and 1.5 A while this port has a message to
send (R98). -/
def PortState.rpLevel (x : PortState) : Nat :=
  if x.pd.contract.isNone then x.cfg.rp
  else if x.prot.txq.isEmpty && x.prot.await.isNone then 2 else 1

/-- The terminations of CC1 and CC2 by the connection state (R89, R91, R95, R97, R100), outside the dowser's own frame, in which the
measured pin presents nothing (R113). -/
def PortState.ccDrive (x : PortState) : CcDrive × CcDrive :=
  let other : CcDrive := if x.tc.vconn then .vconn else .highZ
  let pair (d : CcDrive) : CcDrive × CcDrive := if x.tc.orient then (other, d) else (d, other)
  let (a, b) : CcDrive × CcDrive := match x.tc.st with
    | .unattSrc | .attwaitSrc => (.rp x.cfg.rp, .rp x.cfg.rp)
    | .unattSnk | .attwaitSnk => (.rd, .rd)
    | .attSrc => pair (.rp x.rpLevel)
    | .attSnk => pair .rd
    | .disabled | .errRecov | .selftest | .guardOff | .fault => (.highZ, .highZ)
  match x.grd.ccFrame with
  | none => (a, b)
  | some false => (.highZ, b)
  | some true => (a, .highZ)

/-- A falling edge as a pin: 0 is low throughout. -/
def pwmPin (on : Bool) (fall : Nat) : PwmPin := if on ∧ 0 < fall then .pulse fall else .low

/-- The CC pin that VCONN has left is discharged until it stands below 0.8 V, for at most 35 ms (R103). -/
def State.ccDischarge (s : State) (p : Port) : Option Bool :=
  match (s.port p).tc.dis with | some (two, till) => if s.dev.aon < till then some two else none | none => none

/-- The port's pins stand in their reset states though its die works: it is disabled or its CC PHY has failed, and its power path is down
(R17, R99). -/
def PortState.still (x : PortState) : Bool := x.quiet && !x.slc.open' && !x.slc.dsc && !x.stg.den

/-- VSB is absent: it has fallen below its power-on threshold, and has gone by now (R32; no row tells when, assumption 92). -/
def State.vsbAbsent (s : State) : Bool := !s.dev.vsb && Config.vsbGone s.dev.aon

/-- The pins of port p: in their reset states until the port is enabled, while it is disabled or in PHYX, while its die is lost (R17, R18, R99)
and while the device is in reset; in their unpowered states while VSB is absent (R32); in rest only the terminations are driven, and the
active pull-down holds GATE (R16). A pin that VCONN has left is discharged in each of these but the unpowered one (R103). DEN needs VAUX
(R30), and GATE is held at SRC by the pull-down without it (R215). The odd twin's own stage never runs, so its PWA, PWB and DEN stay low
(R237). -/
def State.portPins (s : State) (p : Port) : PortPins :=
  let x := s.port p
  let (a, b) := x.ccDrive
  let d := s.ccDischarge p
  let v := s.dev.vauxOk
  let run := x.stg.pwm && x.stg.den && v
  if s.vsbAbsent then PortPins.unpowered
  else if !x.live || s.lost p then { PortPins.reset v with dis := d }
  else match s.dev.phase with
  | .run =>
    if x.still then { PortPins.reset v with dis := d } else
    { cc1 := a, cc2 := b, dis := d, sense := .used, src := .used
      gate := if v && x.slc.passing then .on else .off
      dsc := if x.slc.dsc then .on else .off
      pwa := pwmPin run x.stg.fallA, pwb := pwmPin run x.stg.fallB
      den := if v && x.stg.den then .on else .off
      msn := x.cfg.dowser && !x.quiet, ntc := x.cfg.ntc && !x.quiet }
  | .rest | .wakePll | .wakeLinks | .wakeCal =>
    if x.still then { PortPins.reset v with dis := d } else { PortPins.reset v with cc1 := a, cc2 := b, dis := d, gate := .off }
  | _ => { PortPins.reset v with dis := d }

/-- The global pins. `holdSns` stands for INA_SNS, INB_SNS and HOLD_SNS; PFW_N and INTn_N: true is driven low, false released; `ref`: the
reference buffers of PREF_IN, REFC0 and REFC1; `xin` and `x32`: the oscillators; `mx`: MX_CLK, MX_DAT and MX_LAT, on while a frame is
shifted; `alBus`: AL_SCK and AL_IO0 to AL_IO3, on during a flash operation; `twm`: TWM matches its address, and `sclHeld`: it stretches SCL;
`aux`: TWA to TWC acknowledge theirs; a target releases both lines else. `txW` and `txE`: LKW and LKE transmit, with the half bits of the
frame on the line (R337); none: high impedance. `rxW`, `rxE`: the receivers. `jtag` stands for TCK, TMS and TDI; `tmode` for TRST_N and
TMODE. -/
structure DevPins where
  holdSns : InPin
  gaDrv   : OutPin
  gbDrv   : OutPin
  pfw     : Bool
  ref     : Bool
  xin     : Bool
  x32     : Bool
  rstN    : InPin
  int     : List Bool
  syncIn  : InPin
  syncOut : OutPin
  mx      : OutPin
  adr     : InPin
  twm     : Bool
  sclHeld : Bool
  aux     : Bool
  alBus   : OutPin
  alCs    : OutPin
  txW     : Option (List Bool)
  txE     : Option (List Bool)
  rx      : InPin
  jtag    : InPin
  tdo     : OutPin
  tmode   : InPin
  deriving DecidableEq, Repr

/-- Unpowered (R20, R24, R32). -/
def DevPins.unpowered : DevPins where
  holdSns := .highZ
  gaDrv := .passive
  gbDrv := .passive
  pfw := false
  ref := false
  xin := false
  x32 := false
  rstN := .highZ
  int := [false, false, false, false]
  syncIn := .highZ
  syncOut := .passive
  mx := .passive
  adr := .highZ
  twm := false
  sclHeld := false
  aux := false
  alBus := .passive
  alCs := .passive
  txW := none
  txE := none
  rx := .highZ
  jtag := .highZ
  tdo := .passive
  tmode := .highZ

/-- A driver on or off. -/
def drivePin (b : Bool) : OutPin := if b then .on else .off

/-- A gate drive of the input FETs: on, sinking for 20 µs from turn-off, then left to its passive path (R370). -/
def gateDrv (on : Bool) (off : Option Nat) (now : Nat) : OutPin :=
  if on then .on else match off with | some t => if now < t + 20 then .off else .passive | none => .passive

/-- The half bits on the line of a link port: nothing while it is isolated (R336), an idle line between frames (R337). -/
def LinkPort.wire (l : LinkPort) : Option (List Bool) :=
  if l.st = .isolated then none
  else match l.sending with
  | some f => some (manchester (linkBytes l.txSeq l.ver f))
  | none => some []

/-- A flash operation is in progress: the loader reads, a record is programmed or read back, or a block is erased. -/
def State.flashBusy (s : State) : Bool :=
  decide (s.dev.phase = .read) || (match s.mtr.job with | some j => j.snap | none => false) || (s.mtr.erase.isSome && !s.mtr.suspended)

/-- The global pins; unpowered while VSB is absent (R20 to R23, R27, R336): the supervisor's pins follow the supervisor in every phase, INTn_N is
released in reset, and the XREF oscillator stops in rest. -/
def State.devPins (s : State) : DevPins :=
  let out := decide (s.dev.phase = .reset)
  let awake := decide (s.dev.phase ≠ .rest) && !out
  if s.vsbAbsent then DevPins.unpowered else
  { holdSns := .used
    gaDrv := gateDrv s.sup.ga s.sup.gaOff s.sup.now
    gbDrv := gateDrv s.sup.gb s.sup.gbOff s.sup.now
    pfw := s.sup.pfw
    ref := true
    xin := decide (s.dev.phase ≠ .rest)
    x32 := true
    rstN := .pullUp
    int := (List.range 4).map fun n => !out && s.intLow n
    syncIn := if s.bankRuns && s.alm.cfg.syncTrack then .used else .ignored
    syncOut := drivePin (s.bankRuns && decide (0 < s.pwm.syncLeft))
    mx := drivePin (awake && s.mux.busy)
    adr := .pullDown
    twm := !out
    sclHeld := !s.twi.stretched.isEmpty
    aux := s.served && s.cisOn && decide (s.alm.cfg.auxEn ≠ 0)
    alBus := if awake && s.flashBusy then .on else .passive
    alCs := if out then .passive else if awake && s.flashBusy then .on else .off
    txW := if s.linkRuns then s.lnk.w.wire else none
    txE := if s.linkRuns then s.lnk.e.wire else none
    rx := if out then .highZ else .used
    jtag := .pullUp
    tdo := .passive
    tmode := .pullDown }

end Sys2Proof.Machine
end

