-- ==== Sys2Proof/Safety.lean ====
section
/-! DEFINITION. What the statements count as a sound state and a safe one, and the frames that they name: which parts of the state
a command may have changed. -/

namespace Sys2Proof.Machine

/-- Every memory of the block stands in its canonical form. -/
def State.memOk (s : State) : Bool := s.trough.wf && s.prog.wf && memWf zeroByte s.mtr.staging

/-- A sluice passes current only on a port without a fault state, since each of them takes the gate to SRC (R219). -/
def PortState.cutHolds (x : PortState) : Bool := !x.cnt.any || !x.slc.passing

/-- No port passes current in a fault state. -/
def State.safe (s : State) : Bool := s.ports.toList.all PortState.cutHolds

/-- The gate drives stand as the state of the input supervisor wants them (R365): in no state are both off. -/
def Sup.gatesRight (u : Sup) : Bool :=
  match u.st with
  | .normal => u.ga && !u.gb
  | .hoRun => u.gb
  | .reserve => !u.ga && u.gb
  | .rtnRun => u.ga

/-! ## Frames -/

/-- The pump on which a command runs an instruction, commits its stage unit or traps. -/
def onPump (c : Instr) : Option Pump :=
  match c with
  | .mov n | .mova n | .lea n | .add n | .sub n | .neg n | .abs n | .mul n | .mac n | .msu n | .shl n | .shr n | .asr n | .rnd n
  | .sat n | .min n | .max n | .clmp n | .and n | .or n | .xor n | .not n | .ceq n | .cne n | .clt n | .cle n | .cltu n | .cleu n
  | .bz n | .bnz n | .bra n | .jmp n | .call n | .ret n | .stg n | .stgb n | .endSample n | .trap n | .nop n | .illegalOpcode n
  | .runawayTrap n | .stageUnitCommit n => some n
  | _ => none

/-- The commands that may change a memory: the Pyrog's, the coefficient path's, the tally snapshot of a metering sample, the applying of an image, and
resets, written to their registers too. -/
def mayStore (c : Instr) : Bool :=
  (onPump c).isSome || match c with
  | .standbyPor | .supplyBelowThreshold _ | .rstNLow | .pllLockLost | .stopPhaseEnd | .portReset _ | .registerWrite _ _
  | .troughGrant _ | .meteringSample _ | .almanacApplyDone => true
  | _ => false

/-- The state of which a command may let something act that waited and changes a memory: a port reset that awaits the fall of DEN runs when a
stage stops (R394), and committed words reach their registers before the transaction that comes next (R383). -/
def storesLate (s : State) (c : Instr) : Bool :=
  match c with
  | .vauxLow | .fets _ | .dscf _ | .selftestResult _ _ | .gateRiseCheckFail _ | .stopTimeout _ | .periodStart _ _ =>
    s.ports.toList.any fun x => x.cnt.limpWait
  | .twmWrite _ _ | .twmSetIndex _ | .twmStreamedRead _ _ | .twmCountedRead _ _ _ | .twmCurrentRead _ | .pllsLocked
  | .restExitPllRelock => !s.twi.commits.isEmpty || !s.twi.stretched.isEmpty
  | _ => false

/-- Every port but p is as it was. -/
abbrev State.othersKept (s : State) (p : Port) (t : State) : Prop := ∀ q, q ≠ p → t.port q = s.port q

/-- Everything outside the ports, the yard and the count of free values is as it was. -/
abbrev State.globalsKept (s t : State) : Prop :=
  t.dev = s.dev ∧ t.clk = s.clk ∧ t.alm = s.alm ∧ t.sup = s.sup ∧ t.cis = s.cis ∧ t.lnk = s.lnk ∧ t.twi = s.twi ∧ t.mtr = s.mtr ∧
  t.pmp = s.pmp ∧ t.grd = s.grd ∧ t.pwm = s.pwm ∧ t.mux = s.mux ∧ t.trough = s.trough ∧ t.prog = s.prog ∧ t.pending = s.pending

/-- From s to t nothing but port p, the yard and the count of free values changed. -/
abbrev State.onlyPortYard (s : State) (p : Port) (t : State) : Prop := s.othersKept p t ∧ s.globalsKept t

/-- From s to t only port p, the port whose stage serves it, the yard and the count of free values changed. -/
abbrev State.onlyStageYard (s : State) (p : Port) (t : State) : Prop :=
  (∀ q, q ≠ p → q ≠ s.stageOf p → t.port q = s.port q) ∧ s.globalsKept t

/-- No deficit stands or is expected, and no shed goes on (R156, R166). -/
abbrev State.calm (s : State) : Prop := (s.cis.ahead : Int) ≤ s.free ∧ s.cis.shedding = false

/-- From s to t nothing but port p changed. -/
abbrev State.onlyPort (s : State) (p : Port) (t : State) : Prop := s.onlyPortYard p t ∧ t.hnd = s.hnd ∧ t.draws = s.draws

/-- The trough, program memory and the staging of the tally record are as they were, byte for byte. -/
def State.memKept (s t : State) : Prop :=
  (∀ a, t.trough.read a = s.trough.read a) ∧ (∀ a, t.prog.read a = s.prog.read a) ∧
  ∀ a, memRead zeroByte t.mtr.staging a = memRead zeroByte s.mtr.staging a

/-! ## A pump at its next instruction -/

/-- Pump n runs sample r, its next instruction is i, an o, and i does not wait for the stage unit (R296). -/
abbrev State.pyReady (s : State) (n : Pump) (o : PyOp) (r : PumpRun) (i : PyInst) : Prop :=
  s.pump n = some r ∧ s.prog.fetch r.pc = .ok i ∧ i.op = o ∧ mustWait i r = false

/-- The sample and the trough as the operands of i are evaluated: the pc is past the instruction. -/
abbrev State.pyStart (s : State) (r : PumpRun) (i : PyInst) : PyM := ⟨{ r with pc := i.next }, s.trough⟩

/-- The stack pointer stands inside the sample's stack (R270). -/
abbrev PyM.spIn (m : PyM) : Prop := m.run.stack ≤ m.run.g[15].toNat ∧ m.run.g[15].toNat ≤ slotAt m.run.port + 0x1000

/-- From s to t pump n has run an instruction that left m: nothing but the trough, pump n and the count of free values changed, and
the pump holds m's sample with its cycles counted. -/
def State.pyDone (s : State) (n : Pump) (m : PyM) (t : State) : Prop :=
  t.trough = m.trough ∧ t.ports = s.ports ∧ s.globalsKept { t with trough := s.trough, pmp := s.pmp } ∧ t.hnd = s.hnd ∧
  t.pmp = { s.pmp with pumps := t.pmp.pumps } ∧ (∀ k, k ≠ n → t.pump k = s.pump k) ∧
  ∃ u, t.pump n = some u ∧ u = { m.run with cycles := u.cycles, grants := 0, stage := u.stage } ∧
    m.run.cycles ≤ u.cycles ∧ u.stage.isSome = m.run.stage.isSome

/-- From s to t sample r of pump n trapped with a code: the pump is free, and the port shows the code and the address and is in
LIMP. -/
def State.pyTrapped (s : State) (n : Pump) (r : PumpRun) (code : Nat) (t : State) : Prop :=
  t.pump n = none ∧ (∀ k, k ≠ n → t.pump k = s.pump k) ∧ (t.port r.port).loop.trapCode = code ∧
  (t.port r.port).loop.trapAt = r.pc ∧ (t.port r.port).loop.limp = true

/-! ## A hand at its next event -/

/-- Hand h chooses event e of port p, which is attached on a running device outside the stop phase, and no port reset has made the event
void (R133, R136). -/
abbrev State.handOn (s : State) (h : Hand) (p : Port) (e : EvCode) : Prop :=
  s.bmcRuns p = true ∧ s.dev.stop = none ∧ (s.hnd.choose h).map (fun r => (r.port, r.ev, r.dead)) = some (some p, e, false)

/-- Hand h chooses a message event of port p, whose oldest received message is m; the port is no source in TYPEC_ONLY (R138). -/
abbrev State.msgOn (s : State) (h : Hand) (p : Port) (m : RxMsg) : Prop :=
  s.handOn h p .msg ∧ (s.port p).prot.rx.head? = some m ∧ (s.port p).pd.src ≠ .typecOnly

/-- Hand h chooses the expiry of timer i of port p, and its TAG is the context's (R132). -/
abbrev State.timerOn (s : State) (h : Hand) (p : Port) (i : TimerId) : Prop :=
  ∃ e ∈ (s.port p).pd.live, e.1 = i ∧ s.handOn h p (.timer i e.2)

/-- In t every port stands in its reset state; only the discharge of a pin that VCONN has left goes on there (R103). -/
abbrev State.portsReset (s t : State) : Prop :=
  (∀ p, t.port p = { State.reset.port p with tc := { (State.reset.port p).tc with dis := (t.port p).tc.dis } }) ∧
  ∀ p, (s.port p).tc.vconn = false → (s.port p).tc.dis = none → t.port p = State.reset.port p

/-- An entry of the SVID table. -/
def State.entryAt (s : State) (e : Nat) : SvidEntry := tab s.alm.cfg.svids e ⟨0#16, 0, 0, 0⟩

/-- The table has entry e, and the partner listed its SVID, now in l or before (R183). -/
def State.listed (s : State) (p : Port) (l : List (BitVec 16)) (e : Nat) : Bool :=
  decide (e < s.alm.cfg.svids.length) && ((s.port p).vdm.svids ++ l.filter fun x => decide (x ≠ 0#16)).contains (s.entryAt e).svid

/-- The last message that waits to be sent on port p. -/
def State.lastTx (s : State) (p : Port) : Option TxMsg := (s.port p).prot.txq.getLast?

/-- Timer i of port p is armed. -/
abbrev State.armed (s : State) (p : Port) (i : TimerId) : Prop := ∃ e ∈ (s.port p).pd.live, e.1 = i

/-! ## A link port that takes a frame -/

/-- The port on side d takes an acknowledged frame with header k that is no repeat (R340, R341). -/
abbrev State.frameOn (s : State) (d : LinkSide) (k : LinkHdr) : Prop :=
  s.linkRuns = true ∧ (s.side (LinkSide.isEast d)).isLinked = true ∧ (s.side (LinkSide.isEast d)).rxSeq ≠ some k.seq

/-- The port on side d takes a loan frame with header k: it is in UP with that version, which has been negotiated, and node IDs suffice
(R339, R341, R342, R346). -/
abbrev State.loanOn (s : State) (d : LinkSide) (k : LinkHdr) : Prop :=
  s.frameOn d k ∧ (s.side (LinkSide.isEast d)).st = .up ∧ k.ver.toNat = (s.side (LinkSide.isEast d)).ver ∧
  0 < (s.side (LinkSide.isEast d)).ver ∧ s.lnk.overId = false

/-- The last frame that waits to be sent on a side. -/
def State.lastFrame (s : State) (east : Bool) : Option LinkFrame := (s.side east).txq.getLast?

end Sys2Proof.Machine
end

