-- ==== Sys2Proof/Certificates/Slice0/Obligations.lean ====
section
/-! DEFINITION. The statements about the model, each a proposition for the provers. A statement whose hypotheses ask for a state holds
for every such state, reached by a run or not; the tests show for each statement states that meet its hypotheses. -/

open Sys2Proof Sys2Proof.Machine

/-- R91: the CC comparators on an unattached or attached port whose pins no dowser frame holds. A source that sees Rd on one pin waits for
its debounce, and with VBC below vSafe0V its hand commands the stage to 5 V.
R89, R91, R97, R99: toggling, the end of ERR_RECOV and of the self-test. A guard condition that stands leads to GUARD_OFF
(R116, R128), and a self-test that fails to PHYX.
R31, R102, R103: VCONN goes on overcurrent and with its supply, and the pin that carried it discharges; when the supply is back the
device only knows that it is there: R31 only forbids VCONN while the input is low, and that nothing else happens is the model's choice
(log entry A32). -/
def Obligations.ConnectionMoves : Prop :=
  (∀ (s : State) (p : Port) (cc1 cc2 : Nat), s.ccRuns p = true → (s.port p).grd.ccFrame = none →
     ((s.port p).tc.st = .unattSrc → (rdPin (s.port p).cfg.rp cc1 cc2).isSome = true →
       ∃ t, exec (.ccTerminationSeen p cc1 cc2) s = .next t ∧ s.onlyStageYard p t ∧ (t.port p).tc.st = .attwaitSrc ∧
         (t.port p).tc.cc1 = cc1 ∧ (t.port p).tc.cc2 = cc2 ∧ (t.port p).tc.pin = rdPin (s.port p).cfg.rp cc1 cc2 ∧
         (t.port p).pd.stgq = (s.port p).pd.stgq ++ (if (s.port p).slc.low0 then [.start 5000] else [])) ∧
     ((s.port p).tc.st = .unattSnk → (200 < cc1 ∧ cc2 ≤ 200 ∨ cc1 ≤ 200 ∧ 200 < cc2) →
       ∃ t, exec (.ccTerminationSeen p cc1 cc2) s = .next t ∧ s.onlyPortYard p t ∧ (t.port p).tc.st = .attwaitSnk ∧
         (t.port p).tc.prp = snkPin (max cc1 cc2)) ∧
     ((s.port p).tc.st = .attSnk →
       ∃ t, exec (.ccTerminationSeen p cc1 cc2) s = .next t ∧ s.onlyPort p t ∧ (t.port p).tc.st = .attSnk ∧
         (t.port p).tc.prp = snkPin (max cc1 cc2))) ∧
  (∀ (s : State) (p : Port),
     (s.ccRuns p = true → (s.port p).cfg.role = 2 → (s.port p).cfg.drp = true →
       ((s.port p).tc.st = .unattSrc →
         ∃ t, exec (.drpToggle p) s = .next t ∧ s.onlyPortYard p t ∧ (t.port p).tc.st = .unattSnk) ∧
       ((s.port p).tc.st = .unattSnk →
         ∃ t, exec (.drpToggle p) s = .next t ∧ s.onlyPortYard p t ∧ (t.port p).tc.st = .unattSrc)) ∧
     (s.works p = true → (s.port p).tc.st = .errRecov →
       ∃ t, exec (.errRecovEnd p) s = .next t ∧ s.onlyPortYard p t ∧
         (t.port p).tc.st = (if (s.port p).grd.off then .guardOff else unattOf (s.port p).cfg.role)) ∧
     (s.works p = true → (s.port p).tc.st = .selftest →
       (∃ t, exec (.selftestResult p true) s = .next t ∧ s.onlyPortYard p t ∧
         (t.port p).tc.st = (if (s.port p).grd.off then .guardOff else unattOf (s.port p).cfg.role)) ∧
       ((s.port p).cnt.phyx = false → ((s.port p).cnt.any = true → (s.port p).slc.passing = false) →
         (s.port (s.stageOf p)).cnt.limpWait = false →
         ∃ t, exec (.selftestResult p false) s = .next t ∧ (t.port p).tc.st = .fault ∧ (t.port p).cnt.phyx = true ∧
           (t.port p).slc.passing = false ∧ s.memKept t))) ∧
  (∀ (s : State) (p : Port) (d : WDie),
     (s.works p = true → (s.port p).tc.vconn = true →
       ∃ t, exec (.vconnOvercurrent p) s = .next t ∧ s.onlyPort p t ∧ (t.port p).tc.vconn = false ∧ (t.port p).tc.vcoc = true ∧
         (t.port p).tc.dis = ((s.port p).tc.vconnOff s.dev.aon).dis ∧
         (t.port p).tc.evt = setBit (s.port p).tc.evt 3) ∧
     (∃ t, exec (.vconnInLow d) s = .next t ∧ t = { s with dev := t.dev, ports := t.ports } ∧
       t.dev = (match d with | .w0 => { s.dev with vconnIn0 := false } | .w1 => { s.dev with vconnIn1 := false }) ∧
       ∀ q, t.port q = (if dieOf q = d ∧ (s.port q).tc.vconn = true then { s.port q with tc := (s.port q).tc.vconnOff s.dev.aon }
         else s.port q)) ∧
     exec (.vconnInRecover d) s = .next { s with
       dev := match d with | .w0 => { s.dev with vconnIn0 := true } | .w1 => { s.dev with vconnIn1 := true } })

/-- R92 to R95, R141, R170: an attach. A source attaches at the grant of the default charge of its Rp level, with VBC below vSafe0V and
Rd where it was when the attempt began; one whose VBC falls below vSafe0V only after tCCDebounce attaches at the period that finds it there. A
sink attaches with Rp on one pin and VBC above 4.0 V. The orientation names the pin that carries the termination. A
twin that its sibling holds waits, and so does a port for which FREE does not suffice, with PD_EVT.NOCRED. -/
def Obligations.Attach : Prop :=
  ∀ (s : State) (p : Port) (vbc : Nat), s.works p = true →
    ((s.port p).tc.st = .attwaitSrc → (s.port p).rdSame = true → vbc < 800 → s.dev.stop = none →
      (s.twinHeld p false = false → (defaultCharge (s.port p).cfg.rp : Int) ≤ s.free →
        (∃ t, exec (.tccdebounceExpiry p vbc) s = .next t ∧ (t.port p).tc.st = .attSrc ∧
          (t.port p).pd.src = .startup ∧ (t.port p).pd.charge = defaultCharge (s.port p).cfg.rp ∧
          (t.port p).tc.orient = (rdPin (s.port p).cfg.rp (s.port p).tc.cc1 (s.port p).tc.cc2 == some true) ∧
          (t.port p).pd.slcq.getLast? = some .on) ∧
        ((s.port p).tc.backv = true →
          ∃ t, exec (.backvRelease p vbc) s = .next t ∧ (t.port p).tc.st = .attSrc ∧ (t.port p).tc.backv = false)) ∧
      (s.twinHeld p false = true →
        ∃ t, exec (.tccdebounceExpiry p vbc) s = .next t ∧ s.onlyStageYard p t ∧ (t.port p).tc.st = .attwaitSrc ∧
          (t.port p).pd.holdTwin = true) ∧
      (s.twinHeld p false = false → s.free < (defaultCharge (s.port p).cfg.rp : Int) → (s.port p).pd.holdCred = false →
        ∃ t, exec (.tccdebounceExpiry p vbc) s = .next t ∧ (t.port p).tc.st = .attwaitSrc ∧ (t.port p).pd.holdCred = true ∧
          (t.port p).pd.evt = setBit (s.port p).pd.evt 4 ∧ ∀ q, q ≠ p → q ≠ s.stageOf p → t.port q = s.port q)) ∧
    (∀ (m : LoopConv), (s.port p).tc.st = .attwaitSrc → (s.port p).tc.ccDone = true → (s.port p).tc.backv = false →
      (s.port p).slc.low0 = false → (s.loopMeas p m).vbc < 800000 → (s.port p).rdSame = true → s.dev.stop = none →
      (s.port p).cfg.twin = false → (s.port p).cnt.limpWait = false → (defaultCharge (s.port p).cfg.rp : Int) ≤ s.free →
      ∃ t, exec (.periodStart p m) s = .next t ∧ (t.port p).tc.st = .attSrc ∧
        (t.port p).pd.charge = defaultCharge (s.port p).cfg.rp) ∧
    ((s.port p).tc.st = .attwaitSnk → (s.port p).tc.rpOne = true → 4000 < vbc →
      s.twinHeld p true = false →
      (∃ t, exec (.tccdebounceExpiry p vbc) s = .next t ∧ (t.port p).tc.st = .attSnk ∧ (t.port p).pd.snk = .startup ∧
        (t.port p).tc.orient = decide ((s.port p).tc.cc1 < (s.port p).tc.cc2) ∧ t.armed p .sinkWaitCap) ∧
      ((s.port p).tc.backv = true →
        ∃ t, exec (.sinkVbusDetect p vbc) s = .next t ∧ (t.port p).tc.st = .attSnk ∧ (t.port p).tc.backv = false))

/-- R91, R92, R94, R163, R164: what ends an attachment or an attach attempt. The contract and the credits go with it, and no memory
changes. The loss of VBUS ends nothing while the sink's own Hard Reset is under way (R94, R163). -/
def Obligations.Detach : Prop :=
  ∀ (s : State) (p : Port), s.works p = true →
    ((s.port p).tc.st = .attSrc →
      ∃ t, exec (.tsrcdisconnectExpiry p) s = .next t ∧ (t.port p).tc.st = .selftest ∧ (t.port p).pd.contract = none ∧
        (t.port p).pd.charge = 0 ∧ (t.port p).pd.pledge = 0 ∧ (t.port p).pd.stgq.getLast? = some .stop ∧
        (t.port p).prot = Prot.reset ∧ s.memKept t) ∧
    ((s.port p).tc.st = .attSnk → (s.port p).pd.snkHr = false →
      ∃ t, exec (.sinkVbusLost p) s = .next t ∧ (t.port p).tc.st = .selftest ∧ (t.port p).pd.contract = none ∧
        (t.port p).pd.inflow = 0 ∧ (t.port p).pd.stgq.getLast? = some .stop ∧ s.memKept t) ∧
    ((s.port p).tc.st = .attSnk → (s.port p).pd.snkHr = true → exec (.sinkVbusLost p) s = .next s) ∧
    ((s.port p).tc.st = .attwaitSrc ∨ (s.port p).tc.st = .attwaitSnk →
      ∃ t, exec (.tpddebounceExpiry p) s = .next t ∧ s.onlyPortYard p t ∧
        (t.port p).tc.st = (if (s.port p).grd.off then .guardOff else unattOf (s.port p).cfg.role))

/-- R196, R200, R210: the requests that a hand's step left for the sluice reach it in order. An on request ramps the sluice when all
that R196 asks for holds, outside the stop phase (R49); an off request discharges what conducts and ends the wait for a retry.
R30, R215: with VAUX low no sluice conducts and no stage of a live port runs; when VAUX returns, a port whose on request stands
ramps again. -/
def Obligations.SluiceRequests : Prop :=
  (∀ (s : State) (p : Port) (l : List SlcCmd) (n : Nat),
     ((s.port p).pd.slcq = .on :: l →
       (∃ t, exec (.sluiceOn p) s = .next t ∧ s.onlyPortYard p t ∧ (t.port p).slc.onReq = true ∧ (t.port p).pd.slcq = l ∧
         (t.port p).slc.sink = (s.port p).sinkRole) ∧
       (s.works p = true → (s.port p).slc.st = .off → s.dev.vauxOk = true → (s.port p).slc.offRun = false →
         (s.port p).cnt.any = false → s.dev.stop = none →
         (s.port p).sinkRole = true ∨
           (s.port (s.stageOf p)).stg.den = true ∧ in5V (s.port (s.stageOf p)).vbsMv = true →
         ∃ t, exec (.sluiceOn p) s = .next t ∧ (t.port p).slc.st = .ramp ∧ (t.port p).slc.phase = .precharge)) ∧
     ((s.port p).pd.slcq = .off :: l →
       ∃ t, exec (.sluiceOff p) s = .next t ∧ s.onlyPortYard p t ∧ (t.port p).slc.onReq = false ∧ (t.port p).pd.slcq = l ∧
         (t.port p).slc.st =
           (if (s.port p).slc.passing then .discharge else if (s.port p).slc.st = .retryWait then .off else (s.port p).slc.st)) ∧
     ((s.port p).pd.slcq = .ilim n :: l →
       ∃ t, exec (.ilimActChange p) s = .next t ∧ s.onlyPort p t ∧ (t.port p).slc = { (s.port p).slc with ilim := n } ∧
         (t.port p).pd.slcq = l)) ∧
  (∀ (s : State) (p : Port),
     (∃ t, exec .vauxLow s = .next t ∧ t.dev = { s.dev with vauxOk := false } ∧
       ((∀ q, (s.port q).cnt.limpWait = false) → s.memKept t) ∧
       ((s.port p).live = true → s.lost p = false →
         (t.port p).slc.passing = false ∧ (t.port (s.stageOf p)).stg.den = false)) ∧
     (∃ t, exec .vauxRecover s = .next t ∧ t.dev = { s.dev with vauxOk := true } ∧ s.memKept t ∧
       (s.works p = true → (s.port p).slc.st = .off → (s.port p).slc.onReq = true → (s.port p).slc.offRun = false →
         (s.port p).cnt.any = false → s.dev.stop = none →
         (s.port p).slc.sink = true ∨
           (s.port (s.stageOf p)).stg.den = true ∧ in5V (s.port (s.stageOf p)).vbsMv = true →
         (t.port p).slc.st = .ramp)))

/-- R197, R207: the three phases of the ramp in order, ON with its recorded duration, and the retry count's reset after 1 s of ON.
R203, R204: LIMIT, with the fault accumulator that rises in it by one for each µs and falls outside it by one for each 16 µs; it
returns to the state it was entered from. The accumulator is kept in sixteenths of a µs. -/
def Obligations.SluiceRampAndLimit : Prop :=
  (∀ (s : State) (p : Port) (dur : Nat),
     ((s.port p).slc.st = .ramp → (s.port p).slc.phase = .precharge →
       ∃ t, exec (.prechargeEnd p) s = .next t ∧ s.onlyPort p t ∧
         (t.port p).slc = { (s.port p).slc with phase := .slope, gck := true }) ∧
     ((s.port p).slc.st = .ramp → (s.port p).slc.phase = .slope →
       ∃ t, exec (.slopeEnd p) s = .next t ∧ s.onlyPort p t ∧ (t.port p).slc = { (s.port p).slc with phase := .enhance }) ∧
     ((s.port p).slc.st = .ramp → (s.port p).slc.phase = .enhance →
       ∃ t, exec (.rampOn p dur) s = .next t ∧ s.onlyPortYard p t ∧ (t.port p).slc.st = .on ∧
         (t.port p).slc.tRamp = min dur 0xFFFF ∧ (t.port p).slc.evt = setBit (s.port p).slc.evt 0) ∧
     ((s.port p).slc.st = .on →
       ∃ t, exec (.retryCountReset p) s = .next t ∧ s.onlyPort p t ∧ (t.port p).slc = { (s.port p).slc with retries := 0 })) ∧
  (∀ (s : State) (p : Port) (n : Nat),
     ((s.port p).slc.st = .ramp ∨ (s.port p).slc.st = .on →
       ∃ t, exec (.limitEntry p n) s = .next t ∧ s.onlyPortYard p t ∧ (t.port p).slc.st = .limit ∧
         (t.port p).slc.acc = (s.port p).slc.acc - n ∧ (t.port p).slc.evt = setBit (s.port p).slc.evt 1 ∧
         (∃ u, exec (.limitExit p n) t = .next u ∧ (u.port p).slc.st = (s.port p).slc.st)) ∧
     ((s.port p).slc.st = .limit →
       ∃ t, exec (.limitExit p n) s = .next t ∧ s.onlyPortYard p t ∧ (t.port p).slc.acc = (s.port p).slc.acc + 16 * n ∧
         (t.port p).slc.st = (if (s.port p).slc.limOn then .on else .ramp)))

/-- R199, R203 to R206: what trips the sluice, the cause it names and the event it sets; TRIPS counts. The accumulator reaches T_FAULT
within the 5 % of R203.
R196, R207, R210: the end of a trip starts the off-time, at least 64 ms · 2^RETRY and at least 63 times the stressed time; its end
leaves RETRY_WAIT; a discharge ends in OFF, and a port whose on request stands may ramp again at once.
R212, R216 to R220: the three damage checks of a port in no fault state: the state they enter, the discharge FET in it, and
the event, beside those that a ramp or a trip of the same microsecond, which has lost to the fault (R216), does not leave. -/
def Obligations.SluiceTripsAndFaults : Prop :=
  (∀ (s : State) (p : Port) (n : Nat),
     ((s.port p).slc.st = .limit → 19 * (16 * tFault (s.port p).cfg.faultT) ≤ 20 * ((s.port p).slc.acc + 16 * n) →
       ∃ t, exec (.faultTimerTrip p n) s = .next t ∧ s.onlyPortYard p t ∧ (t.port p).slc.st = .trip ∧ (t.port p).slc.tcause = 1 ∧
         (t.port p).slc.evt = setBit (s.port p).slc.evt 2 ∧ (t.port p).met.trips = min ((s.port p).met.trips + 1) 0xFFFFFFFF) ∧
     ((s.port p).slc.passing = true ∨ (s.port p).slc.st = .discharge →
       ∃ t, exec (.fastTrip p) s = .next t ∧ s.onlyPortYard p t ∧ (t.port p).slc.st = .trip ∧ (t.port p).slc.tcause = 2 ∧
         (t.port p).slc.evt = setBit (s.port p).slc.evt 3 ∧ (t.port p).met.trips = min ((s.port p).met.trips + 1) 0xFFFFFFFF) ∧
     ((s.port p).slc.passing = true →
       ∃ t, exec (.reverseCurrentTrip p) s = .next t ∧ s.onlyPortYard p t ∧ (t.port p).slc.st = .trip ∧
         (t.port p).slc.tcause = 3 ∧ (t.port p).slc.evt = setBit (s.port p).slc.evt 4) ∧
     ((s.port p).slc.st = .ramp ∨ (s.port p).slc.st = .limit ∧ (s.port p).slc.limOn = false →
       ∃ t, exec (.rampTimeout p) s = .next t ∧ s.onlyPortYard p t ∧ (t.port p).slc.st = .trip ∧ (t.port p).slc.tcause = 4 ∧
         (t.port p).slc.evt = setBit (s.port p).slc.evt 5)) ∧
  (∀ (s : State) (p : Port) (dur us : Nat),
     ((s.port p).slc.st = .trip → (s.port p).cnt.limp = false →
       ∃ t, exec (.tripDischarged p dur us) s = .next t ∧ s.onlyPortYard p t ∧
         (t.port p).slc.st = (if (s.port p).slc.offIn then .off else .retryWait) ∧ (t.port p).slc.dsc = false ∧
         (t.port p).slc.offRun = true ∧ (t.port p).slc.window = true ∧ 64 * 2 ^ (s.port p).cfg.retry ≤ (t.port p).slc.offt ∧
         63 * us / 1000 ≤ (t.port p).slc.offt) ∧
     ((s.port p).slc.st = .retryWait → (s.port p).slc.offRun = true →
       ∃ t, exec (.retryOffTimeEnd p) s = .next t ∧ s.onlyPortYard p t ∧ (t.port p).slc.offRun = false ∧
         ((t.port p).slc.st = .off ∨ (t.port p).slc.st = .ramp ∧ (s.port p).slc.onReq = true)) ∧
     ((s.port p).slc.st = .discharge → (s.port p).cnt.limp = false →
       ∃ t, exec (.dischargeDone p dur) s = .next t ∧ s.onlyPortYard p t ∧ (t.port p).slc.dsc = false ∧
         ((t.port p).slc.st = .off ∨ (t.port p).slc.st = .ramp ∧ (s.port p).slc.onReq = true))) ∧
  (∀ (s : State) (p : Port), (s.port p).cnt.any = false → (s.port (s.stageOf p)).cnt.limpWait = false →
     ((s.port p).slc.st = .ramp → (s.port p).slc.gck = false →
       ∃ t, exec (.gateRiseCheckFail p) s = .next t ∧ (t.port p).slc.st = .fault ∧ (t.port p).cnt.fetg = true ∧
         (t.port p).slc.dsc = (!(s.port p).slc.low0) ∧ (t.port p).slc.evt = setBit ((s.port p).undo s.dev.aon).slc.evt 8 ∧
         (t.port p).tc.st = .fault ∧ s.memKept t) ∧
     (s.fetsWatch p = true →
       ∃ t, exec (.fets p) s = .next t ∧ (t.port p).slc.st = .fault ∧ (t.port p).cnt.fets = true ∧
         (t.port p).slc.dsc = true ∧ (t.port p).slc.evt = setBit ((s.port p).undo s.dev.aon).slc.evt 9 ∧
         (t.port (s.stageOf p)).stg.den = false ∧ s.memKept t) ∧
     ((s.port p).slc.st = .discharge ∨ (s.port p).slc.st = .trip → (s.port p).slc.sink = false →
       ∃ t, exec (.dscf p) s = .next t ∧ (t.port p).slc.st = .fault ∧ (t.port p).cnt.dscf = true ∧ (t.port p).slc.dsc = false ∧
         (t.port p).slc.evt = setBit ((s.port p).undo s.dev.aon).slc.evt 10 ∧ (t.port p).pd.charge = 0 ∧ s.memKept t))

/-- R223, R233, R234, R238: the commands that a hand's step left for the stage, where no other came in the same period. A start raises
DEN with REF at the measured VBS, a stop sets the target to 0 V, and a new target replaces the old one.
R225, R233, R234, R236: at a period start REF moves toward the target by no more than the slew rate allows in the period; a stage that
does not fall below vSafe0V in time loses DEN; the trim stays inside ±(0.3 % of the target + 20 mV). -/
def Obligations.StageAndReference : Prop :=
  (∀ (s : State) (p : Port) (l : List StgCmd) (mv vbs vin : Nat), (s.port p).cfg.twin = false → (s.port p).prior = none →
     ((s.port p).pd.stgq = .start mv :: l → s.dev.vauxOk = true → (s.port p).cnt.fets = false → (s.port p).cnt.limp = false →
       s.lost p = false → (s.port p).stg.den = false → (s.port p).loop.auto = true ∨ (s.port p).loop.host = false →
       ∃ t, exec (.stageStart p vbs vin) s = .next t ∧ s.onlyPortYard p t ∧ t.hnd = s.hnd ∧ (t.port p).stg.den = true ∧
         (t.port p).stg.target = mv ∧ (t.port p).stg.ref = 1000 * (vbs : Int) ∧ (t.port p).stg.rev = (s.port p).sinkRole ∧
         (t.port p).loop.auto = true ∧ (t.port p).loop.preset = true ∧ (t.port p).pd.stgq = l) ∧
     ((s.port p).pd.stgq = .stop :: l → (s.port p).stg.limpPi = false →
       ∃ t, exec (.stageStop p) s = .next t ∧ s.onlyPort p t ∧ (t.port p).stg.target = 0 ∧ (t.port p).stg.hold = false ∧
         (t.port p).stg.stopping = ((s.port p).stg.den || (s.port p).stg.stopping) ∧ (t.port p).pd.stgq = l) ∧
     ((s.port p).pd.stgq = .target mv :: l → (s.port p).cnt.limp = false → (s.port p).pd.slcq.any isIlim = false →
       ∃ t, exec (.targetChange p) s = .next t ∧ s.onlyPort p t ∧ (t.port p).stg.target = mv ∧
         (t.port p).stg.ref = (s.port p).stg.ref ∧ (t.port p).pd.stgq = l)) ∧
  (∀ (s : State) (p : Port) (m : LoopConv), (s.port p).cfg.twin = false →
     (s.works p = true → (s.port p).stg.den = true → (s.port p).cnt.limp = false → (s.port p).stg.stopping = false →
       (s.port p).stg.wait = 0 → (s.port p).pd.holdTwin = false → ((s.port p).tc.st = .attwaitSrc → (s.port p).tc.ccDone = false) →
       ∃ t, exec (.periodStart p m) s = .next t ∧ s.onlyPortYard p t ∧ (t.port p).stg.meas = s.loopMeas p m ∧
         (t.port p).stg.den = true ∧
         (t.port p).stg.ref = slewRef (s.port p).cfg
           (periodLen (s.port p).cfg.fsw (s.port p).cfg.phase s.pwm.frame (s.port p).stg.k) (s.port p).stg.ref
           (s.port p).stg.target ∧
         (t.port p).stg.target = (s.port p).stg.target ∧ (t.port p).loop.trig = true) ∧
     ((s.port p).stg.den = true → (s.port p).stg.stopping = true ∨ (s.port p).stg.limpPi = true → (s.port p).stg.ref = 0 →
       (s.port p).cnt.limpWait = false →
       ∃ t, exec (.stopTimeout p) s = .next t ∧ (t.port p).stg.den = false ∧ (t.port p).stg.band = 3 ∧
         t.pwm.evt = setBit s.pwm.evt 2 ∧ s.othersKept p t) ∧
     ((s.port p).stg.den = true → (s.port p).stg.rev = false → (s.port p).slc.st = .on → (s.port p).stg.settled = true →
       (s.port p).loop.cc = false →
       ∃ t, exec (.refTrim p) s = .next t ∧ s.onlyPort p t ∧ (t.port p).stg = { (s.port p).stg with trim := (t.port p).stg.trim } ∧
         (t.port p).stg.trim.natAbs ≤ 3 * (s.port p).stg.target + 20000))

/-- R224, R229 to R232: the frame's start, with the correction that the edges brought, and the frame without any edge that leads from
ACQUIRE to FREERUN; an edge inside the window of TRACK, the edge that brings TRACK, and the misses that lead to FREERUN. Which expected
time an early edge belongs to, that the corrections of edges between two frame starts add up, and which edges a run of four counts are
the model's choice (log entry A97). -/
def Obligations.SyncTracker : Prop :=
  ∀ (s : State) (e : Int), s.bankRuns = true →
    (∃ t, exec .frameStart s = .next t ∧ t = { s with pwm := t.pwm, pmp := t.pmp, ports := t.ports } ∧
      t.pwm.frame = clampFrame ((s.pwm.est : Int) + s.pwm.corr) ∧ t.pwm.corr = 0 ∧ t.pwm.est = s.pwm.est ∧
      t.pwm.syncLeft = (if s.alm.cfg.syncDrive then 100 else 0) ∧ t.pmp.busyCyc = 0 ∧
      (∀ p, t.port p = { s.port p with stg := { (s.port p).stg with k := 0 } }) ∧
      (s.pwm.sync = .acquire → s.pwm.anySeen = false → 7 ≤ s.pwm.none' →
        t.pwm.sync = .freerun ∧ t.pwm.evt = setBit s.pwm.evt 1)) ∧
    (s.pwm.sync = .track → 100 * e.natAbs ≤ 3 * s.pwm.est →
      0 ≤ e ∧ s.pwm.window = true ∨ e < 0 ∧ s.pwm.nextSeen = false →
      ∃ t, exec (.syncEdge e) s = .next t ∧ t = { s with pwm := t.pwm } ∧ t.pwm.sync = .track ∧ t.pwm.misses = 0 ∧
        t.pwm.est = clampFrame ((s.pwm.est : Int) + e / 256) ∧ t.pwm.corr = s.pwm.corr + e / 16) ∧
    (s.pwm.sync = .acquire ∨ s.pwm.sync = .freerun → 100 * (wrapHalf e s.pwm.est).natAbs ≤ 3 * s.pwm.est →
      4 ≤ s.pwm.run (wrapHalf e s.pwm.est) →
      ∃ t, exec (.syncEdge e) s = .next t ∧ t = { s with pwm := t.pwm } ∧ t.pwm.sync = .track ∧
        t.pwm.evt = setBit s.pwm.evt 0) ∧
    (s.pwm.sync = .track → s.pwm.window = true →
      ∃ t, exec .syncWindowMiss s = .next t ∧ t = { s with pwm := t.pwm } ∧ t.pwm.est = s.pwm.est ∧ t.pwm.window = false ∧
        t.pwm.sync = (if 7 ≤ s.pwm.misses then .freerun else .track))

/-- R276, R277, R279, R282: no bit of an encoding is dropped. Whatever follows it in program memory, the encoding of a well-formed
instruction decodes to that instruction with every field and every operand. -/
def Obligations.PyrogDecodeEncode : Prop :=
  ∀ (i : PyInst) (l : List Half), i.wf = true → decodeInst i.addr (encodeInst i ++ l) = .ok i

/-- R283, R284, R288, R289: the instructions with two sources and a destination, in every operand form: the sources are read in
order, the result is brought into the type and written, and nothing else changes but what the operands auto-modify.
R283, R284, R289: the instructions with one source and a destination. -/
def Obligations.PyrogArithmetic : Prop :=
  (∀ (s : State) (n : Pump) (r : PumpRun) (i : PyInst) (a b : Word) (m1 m2 m3 : PyM) (c : Instr) (o : PyOp) (v : Word),
     (c, o, v) ∈ [(Instr.add n, PyOp.add, pyFit i.ty i.sat (pyVal i.ty a + pyVal i.ty b)),
       (.sub n, .sub, pyFit i.ty i.sat (pyVal i.ty a - pyVal i.ty b)),
       (.min n, .min, pyFit i.ty false (min (pyVal i.ty a) (pyVal i.ty b))),
       (.max n, .max, pyFit i.ty false (max (pyVal i.ty a) (pyVal i.ty b))),
       (.and n, .and, a &&& b), (.or n, .or, a ||| b), (.xor n, .xor, a ^^^ b)] →
     s.pyReady n o r i → (s.pyStart r i).src i.ty (i.opd 0) = .ok (a, m1) → m1.src i.ty (i.opd 1) = .ok (b, m2) →
     m2.dst i.ty (i.opd 2) v = .ok m3 → m3.spIn →
     ∃ t, exec c s = .next t ∧ s.pyDone n m3 t) ∧
  (∀ (s : State) (n : Pump) (r : PumpRun) (i : PyInst) (a : Word) (m1 m2 : PyM) (c : Instr) (o : PyOp) (v : Word),
     (c, o, v) ∈ [(Instr.mov n, PyOp.mov, a), (.neg n, .neg, pyFit i.ty i.sat (-pyVal i.ty a)),
       (.abs n, .abs, pyFit i.ty i.sat (pyVal i.ty a).natAbs), (.not n, .not, lowBits i.ty (~~~a))] →
     s.pyReady n o r i → (s.pyStart r i).src i.ty (i.opd 0) = .ok (a, m1) → m1.dst i.ty (i.opd 1) v = .ok m2 →
     m2.spIn →
     ∃ t, exec c s = .next t ∧ s.pyDone n m2 t)

/-- R286, R290: the shifts, whose count is read as U32 and is at most the width, and the compares, whose destination is a register
named directly that takes 1 or 0; any other destination, and g14, traps. -/
def Obligations.PyrogShiftsAndCompares : Prop :=
  ∀ (s : State) (n : Pump) (r : PumpRun) (i : PyInst) (a b : Word) (m1 m2 m3 : PyM) (c : Instr) (o : PyOp) (v : Word) (q : Bool)
      (d : Fin 16),
    ((c, o, v) ∈ [(Instr.shl n, PyOp.shl, pyFit i.ty i.sat (pyVal i.ty a * (2 ^ min b.toNat i.ty.bits : Nat))),
      (.shr n, .shr, lowBits i.ty a >>> min b.toNat i.ty.bits),
      (.asr n, .asr, pyFit i.ty false (pyRound i.rnd (min b.toNat i.ty.bits) (pyVal i.ty a)))] →
      s.pyReady n o r i → (s.pyStart r i).src i.ty (i.opd 0) = .ok (a, m1) → m1.src .u32 (i.opd 1) = .ok (b, m2) →
      m2.dst i.ty (i.opd 2) v = .ok m3 → m3.spIn →
      ∃ t, exec c s = .next t ∧ s.pyDone n m3 t) ∧
    ((c, o, q) ∈ [(Instr.ceq n, PyOp.ceq, lowBits i.ty a == lowBits i.ty b), (.cne n, .cne, lowBits i.ty a != lowBits i.ty b),
      (.clt n, .clt, decide (pyVal i.ty a < pyVal i.ty b)), (.cle n, .cle, decide (pyVal i.ty a ≤ pyVal i.ty b)),
      (.cltu n, .cltu, decide ((lowBits i.ty a).toNat < (lowBits i.ty b).toNat)),
      (.cleu n, .cleu, decide ((lowBits i.ty a).toNat ≤ (lowBits i.ty b).toNat))] →
      s.pyReady n o r i → (s.pyStart r i).src i.ty (i.opd 0) = .ok (a, m1) → m1.src i.ty (i.opd 1) = .ok (b, m2) →
      (i.opd 2 = .reg d → d.val ≠ 14 → m3 = { m2 with run := { m2.run with g := m2.run.g.set d (if q then 1#32 else 0#32) } } →
        m3.spIn → ∃ t, exec c s = .next t ∧ s.pyDone n m3 t) ∧
      ((i.opd 2).direct = none ∨ i.opd 2 = .reg 14 → ∃ t, exec c s = .next t ∧ s.pyTrapped n r 0x02 t))

/-- R283, R285, R287: products into a type or a whole accumulator, and the instructions that read or write whole accumulators.
R283, R288: LEA writes its operand's address and touches no byte there; CLMP clamps between the pair that lies at its second
operand. -/
def Obligations.PyrogAccumulators : Prop :=
  (∀ (s : State) (n : Pump) (r : PumpRun) (i : PyInst) (a b : Word) (m1 m2 m3 : PyM) (j k : Fin 4) (c : Instr) (o : PyOp)
       (x : Acc),
     (s.pyStart r i).spIn →
     ((c, o, x) ∈ [(Instr.mul n, PyOp.mul, BitVec.ofInt 72 (accProduct i.ty (pyVal i.ty a * pyVal i.ty b))),
         (.mac n, .mac, accFit i.sat (m2.run.acc[k].toInt + accProduct i.ty (pyVal i.ty a * pyVal i.ty b))),
         (.msu n, .msu, accFit i.sat (m2.run.acc[k].toInt - accProduct i.ty (pyVal i.ty a * pyVal i.ty b)))] →
       s.pyReady n o r i → (s.pyStart r i).src i.ty (i.opd 0) = .ok (a, m1) → m1.src i.ty (i.opd 1) = .ok (b, m2) →
       i.opd 2 = .acc k 0 → m2.spIn →
       ∃ t, exec c s = .next t ∧ s.pyDone n { m2 with run := { m2.run with acc := m2.run.acc.set k x } } t) ∧
     (s.pyReady n .mul r i → (s.pyStart r i).src i.ty (i.opd 0) = .ok (a, m1) → m1.src i.ty (i.opd 1) = .ok (b, m2) →
       (i.opd 2).whole = none →
       m2.dst i.ty (i.opd 2) (pyFit i.ty i.sat (pyRound i.rnd (mulDrop i.ty) (pyVal i.ty a * pyVal i.ty b))) = .ok m3 →
       m3.spIn →
       ∃ t, exec (.mul n) s = .next t ∧ s.pyDone n m3 t) ∧
     (s.pyReady n .mova r i → i.opd 0 = .acc j 0 → i.opd 1 = .acc k 0 →
       ∃ t, exec (.mova n) s = .next t ∧
         s.pyDone n ⟨{ r with pc := i.next, acc := r.acc.set k r.acc[j] }, s.trough⟩ t) ∧
     (s.pyReady n .sat r i → i.opd 0 = .acc j 0 → i.opd 1 = .acc k 0 →
       ∃ t, exec (.sat n) s = .next t ∧
         s.pyDone n ⟨{ r with
           pc := i.next
           acc := r.acc.set k (BitVec.ofInt 72 (clampI r.acc[j].toInt (satLo i.ty) (satHi i.ty))) }, s.trough⟩ t) ∧
     (s.pyReady n .rnd r i → i.opd 0 = .acc j 0 →
       (s.pyStart r i).dst i.ty (i.opd 1) (pyFit i.ty i.sat (pyRound i.rnd (rndDrop i.ty) r.acc[j].toInt)) = .ok m3 →
       m3.spIn →
       ∃ t, exec (.rnd n) s = .next t ∧ s.pyDone n m3 t)) ∧
  (∀ (s : State) (n : Pump) (r : PumpRun) (i : PyInst) (a : Nat) (x : Word) (m1 m2 m3 : PyM),
     m3.spIn →
     (s.pyReady n .lea r i → (s.pyStart r i).memOp i.ty.size (i.opd 0) = .ok (a, m1) →
       m1.dst .u32 (i.opd 1) (BitVec.ofNat 32 a) = .ok m3 →
       ∃ t, exec (.lea n) s = .next t ∧ s.pyDone n m3 t) ∧
     (s.pyReady n .clmp r i → (s.pyStart r i).src i.ty (i.opd 0) = .ok (x, m1) → m1.memOp i.ty.size (i.opd 1) = .ok (a, m2) →
       m2.check a i.ty.size i.ty.size = .ok () → m2.check (a + i.ty.size) i.ty.size i.ty.size = .ok () →
       (m2.costPair a i.ty.size).dst i.ty (i.opd 2) (pyFit i.ty false (clampI (pyVal i.ty x)
         (pyVal i.ty (BitVec.ofNat 32 (beNat (m2.bytes a i.ty.size))))
         (pyVal i.ty (BitVec.ofNat 32 (beNat (m2.bytes (a + i.ty.size) i.ty.size)))))) = .ok m3 →
       ∃ t, exec (.clmp n) s = .next t ∧ s.pyDone n m3 t))

/-- R291, R292: branches, jumps, calls and returns. A branch that is not taken goes on at the next instruction; a taken one at the
next instruction's address plus twice the displacement. CALL pushes the next instruction's address, and RET takes it back. -/
def Obligations.PyrogFlow : Prop :=
  ∀ (s : State) (n : Pump) (r : PumpRun) (i : PyInst) (g : Fin 16) (d : BitVec 12) (u : Word) (m1 m2 : PyM) (c : Instr)
      (o : PyOp) (q : Bool),
    (s.pyStart r i).spIn →
    ((c, o, q) ∈ [(Instr.bz n, PyOp.bz, decide (r.g[g] = 0#32)), (.bnz n, .bnz, decide (r.g[g] ≠ 0#32))] →
      s.pyReady n o r i → i.opd 0 = .reg g → i.opd 1 = .immS d →
      0 ≤ (i.next : Int) + 2 * d.toInt → (i.next : Int) + 2 * d.toInt ≤ 131070 → i.next % 2 = 0 →
      ∃ t, exec c s = .next t ∧
        s.pyDone n ⟨{ r with pc := if q then ((i.next : Int) + 2 * d.toInt).toNat else i.next }, s.trough⟩ t) ∧
    (s.pyReady n .bra r i → i.opd 0 = .immS d → 0 ≤ (i.next : Int) + 2 * d.toInt → (i.next : Int) + 2 * d.toInt ≤ 131070 →
      i.next % 2 = 0 →
      ∃ t, exec (.bra n) s = .next t ∧ s.pyDone n ⟨{ r with pc := ((i.next : Int) + 2 * d.toInt).toNat }, s.trough⟩ t) ∧
    (s.pyReady n .jmp r i → (s.pyStart r i).src .u32 (i.opd 0) = .ok (u, m1) → u.toNat ≤ 131070 → u.toNat % 2 = 0 →
      m1.spIn →
      ∃ t, exec (.jmp n) s = .next t ∧ s.pyDone n { m1 with run := { m1.run with pc := u.toNat } } t) ∧
    (s.pyReady n .call r i → i.opd 0 = .immS d → 0 ≤ (i.next : Int) + 2 * d.toInt → (i.next : Int) + 2 * d.toInt ≤ 131070 →
      i.next % 2 = 0 → (s.pyStart r i).push (BitVec.ofNat 32 i.next) = .ok m1 → m1.spIn →
      ∃ t, exec (.call n) s = .next t ∧
        s.pyDone n { m1 with run := { m1.run with pc := ((i.next : Int) + 2 * d.toInt).toNat } } t) ∧
    (s.pyReady n .ret r i → (s.pyStart r i).pop = .ok (u, m2) → u.toNat ≤ 131070 → u.toNat % 2 = 0 →
      m2.spIn →
      ∃ t, exec (.ret n) s = .next t ∧ s.pyDone n { m2 with run := { m2.run with pc := u.toNat } } t)

/-- R294 to R296: STG and STGB compute y, s1 and s2 from the record at c, the pair at s and the value at v, leave them in the stage
unit and change no byte of the trough; the commit, at the end of the busy time or when an instruction asks for what the unit holds, puts
them in their places. STGB's record has five mantissas and the exponent EXP of −24 to 7, each coefficient its mantissa · 2^(EXP − 23),
here in units of 2^-47. -/
def Obligations.PyrogStageUnit : Prop :=
  ∀ (s : State) (n : Pump) (r : PumpRun) (i : PyInst) (m : PyM) (j : StageJob) (k ca sa : Nat) (vp : PyPlace) (x : Word)
      (m0 m1 m2 m3 m4 : PyM), m.spIn →
    (s.pyReady n .stg r i → pyStage s.draws false i (s.pyStart r i) = .ok m →
      ∃ t, exec (.stg n) s = .next t ∧ s.pyDone n m t ∧ t.trough = s.trough) ∧
    (s.pyReady n .stgb r i → pyStage s.draws true i (s.pyStart r i) = .ok m →
      ∃ t, exec (.stgb n) s = .next t ∧ s.pyDone n m t ∧ t.trough = s.trough) ∧
    (pyStage k false i m0 = .ok m →
      m0.memOp 24 (i.opd 0) = .ok (ca, m1) → m1.memOp 8 (i.opd 1) = .ok (sa, m2) → m2.eval 4 .f32 (i.opd 2) = .ok (vp, m3) →
      m3.read .f32 vp = .ok (x, m4) →
      ∃ b, m.run.stage = some b ∧ b.sAddr = sa ∧ b.v = vp ∧ m.run.g = m3.run.g ∧
        (b.y, b.s1, b.s2) = stageStep i.rnd 31 (shortCoefs (m3.bytes ca 24)) x.toInt
          (BitVec.ofNat 32 (beNat (m3.bytes sa 4))).toInt (BitVec.ofNat 32 (beNat (m3.bytes (sa + 4) 4))).toInt) ∧
    (pyStage k true i m0 = .ok m →
      m0.memOp 20 (i.opd 0) = .ok (ca, m1) → m1.memOp 8 (i.opd 1) = .ok (sa, m2) → m2.eval 4 .f32 (i.opd 2) = .ok (vp, m3) →
      m3.read .f32 vp = .ok (x, m4) →
      -24 ≤ longExp (m3.bytes ca 20) ∧ longExp (m3.bytes ca 20) ≤ 7 ∧
      ∃ b, m.run.stage = some b ∧ b.sAddr = sa ∧ b.v = vp ∧ m.run.g = m3.run.g ∧
        (b.y, b.s1, b.s2) = stageStep i.rnd 47
          ((longCoefs (m3.bytes ca 20)).map fun q => q * ((2 ^ (longExp (m3.bytes ca 20) + 24).toNat : Nat) : Int)) x.toInt
          (BitVec.ofNat 32 (beNat (m3.bytes sa 4))).toInt (BitVec.ofNat 32 (beNat (m3.bytes (sa + 4) 4))).toInt) ∧
    (s.pump n = some r → r.stage = some j → j.left = 0 ∨ (match s.prog.fetch r.pc with | .ok q => mustWait q r | _ => false) = true →
      ∃ t, exec (.stageUnitCommit n) s = .next t ∧
        t = { s with trough := (PyM.commitStage ⟨r, s.trough⟩).trough, pmp := { s.pmp with pumps := t.pmp.pumps } } ∧
        ∃ u, t.pump n = some u ∧ u.stage = none ∧ (∀ g, j.v = .reg g → u.g = r.g.set g j.y) ∧
          (j.v = .io 16 → u.mv = j.y))

/-- R252, R291, R299: what traps: TRAP #n, an instruction whose operand cannot be read (here of ADD), a fetch that gives no
instruction, and a sample that still runs after 4,096 cycles. The sample ends, its trap code and address are shown, and the port's
loop slot goes to LIMP.
R245, R251, R256, R293: NOP, and an END in time: the pump is free, the state line that the sample wrote is stored, and what the
sample hands over is the lower of M_V and M_I inside its bounds. An END after the deadline hands nothing over (R251).
R296: an instruction that must wait for the stage unit does nothing until the unit has put its result in its places, in every form.
R265: the END of a sample of the ROM program hands over and stores what the law gives: MV and MI, and of the two integrators the inactive
one tracks the committed ratio. That the law is exact, but for the rounding of each of its lines, is the model's reading (log entry A5), and so
is the trap of a record whose EXP is out of range. -/
def Obligations.PyrogSampleEnds : Prop :=
  (∀ (s : State) (n : Pump) (r : PumpRun) (i : PyInst) (v : BitVec 12) (code : Nat),
     (s.pyReady n .trap r i → i.opd 0 = .immS v → v.toNat < 128 →
       ∃ t, exec (.trap n) s = .next t ∧ s.pyTrapped n r (0x80 + v.toNat) t) ∧
     (s.pyReady n .add r i → (s.pyStart r i).src i.ty (i.opd 0) = .error code →
       ∃ t, exec (.add n) s = .next t ∧ s.pyTrapped n r code t) ∧
     (s.pump n = some r → s.prog.fetch r.pc = .bad code →
       ∃ t, exec (.illegalOpcode n) s = .next t ∧ s.pyTrapped n r code t) ∧
     (s.pump n = some r → 4096 ≤ r.cycles →
       ∃ t, exec (.runawayTrap n) s = .next t ∧ s.pyTrapped n r 0x0A t)) ∧
  (∀ (s : State) (n : Pump) (r : PumpRun) (i : PyInst),
     (s.pyReady n .nop r i → (s.pyStart r i).spIn →
       ∃ t, exec (.nop n) s = .next t ∧ s.pyDone n ⟨{ r with pc := i.next }, s.trough⟩ t) ∧
     (s.pyReady n .endS r i → r.preset = false → r.late = false → (s.port r.port).loop.limp = false →
       ∃ t, exec (.endSample n) s = .next t ∧ t.pump n = none ∧ s.othersKept r.port t ∧
         t.trough = (if r.stWritten then s.trough.write (slotAt r.port + 0x400) r.stLn else s.trough) ∧
         (t.port r.port).loop.commit = some (BitVec.ofNat 32 (commitM (t.mLo r.port) (t.mHi r.port)
           (mMax (s.port r.port).cfg.fsw) r.mv r.mi r.io[8])) ∧
         (t.port r.port).loop.user = r.user ∧ (t.port r.port).loop.orun = 0) ∧
     (s.pyReady n .endS r i → r.preset = true → r.late = false → (s.port r.port).loop.limp = false →
       ∃ t, exec (.endSample n) s = .next t ∧ t.pump n = none ∧ (t.port r.port).loop.preset = false ∧
         (t.port r.port).loop.commit = (s.port r.port).loop.commit) ∧
     (s.pyReady n .endS r i → r.late = true →
       ∃ t, exec (.endSample n) s = .next t ∧ t.pump n = none ∧ s.othersKept r.port t ∧
         t.trough = (if r.stWritten then s.trough.write (slotAt r.port + 0x400) r.stLn else s.trough) ∧
         (t.port r.port).loop.commit = (s.port r.port).loop.commit ∧ (t.port r.port).loop.orun = (s.port r.port).loop.orun ∧
         (t.port r.port).loop.user = (s.port r.port).loop.user ∧ (t.port r.port).loop.running = false)) ∧
  (∀ (s : State) (n : Pump) (r : PumpRun) (i : PyInst) (c : Instr), s.pump n = some r → s.prog.fetch r.pc = .ok i →
     mustWait i r = true → onPump c = some n → c ≠ .runawayTrap n → c ≠ .stageUnitCommit n → exec c s = .next s) ∧
  (∀ (s : State) (n : Pump) (r x : PumpRun), s.pump n = some r → s.prog.fetch r.pc = .rom →
     x = PyM.romSample ⟨r, s.trough⟩ (s.port r.port).cfg.form →
     (PyM.romBad ⟨r, s.trough⟩ (s.port r.port).cfg.form = false → r.preset = false → r.late = false →
       (s.port r.port).loop.limp = false →
       ∃ t, exec (.endSample n) s = .next t ∧ t.pump n = none ∧ s.othersKept r.port t ∧
         t.trough = s.trough.write (slotAt r.port + 0x400) x.stLn ∧
         (t.port r.port).loop.commit = some (BitVec.ofNat 32 (commitM (t.mLo r.port) (t.mHi r.port)
           (mMax (s.port r.port).cfg.fsw) x.mv x.mi r.io[8]))) ∧
     (PyM.romBad ⟨r, s.trough⟩ (s.port r.port).cfg.form = true →
       ∃ t, exec (.endSample n) s = .next t ∧ t.pump n = none ∧ (t.port r.port).loop.trapCode = 0x09 ∧
         (t.port r.port).loop.limp = true ∧ (t.port r.port).loop.commit = (s.port r.port).loop.commit)) ∧
  (∀ (m : PyM) (long : Bool) (w : RomTerms) (xv xi k : Int), m.run.stLn.length = 256 →
     w = m.romTerms long (fun j => (m.slotWord (0x408 + 8 * j), m.slotWord (0x40C + 8 * j))) →
     xv = clampI ((m.slotWord 0x400).toInt + w.dv) (m.slotWord 0x1C).toInt (m.slotWord 0x20).toInt →
     xi = clampI ((m.slotWord 0x404).toInt + w.di) (m.slotWord 0x24).toInt (m.slotWord 0x28).toInt →
     k = clampI (min (w.pv + xv) (w.pi + xi)) (m.slotWord 0x2C).toNat (m.slotWord 0x30).toNat →
     (m.romSample long).mv = romOut (w.pv + xv) ∧ (m.romSample long).mi = romOut (w.pi + xi) ∧
     (m.romSample long).stLn.take 8 =
       (if w.pi + xi < w.pv + xv then
         wordBytes (BitVec.ofInt 32 (clampI (k - w.pv) (m.slotWord 0x1C).toInt (m.slotWord 0x20).toInt)) ++
           wordBytes (BitVec.ofInt 32 xi)
        else wordBytes (BitVec.ofInt 32 xv) ++
          wordBytes (BitVec.ofInt 32 (clampI (k - w.pi) (m.slotWord 0x24).toInt (m.slotWord 0x28).toInt))))

/-- R270, R272, R281: what an operand's write leaves alone: writing a register changes that register only and g14 cannot be written;
writing memory changes the operand's bytes only; writing an accumulator part changes that accumulator only. -/
def Obligations.PyrogWriteFrame : Prop :=
  ∀ (m m' : PyM) (ty : PyTy) (w : Word) (p : PyPlace), m.write ty w p = .ok m' →
    (∀ g, p = .reg g → g.val ≠ 14 ∧ m'.trough = m.trough ∧ m'.run = { m.run with g := m.run.g.set g (upOut ty w) }) ∧
    (∀ a, p = .mem a → m'.run.g = m.run.g ∧ m'.run.acc = m.run.acc ∧
      ∀ b, b < a ∨ a + ty.size ≤ b → m'.byte b = m.byte b) ∧
    (∀ k part, p = .acc k part → part ≠ 0 ∧ m'.trough = m.trough ∧
      m'.run = { m.run with acc := m.run.acc.set k (accPut m.run.acc[k] part (upOut ty w)) }) ∧
    (∀ v, p ≠ .imm v)

/-- R246 to R251: of several pumps that are free for a stolen sample in one cycle, the command of one that R248 puts behind another takes
nothing. A trigger makes a sample ready unless a MANUAL write waits or the trigger is skipped; a free pump takes a sample of
its home ports before it steals one, steals only with 60 cycles of its own ahead, and loads the pump as R246 says.
R260, R263: a pending PRESET is dispatched once the window writes before it have been accepted and the header names the form; a
header that does not sends the slot back to MANUAL with BADCOEF.
R249, R251, R252: at the commit deadline a running sample is late and the next trigger is skipped, and a sample not yet started is
dropped; the overrun counts, and the eighth in a row is LIMP with cause 1. That the command of a beaten pump does nothing is the model's
choice (log entry A49), and so is the target 0 V at the entry to LIMP (A56). -/
def Obligations.SamplesOnPumps : Prop :=
  (∀ (s : State) (n : Pump) (p : Port) (tie : Bool) (wait : Nat) (c : FreeCycle),
     ((s.port p).loop.trig = true → (s.port p).loop.manPend = false → (s.port p).loop.auto = true →
       ∃ t, exec (.sampleTrigger p) s = .next t ∧ s.onlyPort p t ∧ (t.port p).loop.trig = false ∧
         (t.port p).loop.ready = (if (s.port p).loop.skip then (s.port p).loop.ready else true) ∧ (t.port p).loop.skip = false) ∧
     ((s.port p).loop.trig = true → (s.port p).loop.manPend = true →
       ∃ t, exec (.sampleTrigger p) s = .next t ∧ s.onlyPort p t ∧ (t.port p).loop.auto = false ∧ (t.port p).loop.host = true ∧
         (t.port p).loop.mduty = BitVec.ofNat 32 (s.port p).stg.m) ∧
     ((s.port p).loop.ready = true →
       ∃ t, exec (.stealThreshold p) s = .next t ∧ s.onlyPort p t ∧ (t.port p).loop.reach = min ((s.port p).loop.reach + 1) 12) ∧
     (s.pump n = none → s.pickFor n c.ahead = some (p, tie) → (s.port p).loop.preset = false → s.beaten p n c.others = false →
       ∃ t, exec (.sampleDispatch n wait c) s = .next t ∧ t.pump n = some (s.newRun p false) ∧
         (t.port p).loop.ready = false ∧ (t.port p).loop.running = true ∧ (t.port p).loop.wait = satN 16 wait ∧
         t.trough = s.trough ∧ s.othersKept p t) ∧
     (s.pickFor n c.ahead = some (p, tie) → s.beaten p n c.others = true →
       exec (.sampleDispatch n wait c) s = .next s) ∧
     (s.pickFor n c.ahead = some (p, tie) → (s.port p).loop.ready = true ∧ (s.port p).loop.running = false ∧
       (homePump p = n.val ∨ 60 ≤ c.ahead ∧ ∀ q : Port, homePump q = n.val → s.readyNow q = false))) ∧
  (∀ (s : State) (n : Pump) (p : Port) (tie : Bool) (wait : Nat) (c : FreeCycle), s.beaten p n c.others = false →
     s.pump n = none → s.pickFor n c.ahead = some (p, tie) → (s.port p).loop.preset = true →
     (s.pmp.coefQ.any fun e => e.1 = p) = false →
     (s.headerOk p = true →
       ∃ t, exec (.presetDispatch n wait c) s = .next t ∧ t.pump n = some (s.newRun p true) ∧
         (t.port p).loop.running = true ∧ (t.port p).loop.preset = true ∧ t.trough = s.trough) ∧
     (s.headerOk p = false →
       ∃ t, exec (.presetDispatch n wait c) s = .next t ∧ s.onlyPort p t ∧ (t.port p).loop.auto = false ∧
         (t.port p).loop.preset = false ∧ (t.port p).loop.evt = setBit (s.port p).loop.evt 4)) ∧
  (∀ (s : State) (p : Port),
     (s.port p).loop.limp = false →
     (s.port p).loop.running = true ∧ (∀ n r, s.pump n = some r → r.port = p → r.late = false) ∨
       (s.port p).loop.ready = true ∧ (s.port p).loop.running = false →
     ((s.port p).loop.orun < 7 →
       ∃ t, exec (.commitDeadline p) s = .next t ∧ s.othersKept p t ∧ (t.port p).loop.orun = (s.port p).loop.orun + 1 ∧
         (t.port p).loop.evt = setBit (s.port p).loop.evt 1 ∧ t.pmp.ovrCnt = satInc s.pmp.ovrCnt ∧
         ((s.port p).loop.running = true → (t.port p).loop.skip = true ∧
           ∀ n r, t.pump n = some r → r.port = p → r.late = true) ∧
         ((s.port p).loop.running = false → (t.port p).loop.ready = false)) ∧
     (7 ≤ (s.port p).loop.orun →
       ∃ t, exec (.commitDeadline p) s = .next t ∧ (t.port p).loop.limp = true ∧ (t.port p).loop.lcause = 1 ∧
         (t.port p).loop.auto = false ∧ (t.port p).stg.target = 0 ∧ t.pmp.ovrCnt = satInc s.pmp.ovrCnt))

/-- R258 to R262, R387: the host's writes to a loop slot with the unlock open: MANUAL takes effect at once on a stopped stage and at
the next trigger on a running one; AUTO goes through PRESET with the manual ratio held; MODE holds what was
written; a coefficient word is taken in MANUAL only.
That MODE reads as it was last written, and that a write of MANUAL makes the host the owner in LIMP's absence even where the slot is in
MANUAL already, are the model's choices (log entries A24, A48).
R41, R245, R262, R428: a grant of the trough passes the pointer on to the requester after the one granted; a grant to the
coefficient path writes its oldest word at its place in the slot and no other byte of the trough. -/
def Obligations.LoopSlotWrites : Prop :=
  (∀ (s : State) (p : Port) (i : Fin 256) (w : Word), s.served = true → s.dev.unlock = true →
     s.twi.commits = [] →
     ((s.port p).loop.limp = false →
       ∃ t, exec (.loopManual p) s = .next t ∧ s.othersKept p t ∧
         (if (s.port p).stg.den then (t.port p).loop = { (s.port p).loop with ctl := false, manPend := true }
          else (t.port p).loop.ctl = false ∧ (t.port p).loop.auto = false ∧ (t.port p).loop.host = true ∧ (t.port p).loop.preset = false)) ∧
     ((s.port p).loop.limp = false → (s.port p).loop.auto = false → (s.port p).loop.held = false →
       ∃ t, exec (.loopAuto p) s = .next t ∧ s.othersKept p t ∧ (t.port p).loop.ctl = true ∧ (t.port p).loop.auto = true ∧
         (t.port p).loop.preset = true ∧
         (t.port p).loop.mheld = (s.port p).loop.mduty ∧ (t.port p).stg = (s.port p).stg) ∧
     (∃ t, exec (.loopMdutyWrite p w) s = .next t ∧ s.othersKept p t ∧ (t.port p).loop = { (s.port p).loop with mduty := w }) ∧
     ((s.port p).loop.auto = false →
       ∃ t, exec (.coefWindowWrite p i w) s = .next t ∧ t.pmp.coefQ = s.pmp.coefQ ++ [(p, i, w)] ∧ t.ports = s.ports) ∧
     ((s.port p).loop.auto = true →
       ∃ t, exec (.coefWindowWrite p i w) s = .next t ∧ t.pmp.coefQ = s.pmp.coefQ ∧
         (t.port p).loop.evt = setBit (s.port p).loop.evt 3 ∧ s.othersKept p t)) ∧
  (∀ (s : State) (w : Fin 26) (p : Port) (i : Fin 256) (v : Word) (l : List (Port × Fin 256 × Word)),
     (∃ t, exec (.troughGrant [w]) s = .next t ∧ t.pmp.troughPtr = (w.val + 1) % 26 ∧ t.ports = s.ports) ∧
     (s.trough.wf = true → s.pmp.coefQ = (p, i, v) :: l →
       ∃ t, exec (.troughGrant [25]) s = .next t ∧ t.pmp.coefQ = l ∧ t.trough.word (slotAt p + 4 * i.val) = v ∧
         (∀ a, a < slotAt p + 4 * i.val ∨ slotAt p + 4 * i.val + 4 ≤ a → t.trough.read a = s.trough.read a)))

/-- R105 to R111: what a port that receives does: a preamble within the bit rate and of a swing that the detector sees opens a reception, a stronger one captures it, a
packet that passes the checks and is no repetition takes a receive place, raises a message event and owes a GoodCRC, and a Hard Reset
empties the places and raises a class 0 event; one that comes while the port drives the line waits for the end of that. A GoodCRC drives
the line from its own start on (log entry A94), and one that a further packet puts off goes before that packet's own.
R106, R107: a packet whose CRC is wrong or whose symbols are counts as an error and is not delivered; one on SOP′ or SOP″ to a
port that does not supply VCONN changes nothing but the reception.
R109, R110: transmission: Hard Reset goes before every message; a message is tried nRetryCount + 1 = 3 times, and then its hand
learns that it failed. -/
def Obligations.PacketsAndTransmission : Prop :=
  (∀ (s : State) (p : Port) (amp kbps a : Nat) (k : Packet), s.bmcRuns p = true →
     ((s.port p).prot.cur = none → (s.port p).prot.onLine s.dev.aon = false → 270 ≤ kbps → kbps ≤ 330 → Config.preambleMv.val ≤ amp →
       ∃ t, exec (.preambleDetected p amp kbps) s = .next t ∧ s.onlyPort p t ∧ (t.port p).prot.cur = some amp) ∧
     ((s.port p).prot.cur = some a → 3 * a ≤ 2 * amp →
       ∃ t, exec (.capture p amp) s = .next t ∧ s.onlyPort p t ∧ (t.port p).prot.cur = some amp ∧ (t.port p).tc.ampCapt = amp ∧
         (t.port p).tc.evt = setBit (s.port p).tc.evt 5) ∧
     ((s.port p).prot.cur = some a → packetVerdict k (s.port p).vconnOn = .good → (∀ id, k.msg ≠ .goodCrc id) →
       idOf (s.port p).prot.lastId k.sop ≠ some k.msgId → (s.port p).prot.rx.length < 2 →
       ∃ t, exec (.packetReceive p k) s = .next t ∧ s.onlyPortYard p t ∧
         (t.port p).prot.rx = (s.port p).prot.rx ++ [⟨k.sop, k.msg⟩] ∧ (t.port p).prot.goodCrc = (s.port p).prot.goodCrc ++ [(k.sop, k.msgId)] ∧
         t.hnd.reqs = s.hnd.reqs ++ [⟨p.val, some p, 1, .msg, false⟩] ∧ (t.port p).tc.ampLast = a) ∧
     ((s.port p).prot.onLine s.dev.aon = true →
       ∃ t, exec (.hardResetOrderedSet p) s = .next t ∧ s.onlyPort p t ∧
         (t.port p).prot = { (s.port p).prot with hrLate := true }) ∧
     ((s.port p).prot.onLine s.dev.aon = false →
       ∃ t, exec (.hardResetOrderedSet p) s = .next t ∧ s.onlyPortYard p t ∧ (t.port p).prot.rx = [] ∧
         (t.port p).prot.cur = none ∧ ⟨p.val, some p, 0, .hardReset, false⟩ ∈ t.hnd.reqs ∧
         (∀ r ∈ t.hnd.reqs, r.port = some p → r.ev ≠ .msg) ∧
         ∀ r ∈ t.hnd.ready, r.port = some p → r.ev = .msg → r.dead = true)) ∧
  (∀ (s : State) (p : Port) (a : Nat) (k : Packet), s.bmcRuns p = true → (s.port p).prot.cur = some a → k.sop ≠ .hardReset →
     ∃ t, exec (.packetReceive p k) s = .next t ∧ (t.port p).prot.cur = none ∧
       (k.goodK < 3 → s.onlyPortYard p t ∧ t.hnd = s.hnd ∧ (t.port p).prot.rx = (s.port p).prot.rx ∧
         (t.port p).tc.cnt = bump (s.port p).tc.cnt 6) ∧
       (3 ≤ k.goodK → k.sop = .sop → k.symbolsOk = true → k.eop = true → k.bytes.length ≤ 30 → crc32 k.bytes ≠ k.crc →
         s.onlyPortYard p t ∧ t.hnd = s.hnd ∧ (t.port p).prot.rx = (s.port p).prot.rx ∧
         (t.port p).tc.cnt = bump (s.port p).tc.cnt 5) ∧
       (3 ≤ k.goodK → k.sop = .sop1 ∨ k.sop = .sop2 → (s.port p).vconnOn = false →
         s.onlyPortYard p t ∧ t.hnd = s.hnd ∧ (t.port p).prot.rx = (s.port p).prot.rx ∧
         (t.port p).tc.cnt = (s.port p).tc.cnt)) ∧
  (∀ (s : State) (p : Port) (m : TxMsg) (l : List TxMsg),
     (s.bmcRuns p = true → (s.port p).prot.driving = false → (s.port p).prot.cur = none →
       ((s.port p).prot.hrWait = true →
         ∃ t, exec (.transmitStart p) s = .next t ∧ s.onlyPort p t ∧ (t.port p).prot.hrProg = true ∧
           (t.port p).prot.hrWait = false ∧ (t.port p).prot.txq = (s.port p).prot.txq) ∧
       ((s.port p).prot.hrWait = false → (s.port p).prot.await = none → (s.port p).prot.txq = m :: l →
         ∃ t, exec (.transmitStart p) s = .next t ∧ s.onlyPort p t ∧ (t.port p).prot.inProg = true ∧
           (t.port p).prot.await = some m ∧ (t.port p).prot.txq = l ∧ (t.port p).prot.tries = (s.port p).prot.tries + 1)) ∧
     ((s.port p).prot.inProg = true ∨ (s.port p).prot.hrProg = true ∨
       (s.port p).prot.goodCrc ≠ [] ∧ (s.port p).prot.cur = none → (s.port p).prot.hrLate = false →
       ∃ t, exec (.transmitEnd p) s = .next t ∧ s.onlyPortYard p t ∧ (t.port p).prot.inProg = false ∧
         (t.port p).prot.hrProg = false ∧ (t.port p).prot.goodCrc =
           (if (s.port p).prot.inProg = true ∨ (s.port p).prot.hrProg = true then (s.port p).prot.goodCrc
            else (s.port p).prot.goodCrc.tail)) ∧
     ((s.port p).prot.await = some m → (s.port p).prot.inProg = false →
       ((s.port p).prot.tries < 3 →
         ∃ t, exec (.treceiveExpiry p) s = .next t ∧ s.onlyPort p t ∧ (t.port p).prot.txq = m :: (s.port p).prot.txq ∧
           (t.port p).prot.await = none) ∧
       (3 ≤ (s.port p).prot.tries →
         ∃ t, exec (.treceiveExpiry p) s = .next t ∧ s.onlyPortYard p t ∧ (t.port p).prot.await = none ∧
           (t.port p).tc.evt = setBit (s.port p).tc.evt 6 ∧
           t.hnd.reqs = s.hnd.reqs ++ [⟨p.val, some p, 1, .txFail m.kind, false⟩])))

/-- R142, R149, R157, R160, R173: what a hand answers to a query: the port's own message, or Not_Supported where the port has none.
R158, R160: the swaps that the device refuses with Not_Supported, counted and reported; VCONN_Swap among them where the feature is
off; with the feature on a port that supplies VCONN accepts it.
The rounding and PTF in PPS_Status and Status are the model's choice (log entries A47, A59), and so are the count of a refused VCONN_Swap
(A39) and that Get_Source_Cap leaves the source's state (A40). -/
def Obligations.AnswersGiven : Prop :=
  (∀ (s : State) (h : Hand) (p : Port) (n : Nat),
     (s.msgOn h p ⟨.sop, .getRevision⟩ →
       ∃ t, exec (.getRevision h p) s = .next t ∧ t.lastTx p = some ⟨.sop, .answer, .revision⟩ ∧ s.othersKept p t) ∧
     (s.msgOn h p ⟨.sop, .getSinkCap⟩ →
       ∃ t, exec (.getSinkCap h p) s = .next t ∧ s.othersKept p t ∧ t.lastTx p = some ⟨.sop, .answer,
         if (s.port p).tc.isSnk = true ∨ (s.port p).cfg.role = 2 then
           .sinkCap (if (s.port p).cfg.snkV = 0 then 5000 else 100 * (s.port p).cfg.snkV) (10 * (s.port p).cfg.snkI)
         else .notSupported⟩) ∧
     (s.msgOn h p ⟨.sop, .getSourceCap⟩ → (s.port p).tc.isSrc = false →
       ∃ t, exec (.getSourceCap h p) s = .next t ∧ s.othersKept p t ∧ t.lastTx p = some ⟨.sop, .answer,
         if (s.port p).cfg.role = 2 then .sourceCap (s.capsMsg p (s.buildOffer p)) else .notSupported⟩) ∧
     (s.msgOn h p ⟨.sop, .getSourceCap⟩ → (s.port p).tc.isSrc = true →
       ∃ t, exec (.getSourceCap h p) s = .next t ∧ s.othersKept p t ∧ (t.port p).pd.src = (s.port p).pd.src ∧
         (t.port p).pd.contract = (s.port p).pd.contract ∧ t.lastTx p = some ⟨.sop, .answer,
           if (s.port p).pd.eprMsgs then .eprSourceCap (s.capsMsg p (s.buildOffer p))
           else .sourceCap (s.capsMsg p (s.buildOffer p))⟩) ∧
     (s.msgOn h p ⟨.sop, .getPpsStatus⟩ → (s.port p).tc.isSrc = true →
       ∃ t, exec (.getPpsStatus h p) s = .next t ∧ s.othersKept p t ∧ t.lastTx p = some ⟨.sop, .answer, .ppsStatus
         ⟨(s.port p).vbcMv / 20, ((s.port p).stg.meas.i / 50000).toNat, ptfOf (s.factor p), s.ccLoop p⟩⟩) ∧
     (s.msgOn h p ⟨.sop, .getStatus⟩ →
       ∃ t, exec (.getStatus h p) s = .next t ∧ (t.port p).pd.ocp = false ∧
         ⟨.sop, .answer, .status (s.statusOf p)⟩ ∈ (t.port p).prot.txq) ∧
     (s.msgOn h p ⟨.sop, .other n⟩ →
       ∃ t, exec (.unsupportedMessage h p) s = .next t ∧ s.othersKept p t ∧ t.lastTx p = some ⟨.sop, .answer, .notSupported⟩)) ∧
  (∀ (s : State) (h : Hand) (p : Port) (c : Instr) (m : PdMsg),
     ((c, m) ∈ [(Instr.prSwap h p, PdMsg.prSwap), (.drSwap h p, .drSwap), (.frSwap h p, .frSwap), (.dataReset h p, .dataReset)] ∨
       (c, m) = (.vconnSwap h p, .vconnSwap) ∧ s.alm.cfg.feat.testBit 4 = false →
       s.msgOn h p ⟨.sop, m⟩ →
       ∃ t, exec c s = .next t ∧ s.othersKept p t ∧ t.lastTx p = some ⟨.sop, .answer, .notSupported⟩ ∧
         (t.port p).pd.evt = setBit (s.port p).pd.evt 9 ∧ (t.port p).pd.cnt[6] = satInc (s.port p).pd.cnt[6] ∧
         (t.port p).pd.contract = (s.port p).pd.contract) ∧
     (s.msgOn h p ⟨.sop, .vconnSwap⟩ → s.alm.cfg.feat.testBit 4 = true → (s.port p).pd.vconnSrc = true →
       ∃ t, exec (.vconnSwap h p) s = .next t ∧ s.othersKept p t ∧ t.lastTx p = some ⟨.sop, .acceptVcs, .accept⟩))

/-- R144 to R146: a valid request of a source outside a deficit whose need the ledger covers is accepted, and the difference is
pledged; one whose need it does not cover is answered Wait and waits; one at a position that the offer does not have, and one of the
kind that is not in force (EPR_Request outside EPR mode, Request in it), is rejected.
R171: with the sibling attached a request for another voltage than the stage's waits, and after the third in a row the port offers anew
without objects that move the stage. -/
def Obligations.RequestsAdmitted : Prop :=
  (∀ (s : State) (h : Hand) (p : Port) (r : Rdo) (c : Contract) (i : Instr) (m : PdMsg),
    (i, m) = (.request h p, .request r) ∧ (s.port p).pd.eprMsgs = false ∨
      (i, m) = (.eprRequest h p, .eprRequest r) ∧ (s.port p).pd.eprMsgs = true →
    s.msgOn h p ⟨.sop, m⟩ → (s.port p).tc.isSrc = true → (s.port p).pd.src.takesRequest = true →
    (requestOf (s.port p).pd.offer r (s.port p).pd.eprMsgs = some c →
      (s.sibAttached p = true → c.mv = (s.port (s.stageOf p)).stg.target) →
      ((s.cis.ahead : Int) + (c.credits - (s.port p).pd.charge : Nat) ≤ s.free →
        ∃ t, exec i s = .next t ∧ (t.port p).pd.want = some c ∧ (t.port p).pd.pledge = c.credits - (s.port p).pd.charge ∧
          (t.port p).pd.src = .admission ∧ (t.port p).pd.charge = (s.port p).pd.charge ∧
          t.lastTx p = some ⟨.sop, .accept, .accept⟩) ∧
      (s.free < (c.credits : Int) - (s.port p).pd.charge → (s.port p).pd.charge < c.credits → (s.port p).pd.waits < 2 →
        ∃ t, exec i s = .next t ∧ (t.port p).pd.src = .waitReq ∧ t.lastTx p = some ⟨.sop, .wait, .wait⟩ ∧
          t.armed p .waitWindow ∧ (t.port p).pd.charge = (s.port p).pd.charge ∧ s.othersKept p t)) ∧
    (requestOf (s.port p).pd.offer r (s.port p).pd.eprMsgs = some c → s.sibAttached p = true →
      c.mv ≠ (s.port (s.stageOf p)).stg.target →
      ((s.port p).pd.twinWaits < 2 →
        ∃ t, exec i s = .next t ∧ (t.port p).pd.src = .waitReq ∧ t.lastTx p = some ⟨.sop, .wait, .wait⟩ ∧
          (t.port p).pd.twinWaits = (s.port p).pd.twinWaits + 1 ∧ t.armed p .waitWindow ∧
          (t.port p).pd.charge = (s.port p).pd.charge ∧ s.othersKept p t) ∧
      ((s.port p).pd.twinWaits = 2 →
        ∃ t, exec i s = .next t ∧ (t.port p).pd.src = .sendCaps ∧ (t.port p).pd.noMove = true ∧
          (⟨.sop, .wait, .wait⟩ : TxMsg) ∈ (t.port p).prot.txq ∧ s.othersKept p t)) ∧
    (requestOf (s.port p).pd.offer r (s.port p).pd.eprMsgs = none → (s.port p).pd.contract = none →
      ∃ t, exec i s = .next t ∧ t.lastTx p = some ⟨.sop, .reject, .reject⟩ ∧ t.armed p .rejectResend ∧ s.othersKept p t)) ∧
  (∀ (s : State) (h : Hand) (p : Port) (r : Rdo) (i : Instr) (m : PdMsg),
    (i, m) = (.request h p, .request r) ∧ (s.port p).pd.eprMsgs = true ∨
      (i, m) = (.eprRequest h p, .eprRequest r) ∧ (s.port p).pd.eprMsgs = false →
    s.msgOn h p ⟨.sop, m⟩ → (s.port p).tc.isSrc = true → (s.port p).pd.src.takesRequest = true →
    ∃ t, exec i s = .next t ∧ (⟨.sop, .reject, .reject⟩ : TxMsg) ∈ (t.port p).prot.txq ∧
      (t.port p).pd.contract = (s.port p).pd.contract ∧ (t.port p).pd.cnt[5] = satInc (s.port p).pd.cnt[5] ∧ s.othersKept p t)

/-- R138, R156, R158, R161 to R163: Soft_Reset is accepted with the MessageIDs reset and any pledge dropped, here in a device that no
deficit presses; a Hard Reset ends the contract, EPR mode and every waiting message, and starts its timers; a source removes VCONN, and a
sink's inflow is withdrawn. The model's own are: that the stored MessageIDs are forgotten (log entry A35), that
the count of Hard Resets stays at 2 (A34), that a sink keeps the VCONN it supplies (A32), and that its sluice stays on till tPSHardReset ends
(A43). -/
def Obligations.ResetsReceived : Prop :=
  ∀ (s : State) (h : Hand) (p : Port),
    (s.msgOn h p ⟨.sop, .softReset⟩ → (s.port p).tc.isSrc = true → (s.port p).pd.src.takesSoftReset = true → s.calm →
      ∃ t, exec (.softReset h p) s = .next t ∧ (t.port p).pd.src = .sendCaps ∧ (t.port p).pd.pledge = 0 ∧
        (t.port p).prot.lastId = [] ∧ (t.port p).prot.nextId = [] ∧ (t.port p).pd.contract = (s.port p).pd.contract ∧
        (⟨.sop, .acceptSoft, .accept⟩ : TxMsg) ∈ (t.port p).prot.txq ∧
        ((s.port p).pd.vcsPend = false → t.lastTx p = some ⟨.sop, .acceptSoft, .accept⟩)) ∧
    (s.handOn h p .hardReset → (s.port p).tc.isSrc = true →
      ∃ t, exec (.hardResetReceived h p) s = .next t ∧ (t.port p).pd.src = .hardReset ∧ (t.port p).pd.contract = none ∧
        (t.port p).pd.epr = .spr ∧ (t.port p).tc.vconn = false ∧ (t.port p).prot.txq = [] ∧
        (t.port p).pd.hrc = min ((s.port p).pd.hrc + 1) 2 ∧ t.armed p .psHardReset) ∧
    (s.handOn h p .hardReset → (s.port p).tc.isSnk = true →
      ∃ t, exec (.hardResetReceived h p) s = .next t ∧ (t.port p).pd.snk = .hardReset ∧ (t.port p).pd.contract = none ∧
        (t.port p).pd.inflow = 0 ∧ (t.port p).tc.vconn = (s.port p).tc.vconn ∧ (t.port p).prot.txq = [] ∧
        (t.port p).pd.slcq = (s.port p).pd.slcq.filter (fun c => !isIlim c) ∧ t.armed p .psHardReset ∧ t.armed p .sinkHardReset)

/-- R138, R153 to R156: what the answers do to the machine that waits for them: a sink's request accepted, rejected or put off, its
contract at PS_RDY, and a source's Soft_Reset accepted.
R153, R154: capabilities that a sink takes are answered with the Request of its own choice; in EPR mode with an EPR_Request.
That capabilities are taken in WAITED too is the model's choice (log entry A85), and so is what Reject and Not_Supported do to a sink
(A43). -/
def Obligations.AnswersTaken : Prop :=
  (∀ (s : State) (h : Hand) (p : Port) (c : Contract),
     (s.msgOn h p ⟨.sop, .accept⟩ → (s.port p).tc.isSrc = true → (s.port p).pd.src = .softReset →
       ∃ t, exec (.accept h p) s = .next t ∧ (t.port p).pd.src = .sendCaps ∧ (t.port p).pd.capsTry = 1) ∧
     (s.msgOn h p ⟨.sop, .accept⟩ → (s.port p).tc.isSnk = true → (s.port p).pd.snk = .select → (s.port p).pd.want = some c →
       ∃ t, exec (.accept h p) s = .next t ∧ (t.port p).pd.snk = .transition ∧
         (t.port p).pd.inflow = min (s.port p).pd.inflow c.credits ∧ t.armed p .psTransition) ∧
     (s.msgOn h p ⟨.sop, .reject⟩ → (s.port p).tc.isSnk = true → (s.port p).pd.snk = .select → (s.port p).pd.vcsPend = false →
       (s.port p).pd.sinkDue = false →
       ∃ t, exec (.reject h p) s = .next t ∧
         (t.port p).pd.snk = (if (s.port p).pd.contract = none then .select else .ready)) ∧
     (s.msgOn h p ⟨.sop, .wait⟩ → (s.port p).tc.isSnk = true → (s.port p).pd.snk = .select → (s.port p).pd.vcsPend = false →
       ∃ t, exec (.wait h p) s = .next t ∧ (t.port p).pd.snk = .waited ∧ t.armed p .sinkRequest ∧ s.othersKept p t) ∧
     (s.msgOn h p ⟨.sop, .psRdy⟩ → (s.port p).tc.isSnk = true → (s.port p).pd.snk = .transition → (s.port p).pd.vcs ≠ 1 →
       (s.port p).pd.want = some c → (s.port p).pd.sinkDue = false →
       ∃ t, exec (.psRdy h p) s = .next t ∧ (t.port p).pd.snk = .ready ∧ (t.port p).pd.contract = some c ∧
         (t.port p).pd.inflow = c.credits) ∧
     (s.msgOn h p ⟨.sop, .notSupported⟩ → (s.port p).tc.isSnk = true → (s.port p).pd.epr = .entry →
       (s.port p).pd.vcsPend = false →
       ∃ t, exec (.notSupportedReceived h p) s = .next t ∧ (t.port p).pd.epr = .spr ∧ s.othersKept p t)) ∧
  (∀ (s : State) (h : Hand) (p : Port) (c : SrcCaps), (s.port p).tc.isSnk = true → (s.port p).pd.snk.takesCaps = true →
     (s.msgOn h p ⟨.sop, .sourceCap c⟩ → (s.port p).pd.contract = none → (s.port p).pd.epr = .spr →
       ∃ t, exec (.sourceCapabilities h p) s = .next t ∧ s.othersKept p t ∧ (t.port p).pd.snk = .select ∧
         (t.port p).pd.srcCaps = c.pdos ∧ (t.port p).pd.want = some (t.choose p).1 ∧
         t.lastTx p = some ⟨.sop, .request, .request (t.choose p).2⟩) ∧
     (s.msgOn h p ⟨.sop, .eprSourceCap c⟩ → (s.port p).pd.epr = .epr →
       ∃ t, exec (.eprSourceCapabilities h p) s = .next t ∧ s.othersKept p t ∧ (t.port p).pd.snk = .select ∧
         (t.port p).pd.srcCaps = c.pdos ∧ t.lastTx p = some ⟨.sop, .request, .eprRequest (t.choose p).2⟩))

/-- R150, R151, R155: EPR mode entered, refused and left, and its keep-alive. Of the four checks of R150 the first that fails is named
here: a port of no EPR class, and no explicit SPR contract in force, an EPR contract among them. The reason codes of Enter Failed are the
model's choice (log entry A37). -/
def Obligations.EprMode : Prop :=
  ∀ (s : State) (h : Hand) (p : Port) (n : Nat),
    (s.msgOn h p ⟨.sop, .eprMode .enter⟩ → (s.port p).tc.isSrc = true → (s.port p).pd.epr = .spr → (s.port p).pd.eprPend = false →
      (s.port p).pd.gaveVconn = false ∨ (s.port p).pd.vconnSrc = true →
      (s.eprClass p = true → s.eprOffered p = true → (s.cableNow p).epr = true → (s.port p).pd.sprContract = true →
        ∃ t, exec (.eprModeEnter h p) s = .next t ∧ (t.port p).pd.epr = .entry ∧
          t.lastTx p = some ⟨.sop, .eprSucceeded, .eprMode .enterSucceeded⟩ ∧
          ⟨.sop, .eprEnterAck, .eprMode .enterAck⟩ ∈ (t.port p).prot.txq ∧ s.othersKept p t) ∧
      (s.eprClass p = false →
        ∃ t, exec (.eprModeEnter h p) s = .next t ∧ (t.port p).pd.epr = .spr ∧
          t.lastTx p = some ⟨.sop, .eprFailed, .eprMode (.enterFailed 4)⟩ ∧ s.othersKept p t)) ∧
    (s.msgOn h p ⟨.sop, .eprMode .enter⟩ → (s.port p).tc.isSrc = true → (s.port p).pd.eprPend = false →
      (s.port p).pd.gaveVconn = false ∨ (s.port p).pd.vconnSrc = true →
      s.eprClass p = true → s.eprOffered p = true → (s.cableNow p).epr = true → (s.port p).pd.sprContract = false →
      ∃ t, exec (.eprModeEnter h p) s = .next t ∧
        (t.port p).pd.epr = (if (s.port p).pd.epr = .entry then .spr else (s.port p).pd.epr) ∧ t.lastTx p = some ⟨.sop, .eprFailed, .eprMode (.enterFailed 0)⟩ ∧ s.othersKept p t) ∧
    (s.msgOn h p ⟨.sop, .eprMode .exit⟩ → (s.port p).tc.isSnk = true → (s.port p).pd.epr = .epr →
      ∃ t, exec (.eprModeExit h p) s = .next t ∧ (t.port p).pd.epr = .spr ∧
        (t.port p).pd.evt = setBit (s.port p).pd.evt 12 ∧ s.othersKept p t) ∧
    (s.msgOn h p ⟨.sop, .eprMode .exit⟩ → (s.port p).tc.isSrc = true → (s.port p).pd.epr = .epr → (s.port p).pd.contract = none →
      (s.port p).pd.src = .ready →
      ∃ t, exec (.eprModeExit h p) s = .next t ∧ (t.port p).pd.epr = .spr ∧ (t.port p).pd.src = .sendCaps ∧ s.othersKept p t) ∧
    (s.msgOn h p ⟨.sop, .eprMode .enterSucceeded⟩ → (s.port p).tc.isSnk = true → (s.port p).pd.epr = .entry →
      ∃ t, exec (.eprModeResponse h p) s = .next t ∧ (t.port p).pd.epr = .epr ∧ t.armed p .sinkEprKeepAlive ∧
        s.othersKept p t) ∧
    (s.msgOn h p ⟨.sop, .eprMode (.enterFailed n)⟩ → (s.port p).tc.isSnk = true → (s.port p).pd.epr = .entry →
      ∃ t, exec (.eprModeResponse h p) s = .next t ∧ (t.port p).pd.epr = .spr ∧ s.othersKept p t) ∧
    (s.msgOn h p ⟨.sop, .eprKeepAlive⟩ → (s.port p).tc.isSrc = true → (s.port p).pd.epr = .epr →
      ∃ t, exec (.eprKeepalive h p) s = .next t ∧ t.lastTx p = some ⟨.sop, .answer, .eprKeepAliveAck⟩ ∧
        t.armed p .sourceEprKeepAlive ∧ s.othersKept p t)

/-- R109, R137, R138, R146, R147, R161: the result of a transmission. Capabilities acknowledged open the negotiation; an Accept
acknowledged turns the pledge into charge, here in a device that no deficit presses; PS_RDY acknowledged is the contract, here where the ledger then
covers what is expected of it. An Accept that fails leads to Soft_Reset in a device that no
deficit presses; after a PS_RDY that fails the transition limit runs on. Capabilities that fail are sent again after tTypeCSendSourceCap, and
after attempt nCapsCount = 50 the port is in TYPEC_ONLY. -/
def Obligations.TransmissionResults : Prop :=
  ∀ (s : State) (h : Hand) (p : Port) (c : Contract), (s.port p).tc.isSrc = true →
    (s.handOn h p (.txOk .caps) → (s.port p).pd.src = .sendCaps →
      ∃ t, exec (.txGoodcrc h p) s = .next t ∧ (t.port p).pd.src = .negotiate ∧ t.armed p .senderResponse ∧ s.othersKept p t) ∧
    (s.handOn h p (.txOk .accept) → (s.port p).pd.want = some c → s.calm →
      ∃ t, exec (.txGoodcrc h p) s = .next t ∧ (t.port p).pd.src = .transition ∧
        (t.port p).pd.charge = (s.port p).pd.charge + (s.port p).pd.pledge ∧ (t.port p).pd.pledge = 0 ∧
        t.armed p .srcTransition ∧ s.othersKept p t) ∧
    (s.handOn h p (.txOk .psRdy) → (s.port p).pd.want = some c →
      (s.cis.ahead : Int) + c.credits ≤ s.free + (s.port p).pd.charge + (s.port p).pd.pledge →
      ∃ t, exec (.txGoodcrc h p) s = .next t ∧ (t.port p).pd.contract = some c ∧ (t.port p).pd.charge = c.credits ∧
        (t.port p).pd.pledge = 0 ∧ (t.port p).pd.hrc = 0) ∧
    (s.handOn h p (.txFail .accept) → s.calm →
      ∃ t, exec (.txfail h p) s = .next t ∧ (t.port p).pd.src = .softReset ∧ (t.port p).pd.pledge = 0 ∧
        t.lastTx p = some ⟨.sop, .softReset, .softReset⟩) ∧
    (s.handOn h p (.txFail .psRdy) →
      ∃ t, exec (.txfail h p) s = .next t ∧ t.ports = s.ports ∧ t.hnd.timers = s.hnd.timers) ∧
    (s.handOn h p (.txFail .caps) → (s.port p).pd.src = .sendCaps →
      ∃ t, exec (.txfail h p) s = .next t ∧ s.othersKept p t ∧ (t.port p).pd.capsTry = (s.port p).pd.capsTry ∧
        (if 50 ≤ (s.port p).pd.capsTry then (t.port p).pd.src = .typecOnly
         else (t.port p).pd.src = .sendCaps ∧ t.armed p .typeCSendSourceCap))

/-- R137, R138, R165 to R167: what makes a source port offer: the end of a waiting time, vSafe5V with the cable known, a notice of the
shed, and a rise of FREE outside the re-offer spacing. Attempt 50 without an answer leads to TYPEC_ONLY.
R174, R372, R373: on the crier's request every port attached as source sends a Source Input Change, or keeps it until it may; one that
has not been sent yet takes the new one in; an
Alert that got no Get_Status lets the next one go. -/
def Obligations.OffersAndAlerts : Prop :=
  (∀ (s : State) (h : Hand) (p : Port) (vbc : Nat) (c : Instr), (s.port p).tc.isSrc = true →
     (c = .waitWindowExpiry h p ∧ s.timerOn h p .waitWindow ∧ (s.port p).pd.src = .waitReq ∨
       c = .rejectResendCaps h p ∧ s.timerOn h p .rejectResend ∧ (s.port p).pd.src = .admission ∨
       c = .reofferSpacingExpiry h p ∧ s.timerOn h p .reofferSpacing ∧ (s.port p).pd.src = .ready ∧ (s.port p).pd.due = true ∨
       c = .shedNotice h p ∧ s.handOn h p .shed ∧ ((s.port p).pd.shed || (s.port p).pd.trigger) = true ∧
         (s.port p).pd.holdTwin = false ∧ (s.port p).pd.src = .ready ∨
       c = .vsafe5vInBand p vbc ∧ s.works p = true ∧ in5V vbc = true ∧ (s.port p).pd.src = .startup ∧ (s.port p).pd.cabled = true ∨
       c = .freeRise p ∧ s.works p = true ∧ s.freeRose p = true ∧ (s.port p).pd.src = .ready ∧ (s.port p).pd.spacing = true →
       ∃ t, exec c s = .next t ∧ (t.port p).pd.src = .sendCaps ∧ (t.port p).pd.capsTry = 1 ∧ t.armed p .reofferSpacing ∧
         s.othersKept p t ∧ (t.port p).pd.contract = (s.port p).pd.contract) ∧
     (s.timerOn h p .typeCSendSourceCap → (s.port p).pd.src = .sendCaps →
       ∃ t, exec (.ttypecsendsourcecapExpiry h p) s = .next t ∧ s.othersKept p t ∧
         (if (s.port p).pd.capsTry < 50 then (t.port p).pd.src = .sendCaps ∧ (t.port p).pd.capsTry = (s.port p).pd.capsTry + 1
          else (t.port p).pd.src = .typecOnly))) ∧
  (∀ (s : State) (h : Hand) (p : Port) (r : YardRec) (k : AlertKind) (l : List AlertKind), s.dev.stop = none →
     (∀ (e : InputCause), s.running = true → s.hnd.choose h = some r → r.port = none → r.ev = .crier e → r.dead = false →
       ∃ t, exec (.crierAlert h) s = .next t ∧ t.trough = s.trough ∧
         (s.bmcRuns p = true → (s.port p).tc.isSrc = true → (s.port p).pd.alerts = [] → (s.port p).inputDue = false →
           if (s.port p).pd.src = .ready ∧ (s.port p).pd.contract ≠ none ∧ (s.port p).pd.alertOut = false then
             t.lastTx p = some ⟨.sop, .alert, .alert .sourceInputChange⟩ ∧ (t.port p).pd.alertOut = true
           else (t.port p).pd.alerts = [.sourceInputChange]) ∧
         (s.bmcRuns p = true → (s.port p).tc.isSrc = true → (s.port p).inputDue = true →
           (t.port p).prot = (s.port p).prot ∧ (t.port p).pd.alerts = (s.port p).pd.alerts) ∧
         ((s.port p).tc.isSrc = false → t.port p = s.port p)) ∧
     (s.timerOn h p .alertWait → (s.port p).pd.alerts = [] →
       ∃ t, exec (.alertWaitExpiry h p) s = .next t ∧ (t.port p).pd.alertOut = false ∧ s.othersKept p t) ∧
     (s.timerOn h p .alertWait → (s.port p).pd.alerts = k :: l → (s.port p).tc.isSrc = true → (s.port p).pd.src = .ready →
       (s.port p).pd.contract ≠ none →
       ∃ t, exec (.alertWaitExpiry h p) s = .next t ∧ t.lastTx p = some ⟨.sop, .alert, .alert k⟩ ∧
         (t.port p).pd.alerts = l ∧ s.othersKept p t))

/-- R147, R148, R151, R153, R158, R161, R167: the timers whose expiry leads to Hard Reset: the contract ends, a source removes VCONN and the
signal waits to be sent; with the count at 2 already the port goes to ErrorRecovery instead. That ErrorRecovery follows every one of these
timers at the count of 2 is the model's choice (log entry A34), and so is the VCONN that a sink keeps and a source removes when
tVCONNSourceOn ends (A32). -/
def Obligations.TimersReset : Prop :=
  ∀ (s : State) (h : Hand) (p : Port) (i : Instr) (k : Contract),
    i = .senderResponseTimerExpiry h p ∧ s.timerOn h p .senderResponse ∧ (s.port p).tc.isSrc = true ∧
        (s.port p).pd.src = .softReset ∨
      i = .transitionLimitExpiry h p ∧ s.timerOn h p .transitionLimit ∧ (s.port p).pd.src = .transition ∨
      i = .sinkWaitCapTimerExpiry h p ∧ s.timerOn h p .sinkWaitCap ∧ (s.port p).tc.isSnk = true ∧
        (s.port p).pd.snk = .startup ∨
      i = .psTransitionTimerExpiry h p ∧ s.timerOn h p .psTransition ∧ (s.port p).tc.isSnk = true ∧
        (s.port p).pd.snk = .transition ∨
      i = .tppstimeoutExpiry h p ∧ s.timerOn h p .ppsTimeout ∧ (s.port p).pd.contract = some k ∧ k.kind = .pps ∨
      i = .tsourceeprkeepaliveExpiry h p ∧ s.timerOn h p .sourceEprKeepAlive ∧ (s.port p).pd.epr = .epr ∨
      i = .tvconnsourceonExpiry h p ∧ s.timerOn h p .vconnSourceOn ∧ (s.port p).pd.vcs = 1 ∨
      i = .shedLimitExpiry h p ∧ s.timerOn h p .shedLimit ∧ (s.port p).pd.shed = true →
    ∃ t, exec i s = .next t ∧ (t.port p).pd.contract = none ∧
      (if (s.port p).pd.hrc < 2 then (t.port p).prot.hrWait = true ∧ (t.port p).pd.hrc = (s.port p).pd.hrc + 1 ∧
          (t.port p).tc.st = (s.port p).tc.st ∧ (t.port p).tc.vconn = ((s.port p).tc.isSnk && (s.port p).tc.vconn)
       else (t.port p).tc.st = .errRecov ∧ (t.port p).pd.charge = 0)

/-- R162, R163: a Hard Reset of a source after its signal: the output goes to vSafe0V, the charge comes down to the default once the
sluice is off (in a device that no deficit presses), the output returns after tSrcRecover, and STARTUP follows vSafe5V. The sluice of a sink
is off when tPSHardReset has ended; the sink starts again when VBUS is back, its sluice turned on, which is the model's choice (log entry A43),
and detaches when it does not come back. -/
def Obligations.HardResetSequence : Prop :=
  ∀ (s : State) (h : Hand) (p : Port) (vbc : Nat),
    (s.timerOn h p .psHardReset → (s.port p).tc.isSrc = true → (s.port p).pd.hr = .off →
      (s.port p).slc.st ≠ .off ∨ (s.port p).slc.low0 = false →
      ∃ t, exec (.tpshardresetExpiry h p) s = .next t ∧ s.othersKept p t ∧ (t.port p).pd.hr = .discharge ∧
        (t.port p).pd.stgq = (s.port p).pd.stgq ++ [.target 0] ∧ (t.port p).pd.slcq = (s.port p).pd.slcq ++ [.off]) ∧
    (s.handOn h p .sluice → (s.port p).tc.isSrc = true → (s.port p).pd.hr = .discharge → (s.port p).slc.st = .off →
      (s.port p).slc.low0 = true → s.calm →
      ∃ t, exec (.sluiceStateChange h p) s = .next t ∧ (t.port p).pd.hr = .recover ∧ t.armed p .srcRecover ∧
        (t.port p).pd.charge = min (s.port p).pd.charge (defaultCharge (s.port p).cfg.rp) ∧ (t.port p).pd.pledge = 0) ∧
    (s.timerOn h p .srcRecover → (s.port p).pd.hr = .recover →
      ∃ t, exec (.tsrcrecoverExpiry h p) s = .next t ∧ (t.port p).pd.hr = .restore ∧
        (t.port p).pd.stgq = (s.port p).pd.stgq ++ [.start 5000] ∧ (t.port p).pd.slcq.getLast? = some .on) ∧
    (s.works p = true → in5V vbc = true → (s.port p).tc.isSrc = true → (s.port p).pd.src = .hardReset →
      (s.port p).pd.hr = .restore → (s.port p).pd.cabled = false →
      ∃ t, exec (.vsafe5vInBand p vbc) s = .next t ∧ s.onlyPortYard p t ∧ (t.port p).pd.src = .startup ∧ (t.port p).pd.hr = .none) ∧
    (s.timerOn h p .psHardReset → (s.port p).tc.isSnk = true → (s.port p).pd.snkHr = true →
      ∃ t, exec (.tpshardresetExpiry h p) s = .next t ∧ s.othersKept p t ∧ (t.port p).pd.snkHr = true ∧
        (t.port p).pd.stgq = (s.port p).pd.stgq ∧ (t.port p).pd.slcq = (s.port p).pd.slcq ++ [.off]) ∧
    (s.works p = true → (s.port p).tc.isSnk = true → (s.port p).pd.snkHr = true → 4000 < vbc → s.sibAttached p = false →
      ∃ t, exec (.sinkHardResetVbusReturn p vbc) s = .next t ∧ (t.port p).pd.snk = .startup ∧ (t.port p).pd.snkHr = false ∧
        t.armed p .sinkWaitCap ∧ (t.port p).pd.slcq.getLast? = some .on) ∧
    (s.timerOn h p .sinkHardReset → (s.port p).tc.isSnk = true → (s.port p).pd.snkHr = true →
      ∃ t, exec (.sinkHardResetRecoveryExpiry h p) s = .next t ∧ (t.port p).tc.st = .selftest ∧
        (t.port p).pd.contract = none)

/-- R138, R147, R153, R155, R235, R239: inside a transition: the new target is commanded after tSrcTransition, PS_RDY follows the stage's
settling at it while the transition limit runs on, a sink put off requests again, and a sink in EPR mode keeps it alive. -/
def Obligations.TransitionSteps : Prop :=
  ∀ (s : State) (h : Hand) (p : Port) (c : Contract) (mv : Nat),
    (s.timerOn h p .srcTransition → (s.port p).pd.want = some c → (s.port p).pd.src = .transition →
      ∃ t, exec (.tsrctransitionExpiry h p) s = .next t ∧
        (t.port p).pd.stgq = (s.port p).pd.stgq ++ [.target c.mv] ∧ (t.port p).pd.src = .transition) ∧
    (s.works p = true → s.dev.stop = none → (s.port p).cfg.twin = false → (s.port p).stg.den = true →
      (s.port p).loop.auto = true →
      (s.port p).stg.ref = 1000 * ((s.port p).stg.target : Int) → inBand (s.port p).stg.kind (s.port p).stg.target mv = true →
      (s.port p).pd.want = some c → (s.port p).tc.isSrc = true → (s.port p).pd.src = .transition →
      s.live p .transitionLimit = true → s.live p .srcTransition = false → c.mv = (s.port p).stg.target →
      (s.port p).pd.stgq = [] → (s.port p).pd.holdTwin = false → (s.port p).pd.psRdyOut = false →
      ∃ t, exec (.settleReport p mv) s = .next t ∧ (t.port p).stg.settled = true ∧ t.lastTx p = some ⟨.sop, .psRdy, .psRdy⟩ ∧
        (t.port p).pd.psRdyOut = true ∧ t.live p .transitionLimit = true ∧ s.othersKept p t) ∧
    (s.timerOn h p .sinkRequest → (s.port p).tc.isSnk = true → (s.port p).pd.snk = .waited → (s.port p).pd.epr = .epr →
      ∃ t, exec (.tsinkrequestExpiry h p) s = .next t ∧ (t.port p).pd.snk = .select ∧ s.othersKept p t ∧
        t.lastTx p = some ⟨.sop, .request, .eprRequest (t.choose p).2⟩) ∧
    (s.timerOn h p .sinkEprKeepAlive → (s.port p).pd.epr = .epr →
      ∃ t, exec (.tsinkeprkeepaliveExpiry h p) s = .next t ∧ t.lastTx p = some ⟨.sop, .keepAlive, .eprKeepAlive⟩ ∧
        t.armed p .sinkEprKeepAlive ∧ s.othersKept p t)

/-- R139, R180 to R182: cable discovery: the first attempt after tVCONNStable, a further one after tDiscoverIdentity, what an ACK of a
passive cable sets, the answer on SOP″, and the end without an answer. That it has a machine and a version of its own beside the partner's is the
model's choice (log entry A41). -/
def Obligations.CableDiscovery : Prop :=
  ∀ (s : State) (h : Hand) (p : Port) (v : Vdm) (i : Identity),
    (s.timerOn h p .vconnStable → (s.port p).tc.isSrc = true → (s.port p).pd.cabled = false →
      ∃ t, exec (.tvconnstableExpiry h p) s = .next t ∧ s.othersKept p t ∧ (t.port p).vdm.cab = .cableSop1 ∧
        (t.port p).vdm.st = (s.port p).vdm.st ∧ (t.port p).vdm.tries = 1 ∧
        t.lastTx p = some ⟨.sop1, .cable, .vdm (discIdentityCmd (s.port p).vdm.cabVer)⟩) ∧
    (s.timerOn h p .discoverIdentity → (s.port p).vdm.cab = .cableSop1 →
      ∃ t, exec (.tdiscoveridentityExpiry h p) s = .next t ∧ s.othersKept p t ∧
        (t.port p).vdm.tries = (s.port p).vdm.tries + 1 ∧
        t.lastTx p = some ⟨.sop1, .cable, .vdm (discIdentityCmd (s.port p).vdm.cabVer)⟩) ∧
    (s.msgOn h p ⟨.sop1, .vdm v⟩ → (s.port p).vdm.cabAnswers .cableSop1 v = true → (s.port p).prot.unsent .cable = false → v.typ = .ack →
      v.body = .identity i → verOk v.ver = true → i.product = .passiveCable →
      ∃ t, exec (.cableDiscoverIdentityResponse h p) s = .next t ∧ s.othersKept p t ∧ (t.port p).pd.cable = cableOf i ∧
        (t.port p).vdm.cable = pidVid i ∧ (t.port p).pd.cabled = true) ∧
    (s.msgOn h p ⟨.sop2, .vdm v⟩ → v.typ ≠ .req → (s.port p).vdm.cabAnswers .cableSop2 v = true →
      (s.port p).prot.unsent .cable = false →
      ∃ t, exec (.sop2DiscoverIdentityResponse h p) s = .next t ∧ s.othersKept p t ∧ (t.port p).pd.cabled = true ∧
        (t.port p).pd.cable = (s.port p).pd.cable ∧ (t.port p).vdm.cab = .idle ∧ (t.port p).vdm.sop2 = some v) ∧
    (s.timerOn h p .cableLimit → (s.port p).pd.cabled = false → (s.port p).vdm.cab = .cableSop1 →
      ∃ t, exec (.cableDiscoveryTimeLimit h p) s = .next t ∧ s.othersKept p t ∧ (t.port p).pd.cabled = true ∧
        (t.port p).pd.cable = ⟨false, 0, 0, false⟩)

/-- R179, R183, R186: partner discovery and mode entry, step by step: each accepted answer to a command that has gone out sends the next one.
Twelve SVIDs with no zero at their end are asked for further, four times in all; then the first entry of the port's list whose SVID the
partner listed is asked for its modes, and with none listed there is no mode. Enter Mode's answer
reaches the mode, or DisplayPort's status and configuration come first. That ENTERED and VDM_EVT.ENTER set at the ACK of Enter Mode for
KIND 1 too is the model's choice (log entry A87). -/
def Obligations.PartnerDiscovery : Prop :=
  ∀ (s : State) (h : Hand) (p : Port) (v : Vdm) (i : Identity) (w : Word) (l : List (BitVec 16)) (q : ModeVdo)
      (k : List ModeVdo) (a b : List Nat) (e : Nat),
    (s.timerOn h p .partnerDiscovery → (s.port p).tc.isSrc = true → (s.port p).pd.src = .ready →
      ∃ t, exec (.partnerDiscoveryStart h p) s = .next t ∧ s.othersKept p t ∧ (t.port p).vdm.st = .discId ∧
        t.lastTx p = some ⟨.sop, .vdm, .vdm (discIdentityCmd (s.port p).vdm.ver)⟩) ∧
    (s.msgOn h p ⟨.sop, .vdm v⟩ → v.typ = .ack → verOk v.ver = true → (s.port p).vdm.answers v = true →
      (s.port p).prot.unsent .vdm = false →
      (v.cmd = .discIdentity → v.body = .identity i → (s.port p).vdm.awaits .discId = true →
        ∃ t, exec (.discoverIdentityAck h p) s = .next t ∧ s.othersKept p t ∧ (t.port p).vdm.id = pidVid i ∧
          (t.port p).vdm.st = .discSvid ∧ (t.port p).vdm.evt = setBit (s.port p).vdm.evt 0 ∧
          t.lastTx p = some ⟨.sop, .vdm, .vdm ⟨0xFF00#16, min (s.port p).vdm.ver v.ver, .discSvids, .req, 0, .none⟩⟩) ∧
      (v.cmd = .discSvids → (s.port p).vdm.awaits .discSvid = true → v.body = .svids l →
        (l.length = 12 → l.getLast? ≠ some 0#16 → (s.port p).vdm.rounds < 4 →
          ∃ t, exec (.discoverSvidsAck h p) s = .next t ∧ s.othersKept p t ∧ (t.port p).vdm.st = .discSvid ∧
            (t.port p).vdm.rounds = (s.port p).vdm.rounds + 1 ∧ (∀ x ∈ l, x ≠ 0#16 → x ∈ (t.port p).vdm.svids) ∧
            t.lastTx p = some ⟨.sop, .vdm, .vdm ⟨0xFF00#16, min (s.port p).vdm.ver v.ver, .discSvids, .req, 0, .none⟩⟩) ∧
        (l.length < 12 ∨ l.getLast? = some 0#16 ∨ 4 ≤ (s.port p).vdm.rounds →
          ((s.port p).vdm.left = a ++ e :: b → (∀ x ∈ a, s.listed p l x = false) → s.listed p l e = true →
            ∃ t, exec (.discoverSvidsAck h p) s = .next t ∧ s.othersKept p t ∧ (t.port p).vdm.st = .discModes ∧
              (t.port p).vdm.entry = e ∧ (t.port p).vdm.left = b ∧ t.lastTx p = some ⟨.sop, .vdm, .vdm
                ⟨(s.entryAt e).svid, min (s.port p).vdm.ver v.ver, .discModes, .req, 0, .none⟩⟩) ∧
          ((∀ x ∈ (s.port p).vdm.left, s.listed p l x = false) →
            ∃ t, exec (.discoverSvidsAck h p) s = .next t ∧ s.othersKept p t ∧ (t.port p).vdm.st = .noMode ∧
              (t.port p).vdm.evt = setBit (s.port p).vdm.evt 5))) ∧
      (v.cmd = .discModes → (s.port p).vdm.awaits .discModes = true → (s.entryOfVdm p).kind ≠ 1 → (s.entryOfVdm p).objPos = 1 →
        v.body = .modes (q :: k) →
        ∃ t, exec (.discoverModesAck h p) s = .next t ∧ s.othersKept p t ∧ (t.port p).vdm.st = .enter ∧
          t.lastTx p = some ⟨.sop, .vdm, .vdm ⟨(s.entryOfVdm p).svid, min (s.port p).vdm.ver v.ver, .enterMode, .req, 1, .none⟩⟩) ∧
      (v.cmd = .enterMode → (s.port p).vdm.awaits .enter = true →
        ∃ t, exec (.enterModeAck h p) s = .next t ∧ s.othersKept p t ∧ (t.port p).vdm.entered = true ∧
          (t.port p).vdm.evt = setBit (s.port p).vdm.evt 1 ∧
          (t.port p).vdm.st = (if (s.entryOfVdm p).kind = 1 then .dpStatus else .mode)) ∧
      (v.cmd = .dpStatus → v.body = .vdo w → (s.port p).vdm.awaits .dpStatus = true →
        ∃ t, exec (.dpStatusUpdateAck h p) s = .next t ∧ s.othersKept p t ∧ (t.port p).vdm.hpd = w.getLsbD 7 ∧
          (t.port p).vdm.st = .dpConfig) ∧
      (v.cmd = .dpConfigure → (s.port p).vdm.awaits .dpConfig = true → s.alm.cfg.altmode = true →
        ∃ t, exec (.dpConfigureAck h p) s = .next t ∧ s.othersKept p t ∧ (t.port p).vdm.st = .mode ∧
          t.mux = s.mux.issue ⟨h.val, p, t.nibble p⟩))

/-- R178, R180, R183: how a step fails: a NAK and an expired response timer end Discover Identity in NO_MODE; a cable's silence brings
the next attempt; BUSY makes the port wait and send again, at the version then in force; Enter Mode without an answer ends in NO_MODE when no entry is left.
R175, R176, R185, R187: Attention acts only for the entered mode; the low time of IRQ_HPD ends with the HPD State that stands;
every other command is answered NAK and an unstructured VDM Not_Supported. -/
def Obligations.VdmFailuresAndCommands : Prop :=
  (∀ (s : State) (h : Hand) (p : Port) (v c : Vdm),
     (s.msgOn h p ⟨.sop, .vdm v⟩ → v.typ = .nak → (s.port p).vdm.heeds v = true → (s.port p).prot.unsent .vdm = false →
       (s.port p).vdm.st = .discId →
       ∃ t, exec (.vdmNak h p) s = .next t ∧ s.othersKept p t ∧ (t.port p).vdm.st = .noMode ∧
         (t.port p).vdm.cnt = bump (s.port p).vdm.cnt 1) ∧
     (s.msgOn h p ⟨.sop, .vdm v⟩ → v.typ = .busy → (s.port p).vdm.heeds v = true → (s.port p).prot.unsent .vdm = false →
       (s.port p).vdm.busies < 3 →
       ∃ t, exec (.vdmBusy h p) s = .next t ∧ s.othersKept p t ∧ (t.port p).vdm.waiting = true ∧
         (t.port p).vdm.busies = (s.port p).vdm.busies + 1 ∧ t.armed p .vdmBusy) ∧
     (s.timerOn h p .vdmBusy → (s.port p).vdm.waiting = true → (s.port p).vdm.out = some c →
       ∃ t, exec (.tvdmbusyExpiry h p) s = .next t ∧ s.othersKept p t ∧ (t.port p).vdm.waiting = false ∧
         t.lastTx p = some ⟨(s.port p).vdm.st.sop, .vdm, .vdm { c with ver := (s.port p).vdm.ver }⟩) ∧
     (s.timerOn h p .cableResponse → (s.port p).vdm.cabOut.isSome = true → (s.port p).vdm.cabIntr = false →
       (s.port p).vdm.cab = .cableSop1 → (s.port p).vdm.tries < 3 →
       ∃ t, exec (.tvdmsenderresponseExpiry h p) s = .next t ∧ s.othersKept p t ∧ (t.port p).vdm.cabOut = none ∧
         t.armed p .discoverIdentity ∧ (t.port p).vdm.cnt = bump (s.port p).vdm.cnt 3) ∧
     (s.timerOn h p .vdmSenderResponse → (s.port p).vdm.out = some c → (s.port p).vdm.intr = false →
       (s.port p).vdm.st = .discId →
       ∃ t, exec (.tvdmsenderresponseExpiry h p) s = .next t ∧ s.othersKept p t ∧ (t.port p).vdm.st = .noMode ∧
         (t.port p).vdm.cnt = bump (s.port p).vdm.cnt 3) ∧
     (s.timerOn h p .vdmWaitModeEntry → (s.port p).vdm.awaits .enter = true → (s.port p).vdm.left = [] →
       ∃ t, exec (.tvdmwaitmodeentryExpiry h p) s = .next t ∧ s.othersKept p t ∧ (t.port p).vdm.st = .noMode ∧
         (t.port p).vdm.cnt = bump (s.port p).vdm.cnt 3)) ∧
  (∀ (s : State) (h : Hand) (p : Port) (v : Vdm) (w : Word),
     (s.msgOn h p ⟨.sop, .vdm v⟩ → v.typ = .req → v.cmd = .attention → verOk v.ver = true →
       ((s.port p).vdm.entered = true → v.svid = (s.entryOfVdm p).svid → v.objPos = (s.entryOfVdm p).objPos → v.body = .vdo w →
         (s.entryOfVdm p).kind = 2 →
         ∃ t, exec (.attention h p) s = .next t ∧ s.othersKept p t ∧ (t.port p).vdm.attn = w ∧
           (t.port p).vdm.hpd = w.getLsbD 0 ∧ (t.port p).vdm.evt = setBit (s.port p).vdm.evt 3) ∧
       ((s.port p).vdm.entered = false →
         ∃ t, exec (.attention h p) s = .next t ∧ s.othersKept p t ∧ (t.port p).vdm.cnt = bump (s.port p).vdm.cnt 5 ∧
           (t.port p).vdm.hpd = (s.port p).vdm.hpd)) ∧
     (s.timerOn h p .irqHpdLow → (s.port p).vdm.lowTime = true → (s.port p).vdm.lowIrq = false →
       ∃ t, exec (.irqHpdLowTimeEnd h p) s = .next t ∧ s.othersKept p t ∧ (t.port p).vdm.lowTime = false ∧
         (t.port p).vdm.hpd = (s.port p).vdm.lowHpd) ∧
     (s.msgOn h p ⟨.sop, .vdm v⟩ → v.typ = .req → v.cmd ≠ .attention → verOk v.ver = true →
       ∃ t, exec (.structuredVdmCommand h p) s = .next t ∧ s.othersKept p t ∧
         t.lastTx p = some ⟨.sop, .answer, .vdm ⟨v.svid, min (s.port p).vdm.ver v.ver, v.cmd, .nak, v.objPos, .none⟩⟩) ∧
     (s.msgOn h p ⟨.sop, .unstructuredVdm⟩ →
       ∃ t, exec (.unstructuredVdm h p) s = .next t ∧ s.othersKept p t ∧ t.lastTx p = some ⟨.sop, .answer, .notSupported⟩))

/-- R190, R192: a frame of the mux chain starts with what the arbiter grants in its window, or all zero when that is due, and its end
latches it. -/
def Obligations.MuxFrames : Prop :=
  ∀ (s : State) (r : MuxReq), s.dev.phase = .run → s.mux.busy = false →
    (s.mux.zero = false → s.mux.reqs = [r] → r.hand < 16 →
      ∃ t, exec .muxFrameStart s = .next t ∧ t = { s with mux := t.mux } ∧ t.mux.busy = true ∧ t.mux.reqs = [] ∧
        t.mux.next = s.mux.next.set r.port r.nib ∧ t.mux.latched = s.mux.latched ∧
        (∃ u, exec .muxFrameEnd t = .next u ∧ u = { s with mux := u.mux } ∧ u.mux.busy = false ∧ u.mux.latched = t.mux.next ∧
          u.mux.frames = satInc s.mux.frames)) ∧
    (s.mux.zero = true → s.dev.stop = none →
      ∃ t, exec .muxFrameStart s = .next t ∧ t = { s with mux := t.mux } ∧ t.mux.busy = true ∧
        t.mux.next = Vector.replicate 48 0#4)

/-- R113 to R116, R121, R126: a dowser frame and a thermistor reading: what they record, and the frame that follows.
R122 to R128: the connector cut and the die cut end every attachment that they bear on; the end of a cut frees the port when no
other guard condition holds; a notice of the guard makes a source in READY offer. That F at 0 without a cut, as with a P_MIN of 0, ends
the attachment the same way is the model's reading (log entry A99). -/
def Obligations.GuardReadingsAndCuts : Prop :=
  (∀ (s : State) (p : Port) (z ohm : Nat), s.works p = true → (s.port p).quiet = false →
     ((s.port p).cfg.dowser = true → (s.port p).grd.frame ≠ 0 → (s.port p).grd.ccFrame = none →
       ∃ t, exec (.dowserFrame p (.impedance z false)) s = .next t ∧
         (t.port p).grd.z = (if 2000 < z then 0xFFFF else z) ∧ (t.port p).grd.us = (s.port p).grd.us + 16000 ∧
         (t.port p).grd.frame = ((s.port p).grd.frame + 1) % 64 ∧ s.memKept t) ∧
     ((s.port p).cfg.ntc = true → ntcInBounds (s.port p).cfg.therm ohm = false → (s.port p).grd.ntcf = false →
       0 < (s.port p).cfg.therm.pMin → 0 < s.fDie p → (s.port p).grd.zeroF = false →
       ∃ t, exec (.ntcMeasure p ohm) s = .next t ∧ s.onlyPort p t ∧ (t.port p).grd.ntcf = true ∧
         (t.port p).grd.evt = setBit (s.port p).grd.evt 4 ∧ (t.port p).grd.ntcOk = 0) ∧
     ((s.port p).cfg.ntc = true → ntcInBounds (s.port p).cfg.therm ohm = true → (s.port p).grd.ntcf = false →
       (s.port p).grd.readings = [] →
       (s.port p).grd.zeroF = (decide (s.factor p = 0) && !(s.port p).grd.hot && !(s.port p).grd.dieHot) →
       ∃ t, exec (.ntcMeasure p ohm) s = .next t ∧ s.onlyPort p t ∧ (t.port p).grd.ntcf = false ∧
         (t.port p).grd.temp = ntcTemp (s.port p).cfg.therm ohm)) ∧
  (∀ (s : State) (p : Port) (d : Die) (h : Hand) (temp : Int) (k : Fin 8),
     (s.works p = true → (s.port p).quiet = false → (s.port p).tc.attached = true → (s.port p).cfg.ntc = true →
       (s.port p).grd.ntcf = false → (s.port p).grd.hot = false → 1000 * ((s.port p).cfg.therm.tCut : Int) ≤ (s.port p).grd.temp →
       ((s.port p).grd.lastSecond s.dev.aon).any (·.2.isSome) = true →
       ∃ t, exec (.thermalEvaluation p) s = .next t ∧ (t.port p).grd.hot = true ∧ (t.port p).tc.st = .guardOff ∧
         (t.port p).pd.contract = none ∧ (t.port p).pd.charge = 0) ∧
     (s.works p = true → (s.port p).quiet = false → (s.port p).tc.attached = true → (s.port p).cfg.ntc = true →
       (s.port p).grd.ntcf = false → (s.port p).grd.hot = false → (s.port p).grd.dieHot = false → (s.port p).grd.zeroF = false →
       (s.port p).grd.temp < 1000 * ((s.port p).cfg.therm.tCut : Int) → fNtcOf (s.port p).cfg.therm (s.port p).grd.temp = 0 →
       ∃ t, exec (.thermalEvaluation p) s = .next t ∧ (t.port p).grd.zeroF = true ∧ (t.port p).grd.hot = false ∧
         (t.port p).tc.st = .guardOff ∧ (t.port p).pd.contract = none) ∧
     (s.running = true → 10 * (s.alm.cfg.dieCut : Int) ≤ temp → s.grd.dies[Die.idx d].cut = false →
       ∃ t, exec (.dieTempReport d k temp) s = .next t ∧ t.grd.dies[Die.idx d].cut = true ∧
         t.grd.dies[Die.idx d].temp = temp ∧ t.grd.cutCnt = satInc s.grd.cutCnt ∧
         ∀ q, dieHits d q = true → (s.port q).live = true → s.lost q = false → (t.port q).tc.attached = false) ∧
     ((s.port p).grd.hot = true → (s.port p).grd.ntcf = false → (s.port p).grd.hotBelow ≠ none → (s.port p).tc.st = .guardOff →
       (s.port p).grd.wet = false → (s.port p).grd.flood = false → (s.port p).grd.dieHot = false → (s.port p).grd.zeroF = false →
       (s.port p).grd.fNtc ≠ 0 → s.fDie p ≠ 0 →
       ∃ t, exec (.cutClear (.connector p)) s = .next t ∧ s.onlyPortYard p t ∧ (t.port p).grd.hot = false ∧
         (t.port p).tc.st = unattOf (s.port p).cfg.role) ∧
     (s.grd.dies[Die.idx d].cut = true → s.grd.dies[Die.idx d].below ≠ none →
       ∃ t, exec (.cutClear (.die d)) s = .next t ∧ t.grd.dies[Die.idx d].cut = false ∧ t.grd.dies[Die.idx d].below = none ∧
         s.memKept t) ∧
     (s.handOn h p .guard → (s.port p).grd.notice = true → (s.port p).tc.isSrc = true → (s.port p).pd.src = .ready →
       ∃ t, exec (.guardNotice h p) s = .next t ∧ (t.port p).pd.src = .sendCaps ∧ (t.port p).grd.notice = false ∧
         s.othersKept p t))

/-- R129 to R133: a request that finds one of its port's own 128 records becomes a ready event with the time of its acceptance; an
expiry asks for one; a free hand takes class 0 before every other event, its home ports before others, and the lowest
class first. -/
def Obligations.YardAndHands : Prop :=
  ∀ (s : State) (p : Port) (r : YardReq) (x : TimerRec) (h : Hand) (y z : YardRec),
    (s.running = true → s.hnd.reqs = [r] → r.from' < 64 → r.port = some p → (match r.ev with | .timer _ _ => false | _ => true) = true →
      s.hnd.ownUsed p < 128 → (∀ y ∈ s.hnd.timers, y.place ≠ none) →
      ∃ t, exec .yardEventAccept s = .next t ∧ t = { s with hnd := t.hnd } ∧ t.hnd.reqs = [] ∧
        t.hnd.ready = s.hnd.ready ++ [⟨r.port, r.cls, r.ev, false, BitVec.ofNat 24 s.dev.us, false⟩] ∧
        t.hnd.ptr = (r.from' + 1) % 64) ∧
    (s.running = true → s.hnd.timers = [x] → x.place ≠ none → s.hnd.reqs = [] →
      ∃ t, exec (.yardTimerExpiry x.port x.id) s = .next t ∧ reached t.dev.us x.expiry = true ∧
        t.hnd.reqs = [⟨50, some x.port, 2, .timer x.id x.tag, false⟩] ∧ t.ports = s.ports) ∧
    (s.hnd.choose h = some y → y ∈ s.hnd.ready ∧
      (z ∈ s.hnd.ready → z.cls = 0 → y.cls = 0) ∧
      (z ∈ s.hnd.ready → y.cls ≠ 0 → (∃ q, z.port = some q ∧ homeHand q = h.val) →
        (∃ q, y.port = some q ∧ homeHand q = h.val) ∧ y.cls ≤ z.cls)) ∧
    (s.hnd.choose h = none → s.hnd.ready = [])

/-- R304, R315, R317: a metering sample, read with SHUNT and the correction in force, adds its energy and charge in their direction, and
the hundredth takes the averages; a billing clear that waits zeroes the port's counters after the sample and raises EPOCH. That it acts
after the sample's own update, and the truncation of the averages, are the model's choice (log entries A51, A59). -/
def Obligations.MeteringSample : Prop :=
  ∀ (s : State) (p : Port) (m : List MetSample) (x : MetSample) (r : Reading), s.running = true → s.lost p = false →
    m[p.val]? = some x → r = readSample x (s.port p).cfg.shunt (s.prefOf p) →
    ∃ t, exec (.meteringSample m) s = .next t ∧ t.mtr.clears = [] ∧
      t.mtr.nSamp = (if s.mtr.nSamp = 99 then 0 else s.mtr.nSamp + 1) ∧ t.trough = s.trough ∧
      (p ∉ s.mtr.clears →
        (t.port p).met.eOut = (if 0 < r.e then satE ((s.port p).met.eOut + r.e.toNat) else (s.port p).met.eOut) ∧
        (t.port p).met.eIn = (if r.e < 0 then satE ((s.port p).met.eIn + (-r.e).toNat) else (s.port p).met.eIn) ∧
        (t.port p).met.cOut = (if 0 < r.i then satC ((s.port p).met.cOut + chargeOf r.i.natAbs) else (s.port p).met.cOut) ∧
        (t.port p).met.epoch = (s.port p).met.epoch ∧ (t.port p).slc = (s.port p).slc ∧
        (s.mtr.nSamp = 99 → (t.port p).met.vbc = ((s.port p).met.sVbc + r.vbc) / 100)) ∧
      (s.mtr.clears = [p] → (t.port p).met.eOut = 0 ∧ (t.port p).met.cOut = 0 ∧ (t.port p).met.onMs = 0 ∧
        (t.port p).met.epoch = ((s.port p).met.epoch + 1) % 65536)

/-- R307 to R310: a slot of background calibration: the relief modulator converts beside and then in place of the working one, a result
near the one in force or near the one rejected last is taken, any other is rejected and reported, and slot 24 tells whether the relief
modulator itself passes.
R313, R314, R326: PREF_IN anchors a die inside ±0.5 % of 2.5 V and holds its correction outside; a sample of the hold-up capacitor
joins the last eleven. The moment of PREF_IN's conversion in every tenth cycle (log entry A52) and the report of RELF at each failure
(A75) are the model's choice. -/
def Obligations.Calibration : Prop :=
  (∀ (s : State) (g : Group) (o k : Int) (pass : Bool) (p : Port) (i : Fin 3), s.calRuns g = true →
     (s.mtr.grp[g].beside = false → s.mtr.grp[g].slot < 24 →
       ∃ t, exec (.calSlotStart g) s = .next t ∧ t.ports = s.ports ∧ (if s.mtr.grp[g].relf then
         t.mtr.grp[g] = { s.mtr.grp[g] with slot := s.mtr.grp[g].slot + 1 } else t.mtr.grp[g] = { s.mtr.grp[g] with beside := true })) ∧
     (p = slotPort g s.mtr.grp[g].slot → i = slotMod s.mtr.grp[g].slot →
       (s.mtr.grp[g].beside = true → s.mtr.grp[g].standIn = false → s.mtr.grp[g].slot < 24 →
         ∃ t, exec (.reliefSwitchIn g) s = .next t ∧ t.mtr.grp[g].standIn = true ∧ (t.port p).met.mods[i].aside = true ∧
           s.othersKept p t) ∧
       (s.mtr.grp[g].standIn = true →
         (calNear (o, k) ((s.port p).met.mods[i].off, (s.port p).met.mods[i].gain) = true →
           ∃ t, exec (.calResult g o k) s = .next t ∧ s.onlyPort p t ∧ (t.port p).met.mods[i].off = o ∧
             (t.port p).met.mods[i].gain = k ∧ (t.port p).met.mods[i].stale = false) ∧
         (calNear (o, k) ((s.port p).met.mods[i].off, (s.port p).met.mods[i].gain) = false →
           (s.port p).met.mods[i].rej = none →
           ∃ t, exec (.calResult g o k) s = .next t ∧ s.othersKept p t ∧
             (t.port p).met.mods[i].off = (s.port p).met.mods[i].off ∧ (t.port p).met.mods[i].rej = some (o, k) ∧
             (t.port p).met.evt = setBit (s.port p).met.evt 1 ∧ t.mtr.evt = setBit s.mtr.evt 5) ∧
         (∀ (r : Int × Int), calNear (o, k) ((s.port p).met.mods[i].off, (s.port p).met.mods[i].gain) = false →
           (s.port p).met.mods[i].rej = some r →
           (calNear (o, k) r = true →
             ∃ t, exec (.calResult g o k) s = .next t ∧ s.onlyPort p t ∧ (t.port p).met.mods[i].off = o ∧
               (t.port p).met.mods[i].gain = k ∧ (t.port p).met.mods[i].rej = none) ∧
           (calNear (o, k) r = false →
             ∃ t, exec (.calResult g o k) s = .next t ∧ s.othersKept p t ∧
               (t.port p).met.mods[i].off = (s.port p).met.mods[i].off ∧
               (t.port p).met.mods[i].gain = (s.port p).met.mods[i].gain ∧ (t.port p).met.mods[i].rej = some (o, k) ∧
               (t.port p).met.evt = setBit (s.port p).met.evt 1 ∧ t.mtr.evt = setBit s.mtr.evt 5)) ∧
         (∃ t, exec (.reliefSwitchBack g) s = .next t ∧ t.mtr.grp[g].standIn = false ∧
           t.mtr.grp[g].slot = s.mtr.grp[g].slot + 1 ∧ (t.port p).met.mods[i].aside = false ∧ s.othersKept p t))) ∧
     (s.mtr.grp[g].beside = true → s.mtr.grp[g].slot = 24 →
       ∃ t, exec (.reliefCalibration g pass) s = .next t ∧ t.mtr.grp[g].slot = 0 ∧ t.mtr.grp[g].relf = !pass ∧
         t.ports = s.ports ∧ t.mtr.evt = (if pass then s.mtr.evt else setBit s.mtr.evt 4)) ∧
     (∃ t, exec (.calstale p .vbc) s = .next t ∧ s.onlyPort p t ∧ (t.port p).met.mods[1].stale = true)) ∧
  (∀ (s : State) (uv mv : Nat),
     (s.calRuns (prefGroup .w0) = true → s.alm.cfg.pref = true → s.mtr.grp[prefGroup .w0].beside = true →
       s.mtr.grp[prefGroup .w0].slot = 24 → s.mtr.grp[prefGroup .w0].cycles % 10 = 9 →
       (uv < 2487500 ∨ 2512500 < uv →
         ∃ t, exec (.prefMeasure .w0 uv) s = .next t ∧ t.mtr.pref0.ppm = s.mtr.pref0.ppm ∧ t.mtr.pref0.bad = true ∧
           t.ports = s.ports ∧ t.mtr.evt = setBit s.mtr.evt 3) ∧
       (2487500 ≤ uv → uv ≤ 2512500 → s.mtr.pref0.bad = false → s.mtr.pref0.first = false →
         ∃ t, exec (.prefMeasure .w0 uv) s = .next t ∧ (t.mtr.pref0.ppm - s.mtr.pref0.ppm).natAbs ≤ 50 ∧
           t.mtr.pref1 = s.mtr.pref1 ∧ t.mtr.evt = s.mtr.evt)) ∧
     (s.heard = true → s.mtr.holdMv.length < 11 →
       ∃ t, exec (.holdSnsSample mv) s = .next t ∧ t = { s with mtr := t.mtr } ∧ t.mtr.holdMv = s.mtr.holdMv ++ [mv]))

/-- R317, R319, R327: what asks for a record, and how a record starts: the most urgent kind is taken when the hold-up check passes;
otherwise it is reported, and only interval and billing clear records wait for the next check.
R320 to R322, R324: the writer: eight page programs, a comparison that ends the record or sends it to the next slot, and the erase
of the block ahead; that an erase which falls due while another goes on follows it is the model's choice (log entry A52). -/
def Obligations.Tallies : Prop :=
  (∀ (s : State) (k : TallyKind) (p : Port) (w : Word),
     (slice w 24 8 = 0xC1 → slice w 0 6 = p.val → s.served = true → s.twi.commits = [] → s.alm.cfg.tallyEn = true →
       s.mtr.reqs = [] →
       ∃ t, exec (.billingClear w) s = .next t ∧ p ∈ t.mtr.clears ∧ (∀ q ∈ s.mtr.clears, q ∈ t.mtr.clears) ∧
         t.mtr.reqs = [.clear] ∧ t.ports = s.ports) ∧
     (s.running = true → 0 < s.alm.cfg.interval → s.alm.cfg.tallyEn = true → s.mtr.reqs = [] →
       ∃ t, exec .tallyInterval s = .next t ∧ t = { s with mtr := t.mtr } ∧ t.mtr.reqs = [.interval]) ∧
     (s.writerFree = true → urgent s.mtr.reqs = some k → s.holdOk = true →
       (s.mtr.recheck = false →
         ∃ t, exec .tallyRecordStart s = .next t ∧ t = { s with mtr := t.mtr } ∧ t.mtr.reqs = [] ∧
           t.mtr.job = some ⟨k, false, 0, s.mtr.tseq + 1⟩) ∧
       (s.mtr.recheck = true →
         ∃ t, exec .holdupRecheck s = .next t ∧ t.mtr.job = some ⟨k, false, 0, s.mtr.tseq + 1⟩ ∧ t.mtr.recheck = false)) ∧
     (s.writerFree = true → urgent s.mtr.reqs = some k → s.holdOk = false → s.mtr.recheck = false →
       ∃ t, exec .tallyRecordStart s = .next t ∧ t.mtr.job = none ∧ t.mtr.evt = setBit s.mtr.evt 1 ∧
         t.mtr.reqs = s.mtr.reqs.filter fun r => decide (r = .interval) || decide (r = .clear))) ∧
  (∀ (s : State) (j : TallyJob) (b : Nat),
     (s.mtr.job = some j → j.snap = true → j.pages < 8 →
       ∃ t, exec .pageProgramDone s = .next t ∧
         t = { s with mtr := t.mtr, alm := { s.alm with flashPtr := t.alm.flashPtr } } ∧ t.mtr.job = some { j with pages := j.pages + 1 }) ∧
     (s.mtr.job = some j → j.pages = 8 →
       (∃ t, exec (.tallyReadback true) s = .next t ∧ t.mtr.job = none ∧ t.mtr.tseq = j.seq ∧
         t.alm.talPtr = (s.alm.talPtr + 1) % max s.slots 1 ∧ t.mtr.evt = setBit s.mtr.evt 0 ∧ t.ports = s.ports) ∧
       (∃ t, exec (.tallyReadback false) s = .next t ∧ t.mtr.job = none ∧ t.mtr.tseq = s.mtr.tseq ∧ j.kind ∈ t.mtr.reqs ∧
         t.alm.talPtr = (s.alm.talPtr + 1) % max s.slots 1 ∧ t.mtr.evt = setBit s.mtr.evt 2)) ∧
     (s.mtr.erase = some b → s.mtr.suspended = false →
       ∃ t, exec .blockEraseDone s = .next t ∧ t.mtr.erase = s.mtr.eraseDue ∧ t.mtr.firstDone = true ∧
         t.ports = s.ports))

/-- R364, R371, R376: the conditions of the input supervisor set and clear at their thresholds; PFW_N follows WRN.
R365 to R368, R372: the hand-over to the reserve, gate by gate, and the return by qualification or by emergency, gate by gate too.
R333, R354: a report of a hand-over puts the reserve profile in force: BORROWED falls to 0 and open requests are given up.
That VSB is seen to stand when a threshold of it clears is the model's choice (log entry A92). -/
def Obligations.InputSupervisor : Prop :=
  (∀ (s : State) (v : Nat),
     (v < s.sup.cfg.vWrn → ∃ t, exec (.wrnSet v) s = .next t ∧ t.sup.wrn = true ∧ t.sup.pfw = true ∧ t.sup.inA = v ∧
       t.ports = s.ports) ∧
     (s.sup.wrn = true → s.sup.st = .normal → s.sup.cfg.vWrn + s.sup.cfg.vWrnHys < v →
       ∃ t, exec (.wrnClear v) s = .next t ∧ t.sup.wrn = false ∧ t.sup.pfw = false ∧ t.ports = s.ports) ∧
     (v < s.sup.cfg.vbMin → ∃ t, exec (.rsvLowSet v) s = .next t ∧ t.sup.rsvLow = true ∧ t.sup.inB = v ∧ t.ports = s.ports) ∧
     (s.sup.cfg.vbMin + 100 < v → ∃ t, exec (.rsvLowClear v) s = .next t ∧ t.sup.rsvLow = false ∧ t.sup.inB = v) ∧
     (s.sup.st = .reserve → s.sup.qual = none → s.sup.rsvLow = false → s.sup.cfg.vRtn < v →
       ∃ t, exec (.qualStart v) s = .next t ∧ t.sup.qual = some s.sup.now ∧ t.sup.st = .reserve) ∧
     (v ≤ s.sup.cfg.vRtn → ∃ t, exec (.qualBreak v) s = .next t ∧ t.sup.qual = none) ∧
     (s.sup.cfg.vHo < v → ∃ t, exec (.hoRequestClear v) s = .next t ∧
       t = { s with sup := t.sup, dev := { s.dev with vsb := true } } ∧ t.sup.hoReq = false) ∧
     (s.sup.bow = false → ∃ t, exec .brownOutWarning s = .next t ∧ t.sup.bow = true ∧ t.ports = s.ports ∧
       (s.heard = true → t.sup.evt = setBit s.sup.evt 7)) ∧
     (∃ t, exec .brownOutClear s = .next t ∧
       t = { s with sup := { s.sup with bow := false }, dev := { s.dev with vsb := true } })) ∧
  (∀ (s : State) (v us : Nat) (slow : Bool),
     (s.sup.st = .normal → s.sup.hoReq = false → s.sup.cfg.fitted = true → s.sup.rsvLow = false → v < s.sup.cfg.vHo →
       ∃ t, exec (.hoRequest v) s = .next t ∧ t.sup.st = .hoRun ∧ t.sup.gb = true ∧ t.sup.ga = s.sup.ga ∧ t.sup.wrn = true ∧
         t.ports = s.ports) ∧
     (s.sup.st = .normal → s.sup.hoReq = false → s.sup.cfg.fitted = false ∨ s.sup.rsvLow = true → v < s.sup.cfg.vHo →
       ∃ t, exec (.hoRequest v) s = .next t ∧ t.sup.st = .normal ∧ t.sup.hoReq = true ∧ t.sup.ga = s.sup.ga ∧
         t.sup.gb = s.sup.gb) ∧
     (s.sup.st = .hoRun → s.sup.ga = true →
       ∃ t, exec (.hoGateCheck slow) s = .next t ∧ t.sup.ga = false ∧ t.sup.gb = s.sup.gb ∧ t.sup.st = .hoRun) ∧
     (s.sup.st = .hoRun → s.sup.ga = false → s.sup.rsvLow = false →
       ∃ t, exec (.hoComplete us) s = .next t ∧ t.sup.st = .reserve ∧ t.sup.hoUs = us ∧
         t.sup.reports = s.sup.reports ++ [true] ∧ t.ports = s.ports) ∧
     (s.sup.st = .reserve → s.sup.qual ≠ none →
       ∃ t, exec .qualComplete s = .next t ∧ t.sup.st = .rtnRun ∧ t.sup.ga = true ∧ t.sup.gb = s.sup.gb) ∧
     (s.sup.st = .reserve → s.sup.rsvLow = true → s.sup.cfg.vHo < v →
       ∃ t, exec (.emergencyReturn v) s = .next t ∧ t.sup.st = .rtnRun ∧ t.sup.ga = true ∧ t.sup.gb = s.sup.gb) ∧
     (s.sup.st = .rtnRun → s.sup.gb = true →
       ∃ t, exec (.rtnGateCheck slow) s = .next t ∧ t.sup.gb = false ∧ t.sup.ga = s.sup.ga ∧ t.sup.st = .rtnRun) ∧
     (s.sup.st = .rtnRun → s.sup.gb = false → s.sup.hoReq = false →
       ∃ t, exec (.rtnComplete us) s = .next t ∧ t.sup.st = .normal ∧ t.sup.rtnUs = us ∧
         t.sup.reports = s.sup.reports ++ [false]) ∧
     (s.sup.wrn = true → s.sup.dipSent = false → s.sup.cfg.alert = true → s.heard = true → s.running = true →
       ∃ t, exec .wrnAlert s = .next t ∧ t.sup.dipSent = true ∧ t.hnd.reqs = s.hnd.reqs ++ [⟨48, none, 3, .crier .dip, false⟩] ∧
         t.ports = s.ports)) ∧
  (∀ (s : State) (l : List Bool), s.running = true → s.heard = true →
     (s.sup.reports = true :: l → s.cis.reserve = false →
       ∃ t, exec .profileChange s = .next t ∧ t.sup.reports = l ∧ t.cis.reserve = true ∧ t.borrowed = 0 ∧
         (∀ e, t.openReq e = none) ∧ t.homeNow = s.alm.cfg.resHome ∧ t.lent = s.lent) ∧
     (s.sup.reports = false :: l → s.cis.reserve = true →
       ∃ t, exec .profileChange s = .next t ∧ t.cis.reserve = false ∧ t.homeNow = s.alm.cfg.home ∧ t.borrowed = s.borrowed))

/-- R341 to R344, R360: the states of a link port: a first HELLO with a common version brings UP, one from the same side MISWIRE and
one without a common version RELAY; a silent partner brings SEEK, an announced sleep ASLEEP and the next HELLO UP again; the HELLO timer sends the port's own HELLO,
and a link reset starts the port afresh.
R339, R340, R360, R361: the transport: an ACK of the frame in flight lets the next go with the next sequence number; without one the
frame goes again, four times in all, and is abandoned, the audit token once more behind a wake burst (log entry A98); a repeated frame is acknowledged and does nothing else; a dropped one is
counted. That a HELLO brings a port in ASLEEP back to UP at once is the model's choice (log entry A53). -/
def Obligations.LinkPorts : Prop :=
  (∀ (s : State) (d : LinkSide) (k : LinkHdr) (f : Hello) (v ms : Nat), s.linkRuns = true →
     ((s.side (LinkSide.isEast d)).st = .seek → f.sideEast ≠ LinkSide.isEast d → (s.side (LinkSide.isEast d)).partner = none →
       (commonVer s.alm.cfg.protoMax f = some v →
         ∃ t, exec (.hello d k f) s = .next t ∧ (t.side (LinkSide.isEast d)).st = .up ∧ (t.side (LinkSide.isEast d)).ver = v ∧
           (t.side (LinkSide.isEast d)).partner = some (f.uid, f.tag) ∧
           t.lnk.evt.getLsbD (if LinkSide.isEast d then 1 else 0) = true ∧ t.ports = s.ports) ∧
       (commonVer s.alm.cfg.protoMax f = none →
         ∃ t, exec (.hello d k f) s = .next t ∧ (t.side (LinkSide.isEast d)).st = .relay ∧ t.lnk.evt.getLsbD 9 = true ∧
           t.ports = s.ports)) ∧
     ((s.side (LinkSide.isEast d)).st = .seek → f.sideEast = LinkSide.isEast d →
       ∃ t, exec (.hello d k f) s = .next t ∧ (t.side (LinkSide.isEast d)).st = .miswire ∧ t.ports = s.ports) ∧
     ((s.side (LinkSide.isEast d)).isLinked = true →
       ∃ t, exec (.linkPartnerLost d) s = .next t ∧ (t.side (LinkSide.isEast d)).st = .seek ∧
         t.lnk.evt.getLsbD (if LinkSide.isEast d then 3 else 2) = true ∧ t.cis.loans = s.cis.loans) ∧
     (s.frameOn d k →
       ∃ t, exec (.sleep d k ms) s = .next t ∧ (t.side (LinkSide.isEast d)).st = .asleep ∧
         (t.side (LinkSide.isEast d)).partnerSleep = some ms ∧ (t.side (LinkSide.isEast d)).line = some (.ack k.seq)) ∧
     ((s.side (LinkSide.isEast d)).st = .asleep → (s.side (LinkSide.isEast d)).closed = false →
       (s.side (LinkSide.isEast d)).partner = some (f.uid, f.tag) → f.sideEast ≠ LinkSide.isEast d →
       commonVer s.alm.cfg.protoMax f = some v →
       ∃ t, exec (.hello d k f) s = .next t ∧ (t.side (LinkSide.isEast d)).st = .up ∧
         (t.side (LinkSide.isEast d)).partnerSleep = none ∧ t.cis.loans = s.cis.loans) ∧
     ((s.side (LinkSide.isEast d)).st ≠ .isolated → (s.side (LinkSide.isEast d)).st ≠ .asleep →
       ∃ t, exec (.helloTimer d) s = .next t ∧ t = { s with lnk := t.lnk } ∧
         (t.side (LinkSide.isEast d)).line = some (s.ownHello (LinkSide.isEast d)) ∧
         (t.side (LinkSide.isEast d)).txq = (s.side (LinkSide.isEast d)).txq) ∧
     (s.served = true → s.dev.unlock = true → s.twi.commits = [] → s.inUse (LinkSide.isEast d) = true →
       (s.side (LinkSide.isEast d)).st = .up →
       ∃ t, exec (.linkReset d) s = .next t ∧ (t.side (LinkSide.isEast d)).st = .seek ∧
         (t.side (LinkSide.isEast d)).rxSeq = none ∧ (t.side (LinkSide.isEast d)).cnt = Vector.replicate 6 0#32 ∧
         t.ports = s.ports)) ∧
  (∀ (s : State) (d : LinkSide) (k : LinkHdr) (f : LinkFrame) (q : List LinkFrame) (ms : Nat), s.linkRuns = true →
     ((s.side (LinkSide.isEast d)).txq = f :: q → 0 < (s.side (LinkSide.isEast d)).att →
       (match f with | .sleep _ => false | _ => true) = true →
       (∃ t, exec (.ack d (s.side (LinkSide.isEast d)).txSeq) s = .next t ∧ t = { s with lnk := t.lnk } ∧
         (t.side (LinkSide.isEast d)).txq = q ∧ (t.side (LinkSide.isEast d)).txSeq = (s.side (LinkSide.isEast d)).txSeq + 1#4) ∧
       ((s.side (LinkSide.isEast d)).att < 4 →
         ∃ t, exec (.linkAckTimeout d) s = .next t ∧ t = { s with lnk := t.lnk } ∧
           (t.side (LinkSide.isEast d)).att = (s.side (LinkSide.isEast d)).att + 1 ∧ (t.side (LinkSide.isEast d)).txq = f :: q) ∧
       (4 ≤ (s.side (LinkSide.isEast d)).att →
         ((match f with | .audit _ => false | _ => true) = true ∨ (s.side (LinkSide.isEast d)).tokAgain = true →
           ∃ t, exec (.linkAckTimeout d) s = .next t ∧ t = { s with lnk := t.lnk } ∧ (t.side (LinkSide.isEast d)).txq = q) ∧
         ((match f with | .audit _ => true | _ => false) = true → (s.side (LinkSide.isEast d)).tokAgain = false →
           ∃ t, exec (.linkAckTimeout d) s = .next t ∧ t = { s with lnk := t.lnk } ∧
             (t.side (LinkSide.isEast d)).txq = f :: q ∧ (t.side (LinkSide.isEast d)).burst = true ∧
             (t.side (LinkSide.isEast d)).cnt = bump (s.side (LinkSide.isEast d)).cnt 4))) ∧
     ((s.side (LinkSide.isEast d)).isLinked = true → (s.side (LinkSide.isEast d)).rxSeq = some k.seq →
       ∃ t, exec (.sleep d k ms) s = .next t ∧
         t = (s.onSide (LinkSide.isEast d) fun l => { l with line := some (.ack k.seq) }).heardOn (LinkSide.isEast d)) ∧
     ((s.side (LinkSide.isEast d)).st ≠ .isolated →
       ∃ t, exec (.linkFrameDropped d .crc) s = .next t ∧
         t = s.onSide (LinkSide.isEast d) fun l => { l with cnt := bump l.cnt 0 }) ∧
     ((s.side (LinkSide.isEast d)).burst = true → (s.side (LinkSide.isEast d)).txq = [f] →
       ∃ t, exec (.wakeBurstEnd d) s = .next t ∧ (t.side (LinkSide.isEast d)).burst = false ∧
         0 < (t.side (LinkSide.isEast d)).att ∧ t = { s with lnk := t.lnk }))

/-- R347, R348, R354: a request is granted from the spare with a record in the loan table, and refused on the reserve; what the spare does not
cover goes on to the other neighbour, or waits while a request is open there; a grant of the
cistern's own request is borrowed and closes it; a refusal, or the time's end, closes a request that obtained nothing and reports it. That a
request waits for the port on which it is to go out is the model's choice (log entry A54). -/
def Obligations.LoansMade : Prop :=
  ∀ (s : State) (d : LinkSide) (k : LinkHdr) (i : Fin 32) (r : LoanReq) (reqId xid loanId : BitVec 16) (amount hops ms : Nat),
    (s.loanOn d k → s.freeLoan = some i → s.cis.reserve = false → 0 < amount → amount ≤ s.spare →
      ∃ t, exec (.req d k reqId amount hops) s = .next t ∧ t.lent = s.lent + amount ∧ (t.loan i).valid = true ∧
        (t.loan i).lent = true ∧ (t.loan i).amount = amount ∧ (t.loan i).id = s.cis.nextLoan ∧
        t.lastFrame (LinkSide.isEast d) = some (.grant reqId ((s.side (LinkSide.isEast d)).xidTx + 1#16) s.cis.nextLoan amount
          (1000 * s.alm.cfg.lease))) ∧
    (s.loanOn d k → s.freeLoan = some i → s.cis.reserve = false → s.spare < amount → hops < s.alm.cfg.hops →
      s.sideUp (!LinkSide.isEast d) = true →
      ∃ t, exec (.req d k reqId amount hops) s = .next t ∧ t.lent = s.lent + s.spare ∧
        (if s.openReq (!LinkSide.isEast d) = none then
          t.openReq (!LinkSide.isEast d) = some ⟨s.cis.nextReq, amount - s.spare, 0, hops + 1, true, false, some reqId⟩ ∧
          t.lastFrame (!LinkSide.isEast d) = some (.req s.cis.nextReq (amount - s.spare) (hops + 1))
         else t.openReq (!LinkSide.isEast d) = s.openReq (!LinkSide.isEast d) ∧ t.cis.relays =
          s.cis.relays ++ [⟨!LinkSide.isEast d, amount - s.spare, hops + 1, reqId, decide (0 < s.spare)⟩])) ∧
    (s.loanOn d k → s.cis.reserve = true →
      ∃ t, exec (.req d k reqId amount hops) s = .next t ∧ t.cis = s.cis ∧ t.ports = s.ports ∧
        t.lastFrame (LinkSide.isEast d) = some (.refuse reqId)) ∧
    (s.loanOn d k → s.freeLoan = some i → s.cis.reserve = false → s.openReq (LinkSide.isEast d) = some r → r.reqId = reqId →
      r.up = none → r.amount ≤ r.got + amount → s.cis.short = 0 → (∀ x ∈ s.cis.relays, x.east ≠ LinkSide.isEast d) →
      ∃ t, exec (.grant d k reqId xid loanId amount ms) s = .next t ∧ t.borrowed = s.borrowed + amount ∧
        t.openReq (LinkSide.isEast d) = none ∧ (t.loan i).valid = true ∧ (t.loan i).lent = false ∧ (t.loan i).id = loanId ∧
        (t.side (LinkSide.isEast d)).xidRx = xid) ∧
    (s.openReq (LinkSide.isEast d) = some r → r.up = none → r.second = true → r.got = 0 → r.any = false → s.cis.short = 0 →
      s.cis.rest = none → (∀ x ∈ s.cis.relays, x.east ≠ LinkSide.isEast d) →
      (s.loanOn d k → r.reqId = reqId →
        ∃ t, exec (.refuse d k reqId) s = .next t ∧ t.openReq (LinkSide.isEast d) = none ∧
          t.cis.evt = setBit s.cis.evt 3 ∧ t.ports = s.ports) ∧
      (s.linkRuns = true →
        ∃ t, exec (.loanRequestTimeout d) s = .next t ∧ t.openReq (LinkSide.isEast d) = none ∧
          t.cis.evt = setBit s.cis.evt 3 ∧ t.ports = s.ports))

/-- R349, R350: the ends of a loan that stands alone: a LAPSE of all of it frees the lender's record, the borrower's lease end sends one and
frees the borrower's record, and the lender frees its own a second after the lease when none has come. A relay whose outgoing lease ends so
lapses the incoming loan too.
R351 to R353: the renewal of a loan that stands alone: the lender offers what its spare still allows, the borrower keeps the lower of
that and what it needs and says so, the lender takes that over; without a RENEW the borrower counts on 0, and T_SHED before the end what lapses then
counts into the deficit. -/
def Obligations.LoansRenewedAndEnded : Prop :=
  (∀ (s : State) (d : LinkSide) (k : LinkHdr) (i : Fin 32) (xid loanId : BitVec 16) (amount : Nat), (s.loan i).relay = false →
     (s.loanOn d k → s.findLoan true (LinkSide.isEast d) loanId = some i → (s.loan i).amount ≤ amount →
       ∃ t, exec (.lapse d k xid loanId amount) s = .next t ∧ (t.loan i).valid = false ∧ ∀ j, j ≠ i → t.loan j = s.loan j) ∧
     (s.linkRuns = true → s.carries (s.loan i).east = true → (s.loan i).valid = true → (s.loan i).lent = false → (s.loan i).kept = 0 →
       ∃ t, exec (.borrowerLeaseEnd i) s = .next t ∧ (t.loan i).valid = false ∧ (∀ j, j ≠ i → t.loan j = s.loan j) ∧
         t.lastFrame (s.loan i).east = some (.lapse ((s.side (s.loan i).east).xidTx + 1#16) (s.loan i).id (s.loan i).amount)) ∧
     (s.linkRuns = true → (s.loan i).valid = true → (s.loan i).lent = true → (s.loan i).kept = 0 →
       ∃ t, exec (.lenderLeaseEnd i) s = .next t ∧ (t.loan i).valid = false ∧ ∀ j, j ≠ i → t.loan j = s.loan j)) ∧
  (∀ (s : State) (i j : Fin 32), s.linkRuns = true → i ≠ j → (s.loan i).valid = true → (s.loan i).lent = true →
     (s.loan i).relay = true → (s.loan i).linked = j.val → (s.loan i).kept = 0 → (s.loan j).valid = true → (s.loan j).lent = false →
     (s.loan j).amount = (s.loan i).amount → s.carries (s.loan j).east = true →
     ∃ t, exec (.lenderLeaseEnd i) s = .next t ∧ (t.loan i).valid = false ∧ (t.loan j).valid = false ∧
       t.lastFrame (s.loan j).east = some (.lapse ((s.side (s.loan j).east).xidTx + 1#16) (s.loan j).id (s.loan i).amount)) ∧
  (∀ (s : State) (d : LinkSide) (k : LinkHdr) (i : Fin 32) (loanId : BitVec 16) (amount kept ms : Nat), (s.loan i).relay = false →
     (s.linkRuns = true → (s.loan i).valid = true → (s.loan i).lent = true → s.cis.reserve = false →
       s.carries (s.loan i).east = true → 0 ≤ s.free → ((s.loan i).amount : Int) + s.free - s.alm.cfg.lendKeep - s.waitingShort = amount → 0 < amount →
       amount ≤ (s.loan i).amount →
       ∃ t, exec (.renewDue i) s = .next t ∧ (t.loan i).renewed = true ∧ (t.loan i).amount = (s.loan i).amount ∧
         t.lastFrame (s.loan i).east = some (.renew (s.loan i).id amount (1000 * s.alm.cfg.lease))) ∧
     (s.loanOn d k → s.findLoan false (LinkSide.isEast d) loanId = some i →
       kept = min (min amount (s.loan i).amount) (s.needOf (s.loan i).amount) →
       ∃ t, exec (.renew d k loanId amount ms) s = .next t ∧ (t.loan i).amount = (s.loan i).amount ∧
         (.renewAck loanId kept : LinkFrame) ∈ (t.side (LinkSide.isEast d)).txq ∧
         (s.needOf (s.loan i).amount ≤ kept → t.lastFrame (LinkSide.isEast d) = some (.renewAck loanId kept)) ∧
         (if kept = (s.loan i).amount then (t.loan i).renewed = false ∧ (t.loan i).ends = s.leaseEnd ms - 10000
          else (t.loan i).kept = kept ∧ (t.loan i).renewed = true)) ∧
     (s.loanOn d k → s.findLoan true (LinkSide.isEast d) loanId = some i → (s.loan i).renewed = true →
       ∃ t, exec (.renewAck d k loanId kept) s = .next t ∧ t.ports = s.ports ∧ (t.loan i).start = s.dev.aon ∧
         (if (s.loan i).amount ≤ kept then (t.loan i).ends = (s.loan i).next else (t.loan i).kept = kept)) ∧
     (s.linkRuns = true → (s.loan i).valid = true → (s.loan i).lent = false → (s.loan i).renewed = false →
       ∃ t, exec (.renewMissing i) s = .next t ∧ (t.loan i).renewed = true ∧ (t.loan i).kept = 0 ∧ t.ports = s.ports) ∧
     (s.linkRuns = true → (s.loan i).valid = true → (s.loan i).lent = false → (s.loan i).led = 0 →
       ∃ t, exec (.shedLead i) s = .next t ∧ (t.loan i).led = (s.loan i).lapsing ∧
         t.cis.ahead = s.cis.ahead + (s.loan i).lapsing))

/-- R344 to R346: enumeration: a chain wave gives the node its ID and goes on east with the next one, a candidate's own wave that comes
back closes the ring, the number of nodes is taken from ENUM_DONE, and a node without a chain wave starts its own.
R356 to R361: the audit: the west end starts it with its own sums, every node adds its own and passes the token on, the west end's
result travels east, a token that does not return is lost, and one that does not come in its slot is called by the node that waits for
it, with a wake burst on its LKW; that the neighbour counts the event too is the model's choice (log entry A98). -/
def Obligations.EnumerationAndAudits : Prop :=
  (∀ (s : State) (k : LinkHdr) (n nodes : BitVec 16) (uid : BitVec 48),
     (s.frameOn .west k → uid ≠ Config.uid → n.toNat < 16384 → s.lnk.e.st = .up →
       ∃ t, exec (.enum .west k n uid true) s = .next t ∧ t.lnk.node = some n.toNat ∧ t.lnk.west = false ∧
         t.lastFrame true = some (.enum (n + 1#16) uid true) ∧ t.ports = s.ports) ∧
     (s.frameOn .west k → uid ≠ Config.uid → 16384 ≤ n.toNat →
       ∃ t, exec (.enum .west k n uid true) s = .next t ∧ t.lnk.node = none ∧ t.lnk.overId = true ∧
         t.lnk.slotUs = none ∧ t.lnk.auditWait = false) ∧
     (s.frameOn .west k →
       ∃ t, exec (.enum .west k n Config.uid false) s = .next t ∧ t.lnk.node = some 0 ∧ t.lnk.west = true ∧ t.lnk.ring = true ∧
         t.lastFrame false = some (.enumDone n true)) ∧
     (s.frameOn .east k → nodes ≠ 0#16 → s.lnk.west = false → s.lnk.overId = false → s.lnk.w.isLinked = true →
       ∃ t, exec (.enumDone .east k nodes false) s = .next t ∧ t.lnk.nodes = nodes ∧
         t.lastFrame false = some (.enumDone nodes false) ∧ t.ports = s.ports) ∧
     (s.linkRuns = true → s.lnk.w.isLinked = true → s.lnk.west = false → s.lnk.e.st = .up →
       ∃ t, exec .candidateWaveStart s = .next t ∧ t.lnk.candidate = true ∧
         t.lastFrame true = some (.enum 1#16 Config.uid false))) ∧
  (∀ (s : State) (k : LinkHdr) (t0 : AuditTok) (no nodes : BitVec 16) (r : BitVec 3),
     (s.linkRuns = true → s.lnk.auditOn = true → s.lnk.west = true → s.lnk.e.isLinked = true → s.lnk.auditOut = false →
       s.lnk.overId = false → 0 < s.alm.cfg.audit →
       ∃ t, exec .auditStart s = .next t ∧ t.lnk.auditOut = true ∧
         t.lastFrame true = some (.audit (s.auditStep s.auditToken true)) ∧ t.ports = s.ports) ∧
     (s.frameOn .west k → s.lnk.overId = false → s.lnk.west = false → t0.returnLeg = false → s.lnk.e.isLinked = true →
       ∃ t, exec (.audit .west k t0) s = .next t ∧ t.cis = { s.cis with ptr := t.cis.ptr } ∧ ∃ f, t.lastFrame true = some (.audit f) ∧ f.nodes = t0.nodes + 1#16 ∧
         f.homeSum = t0.homeSum + BitVec.ofNat 32 s.alm.cfg.home ∧ f.lentSum = t0.lentSum + BitVec.ofNat 32 s.lent ∧
         f.borrowedSum = t0.borrowedSum + BitVec.ofNat 32 s.borrowed ∧ f.auditNo = t0.auditNo) ∧
     (s.frameOn .west k → s.lnk.west = false → s.lnk.overId = false → s.lnk.e.isLinked = true →
       ∃ t, exec (.auditRes .west k no r nodes) s = .next t ∧ t.lnk.evt = s.lnk.evt ||| (r.setWidth 32 <<< 5) ∧
         t.lnk.nodes = nodes ∧ t.lastFrame true = some (.auditRes no r nodes)) ∧
     (s.linkRuns = true → s.lnk.auditOut = true →
       ∃ t, exec .auditTokenLost s = .next t ∧ t = { s with lnk := t.lnk } ∧ t.lnk.auditOut = false ∧
         t.lnk.audLost = satInc s.lnk.audLost ∧ t.lnk.evt = setBit s.lnk.evt 8) ∧
     (s.linkRuns = true → s.lnk.overId = false → s.lnk.slotUs ≠ none → s.lnk.west = false → s.lnk.w.reached = true →
       ∃ t, exec (.auditSlotGuardEnd .west) s = .next t ∧ t = { s with lnk := t.lnk } ∧ t.lnk.w.burst = true ∧
         t.lnk.slotUs = none ∧ t.lnk.auditWait = true ∧ t.lnk.evt = setBit s.lnk.evt 10 ∧ t.lnk.w.cnt = bump s.lnk.w.cnt 4 ∧
         t.lnk.e = s.lnk.e) ∧
     (s.linkRuns = true → s.lnk.overId = false → s.lnk.e.reached = true →
       ∃ t, exec (.auditSlotGuardEnd .east) s = .next t ∧ t = { s with lnk := t.lnk } ∧ t.lnk.evt = setBit s.lnk.evt 10 ∧
         t.lnk.e = { s.lnk.e with cnt := bump s.lnk.e.cnt 4 } ∧ t.lnk.w = s.lnk.w))

/-- R32, R36, R47 to R49, R51, R244: every device reset names its cause in RST_CAUSE beside the older ones, returns every port, program
memory, the yard and the trough but for its stack regions to their reset state (of a port only the discharge of a pin that VCONN has left
goes on, R103), clears AON time, and leaves the input supervisor's state
and the waiting commands alone; a standby power-on reset clears the supervisor, the stack regions and the older causes too, and every
pin stands in its reset state, or in its unpowered one once VSB is absent. A PLL that loses its lock outside a running device counts too (log
entry A81), and when VSB is absent is the model's free value (A92).
R49, R192, R387: DEV_RST and ALM_CTL.RELOAD begin a stop phase only with their key and the unlock: every sluice of a live port that
conducts discharges, and an all-zero mux frame is due, which stands in the latches at the phase's end, whether or not a frame has run by then (log entry A58). -/
def Obligations.DeviceResets : Prop :=
  (∀ (s : State) (w : MainSupply) (c : Instr) (n : Nat),
     (c = .supplyBelowThreshold w ∧ n = 1 ∨ c = .rstNLow ∧ n = 2 ∨
       c = .pllLockLost ∧ n = 5 ∧ s.clk.pllS = true ∧ s.clk.pllH = true ∧ s.clocked = true ∨
       c = .stopPhaseEnd ∧ (n = 3 ∧ s.dev.stop = some .soft ∨ n = 4 ∧ s.dev.stop = some .reload) →
       ∃ t, exec c s = .next t ∧ t.dev.phase = .reset ∧ t.dev.rstCause = setBit s.dev.rstCause n ∧ t.dev.stop = none ∧
         s.portsReset t ∧ t.trough = ⟨s.trough.stacks, Vector.replicate 48 none⟩ ∧ t.prog = State.reset.prog ∧
         t.hnd = State.reset.hnd ∧ t.dev.aon = 0 ∧ (s.dev.stop ≠ none → c = .stopPhaseEnd → t.mux.latched = Vector.replicate 48 0#4) ∧
         t.sup.st = s.sup.st ∧ t.sup.ga = s.sup.ga ∧ t.sup.gb = s.sup.gb ∧ t.pending = s.pending) ∧
     (∃ t, exec .standbyPor s = .next t ∧ t.dev.phase = .reset ∧ t.dev.rstCause = 1#32 ∧ s.portsReset t ∧
       t.trough = State.reset.trough ∧ t.sup = State.reset.sup ∧ t.pending = s.pending ∧
       (t.vsbAbsent = true → t.devPins = DevPins.unpowered ∧ ∀ p, t.portPins p = PortPins.unpowered) ∧
       (t.vsbAbsent = false → ∀ p, t.portPins p = { PortPins.reset s.dev.vauxOk with dis := t.ccDischarge p }))) ∧
  (∀ (s : State) (p : Port) (w : Word), s.served = true → s.dev.stop = none → s.twi.commits = [] →
     (s.dev.unlock = true → slice w 0 8 = 0xD5 →
       ∃ t, exec (.devRst w) s = .next t ∧ t.dev.stop = some .soft ∧ t.mux.zero = true ∧
         ((s.port p).live = true → (t.port p).slc.passing = false)) ∧
     (s.dev.unlock = true → slice w 0 8 = 0xA7 → w.getLsbD 31 = false →
       ∃ t, exec (.almanacReload w) s = .next t ∧ t.dev.stop = some .reload ∧ t.mux.zero = true ∧
         ((s.port p).live = true → (t.port p).slc.passing = false)) ∧
     (s.dev.unlock = false → slice w 0 8 ≠ 0 →
       ∃ t, exec (.devRst w) s = .next t ∧ t.dev = s.dev ∧ t.ports = s.ports ∧ t.twi.evt = setBit s.twi.evt 0))

/-- R22, R23, R29, R34, R42 to R44, R52, R57: the first steps of start-up: the straps latch at the release, the oscillator and the PLLs
start, and each die-to-die link has two training attempts, and TWM's stretched transactions go on when the PLLs have locked. With TMODE high at the release the model stops: no behaviour of the manual
applies there (log entry A11). That VSB is taken to stand at the release is the model's choice (A92).
R52 to R57, R63, R67, R68, R88, R228, R267, R307: the later steps of start-up: of the images whose headers pass, the one with the higher SEQ is
checked in full first, A first of two equal ones, then the other, and the first that passes is applied, else the ROM factory defaults. R85,
R323: with tallies enabled the counters are restored from the last record that passes, at or before the newest one. The
modulators are calibrated, and every port that may be enabled enters its self-test, one too whose port reset has waited for that (R50). -/
def Obligations.StartUp : Prop :=
  (∀ (s : State) (k : BitVec 3) (d : WDie) (b : Byte),
     (s.dev.phase = .reset →
       exec (.resetRelease k true) s = .fault .factoryTestMode ∧
       ∃ t, exec (.resetRelease k false) s = .next t ∧ t.dev.phase = .clock ∧ t.twi.straps = k ∧ t.ports = s.ports ∧
         t.dev.rstCause = s.dev.rstCause ∧ t.dev.vsb = true ∧ t.dev.relUs = s.dev.aon) ∧
     (s.dev.phase = .clock →
       ∃ t, exec .startupOscillatorRunning s = .next t ∧ t.dev.phase = .pll ∧ t.clk.suo = true ∧ t.ports = s.ports) ∧
     (s.dev.phase = .pll → s.twi.commits = [] → s.twi.stretched.length ≤ 1 →
       ∃ t, exec .pllsLocked s = .next t ∧ t.dev.phase = .links ∧ t.clk.pllS = true ∧ t.clk.pllH = true ∧ t.ports = s.ports ∧
         t.twi.stretched = []) ∧
     (s.dev.phase = .links → (s.d2 d).trained = false → (s.d2 d).d2df = false →
       (∃ t, exec (.d2dTrainingAttemptEnd d true b) s = .next t ∧ (t.d2 d).trained = true ∧ (t.d2 d).ucrev = b ∧
         (t.d2 d).ucode = !Config.ucodeOk b ∧ t.ports = s.ports) ∧
       (∃ t, exec (.d2dTrainingAttemptEnd d false b) s = .next t ∧ (t.d2 d).trained = false ∧
         (t.d2 d).d2df = decide (1 ≤ (s.d2 d).tries) ∧ (t.d2 d).tries = (s.d2 d).tries + 1))) ∧
  (∀ (s : State) (f : Option Sfdp) (a b : List Byte) (m : Image) (l : List TallySlot) (x y ms : Nat) (p : Port),
     (s.dev.phase = .read → ∃ t, exec (.almanacReadDone f a b) s = .next t ∧ t.dev.phase = .apply ∧
       t.alm.flash = f.map accessOf ∧ t.ports = s.ports ∧
       (headerCode f 0x100000 a = 0 → fullCode a = 0 → headerCode f 0x200000 b ≠ 0 ∨ (headerOf b).seq ≤ (headerOf a).seq →
         t.alm.chosen = some (imageOf s.dev.code f 0 a) ∧ t.dev.second = false) ∧
       (headerCode f 0x200000 b = 0 → fullCode b = 0 → headerCode f 0x100000 a ≠ 0 ∨ (headerOf a).seq < (headerOf b).seq →
         t.alm.chosen = some (imageOf s.dev.code f 1 b) ∧ t.dev.second = false) ∧
       (headerCode f 0x100000 a = 0 → headerCode f 0x200000 b = 0 →
         ((headerOf b).seq ≤ (headerOf a).seq → fullCode a ≠ 0 → fullCode b = 0 →
           t.alm.chosen = some (imageOf s.dev.code f 1 b) ∧ t.dev.second = true) ∧
         ((headerOf a).seq < (headerOf b).seq → fullCode b ≠ 0 → fullCode a = 0 →
           t.alm.chosen = some (imageOf s.dev.code f 0 a) ∧ t.dev.second = true)) ∧
       (headerCode f 0x100000 a ≠ 0 ∨ fullCode a ≠ 0 → headerCode f 0x200000 b ≠ 0 ∨ fullCode b ≠ 0 →
         t.alm.chosen = some (factoryImage s.dev.code))) ∧
     (s.dev.phase = .apply → s.alm.chosen = some m →
       ∃ t, exec .almanacApplyDone s = .next t ∧ t.dev.phase = .restore ∧ t.alm.cfg = m.dev ∧ t.alm.seq = m.seq ∧
         t.prog.rom = m.romProg ∧ (t.port p).cfg = tab m.ports p.val (PortCfg.reset p) ∧ (t.port p).tc.st = (s.port p).tc.st) ∧
     (s.dev.phase = .restore → s.alm.cfg.tallyEn = false →
       ∃ t, exec (.counterRestoreDone l) s = .next t ∧ t.dev.phase = .cal ∧ (t.port p).met.eOut = 0 ∧ (t.port p).met.epoch = 0) ∧
     (∀ (n : Nat), s.dev.phase = .restore → s.alm.cfg.tallyEn = true → newestSlot l s.alm.cfg.size = some n →
       hasMagic (slotBytes l n) = true ∧
       (∀ k, k < s.alm.cfg.size → hasMagic (slotBytes l (32 * k)) = true → seqOf (slotBytes l (32 * k)) ≤ seqOf (slotBytes l n)) ∧
       ∃ t, exec (.counterRestoreDone l) s = .next t ∧ t.dev.phase = .cal ∧ t.alm.talPtr = (n + 1) % max s.slots 1 ∧
         (lastGood l s.slots s.slots n = none →
           t.mtr.tseq = 0 ∧ t.mtr.starts = 1 ∧ (t.port p).met = (s.port p).met.zero) ∧
         (∀ j, lastGood l s.slots s.slots n = some j → recordOk (slotBytes l j) = true ∧ t.mtr.tseq = seqOf (slotBytes l j) ∧
           t.mtr.starts = fieldAt (slotBytes l j) 0x18 4 + 1 ∧
           (t.port p).met = (s.port p).met.zero.restore (bytesAt (slotBytes l j) (0x40 + 40 * p.val) 40))) ∧
     (s.dev.phase = .cal → s.mtr.calibrated = false → s.alm.cfg.pref = false →
       ∃ t, exec (.initialCalibrationDone x y) s = .next t ∧ t.mtr.calibrated = true ∧ t.dev = s.dev ∧
         129 ≤ t.pwm.tap ∧ t.pwm.tap ≤ 132 ∧ (t.port p).tc = (s.port p).tc) ∧
     (s.dev.phase = .cal → s.mtr.calibrated = true → (∀ q, s.dieCut q = false) → (∀ q, s.factor q ≠ 0) →
       ∃ t, exec (.portsEnabled ms) s = .next t ∧ t.dev.phase = .run ∧ t.dev.startMs = satN 16 ms ∧
         t.dev.evt = setBit s.dev.evt 0 ∧ t.mux.zero = true ∧
         (if s.mayEnable p then (t.port p).live = true ∧ (t.port p).tc.st = .selftest
          else (s.port p).cnt.waitOn = false → t.port p = s.port p) ∧
         ((s.port p).cnt.waitOn = true → s.canEnable p = true → (t.port p).live = true ∧ (t.port p).tc.st = .selftest ∧
           (t.port p).cnt.busy = false ∧ (t.port p).cnt.prstCnt = satInc (s.port p).cnt.prstCnt)))

/-- R34, R35, R37, R39: the clock sources: the crystal takes over from the start-up oscillator and back, and the 32 kHz crystal's
failure is a condition; a flit that is replayed is counted.
R18, R45, R46: the loss of a die: its ports' pins take their reset states and their sluices conduct nothing, the other die's ports
are as they were, the die's monitor asks for an event, and the credits stay until the cistern releases them; without W0 the reserve
profile is in force.
R58 to R61, R113, R311, R360: rest: it is entered only with nothing attached and PFW_N released, and no dowser frame holds a pin in it; a partner
is sent SLEEP first, and the device rests when the last SLEEP has been acknowledged, or abandoned (log entry A98); a wake
source names itself in CLK_WAKE, an event that is none here does nothing, and the device runs again after the PLLs, the links and the offsets.
That a port of a lost die shows DISABLED is the model's choice (log entry A28), and so is that a wake event which is none does nothing
(A10, A31). -/
def Obligations.ClocksDiesAndRest : Prop :=
  (∀ (s : State) (d : WDie),
     (s.clocked = true → s.clk.suo = true →
       ∃ t, exec .xrefCrystalQualified s = .next t ∧ t = { s with clk := t.clk } ∧ t.clk.suo = false ∧ t.clk.xfail = false ∧
         t.clk.xrefOk = true) ∧
     (s.clocked = true → s.clk.xrefOk = true →
       ∃ t, exec .xrefCrystalFail s = .next t ∧ t = { s with clk := t.clk } ∧ t.clk.suo = true ∧ t.clk.xfail = true ∧
         t.clk.xfailCnt = satInc s.clk.xfailCnt) ∧
     exec .x32CrystalFail s = .next { s with clk := { s.clk with x32fail := true } } ∧
     exec .x32CrystalRecover s = .next { s with clk := { s.clk with x32fail := false } } ∧
     ((s.d2 d).trained = true → (s.d2 d).d2df = false → s.served = true →
       ∃ t, exec (.flitCrcFail d) s = .next t ∧ t = { s with clk := t.clk } ∧ (t.d2 d).crcCnt = satInc (s.d2 d).crcCnt)) ∧
  (∀ (s : State) (d : WDie) (p : Port),
     ((s.d2 d).trained = true → (s.d2 d).d2df = false → s.served = true →
       ∃ t, exec (.d2dLinkLost d) s = .next t ∧ (t.d2 d).d2df = true ∧
         t.hnd.reqs.getLast? = some ⟨WDie.monitor d, none, 0, .note (.linkLost d), false⟩ ∧
         (dieOf p = d → (t.port p).live = false ∧ (t.port p).slc.passing = false ∧ (t.port p).stg.den = false ∧
           (t.port p).tc.st = .disabled ∧ (t.port p).pd.charge = (s.port p).pd.charge ∧ (s.dev.vsb = true →
             t.portPins p = { PortPins.reset s.dev.vauxOk with dis := t.ccDischarge p })) ∧
         (dieOf p ≠ d → t.port p = s.port p)) ∧
     ((s.d2 d).d2df = true → s.cisOn = true →
       ∃ t, exec (.d2dfCisternRelease d) s = .next t ∧ (dieOf p = d → (t.port p).pd.charge = 0 ∧ (t.port p).pd.inflow = 0) ∧
         (d = .w0 → t.cis.reserve = true))) ∧
  (∀ (s : State) (p : Port) (src : WakeSource),
     (∀ (e : LinkSide), s.mayRest = true → (s.side (LinkSide.isEast e)).isLinked = true →
       ∃ t, exec .restEntry s = .next t ∧ t = { s with lnk := t.lnk, draws := t.draws } ∧
         ∃ m, t.lastFrame (LinkSide.isEast e) = some (.sleep m)) ∧
     (∀ (e : LinkSide) (m : Nat), (s.side (LinkSide.isEast e)).txq = [.sleep m] → 0 < (s.side (LinkSide.isEast e)).att →
       (s.onSide (LinkSide.isEast e) fun l => { l with txq := [] }).mayRest = true →
       (∃ t, exec (.ack e (s.side (LinkSide.isEast e)).txSeq) s = .next t ∧ t.dev.phase = .rest ∧
         (t.side (LinkSide.isEast e)).txq = []) ∧
       (4 ≤ (s.side (LinkSide.isEast e)).att →
         ∃ t, exec (.linkAckTimeout e) s = .next t ∧ t.dev.phase = .rest ∧ (t.side (LinkSide.isEast e)).txq = [])) ∧
     (s.mayRest = true → s.lnk.w.isLinked = false → s.lnk.e.isLinked = false →
       ∃ t, exec .restEntry s = .next t ∧ t.dev.phase = .rest ∧ t.clk.pllS = false ∧ t.clk.pllH = false ∧
         (t.port p).grd.ccFrame = none ∧ (s.port p).tc.attached = false ∧ s.sup.pfw = false ∧
         ((∀ q, (s.port q).grd.ccFrame = none) → t.ports = s.ports)) ∧
     (s.dev.phase = .rest →
       (s.canWake src = true →
         ∃ t, exec (.restWake src) s = .next t ∧ t.dev.phase = .wakePll ∧ t.clk.wake = 1#32 <<< (WakeSource.bit src).1 ∧
           t.ports = s.ports) ∧
       (s.canWake src = false → exec (.restWake src) s = .next s)) ∧
     (s.dev.phase = .wakePll → s.twi.commits = [] → s.twi.stretched.length ≤ 1 →
       ∃ t, exec .restExitPllRelock s = .next t ∧ t.dev.phase = .wakeLinks ∧ t.clk.pllS = true ∧ t.ports = s.ports ∧
         t.twi.stretched = []) ∧
     (s.dev.phase = .wakeLinks →
       ∃ t, exec .restExitLinksRetrained s = .next t ∧ t = { s with dev := { s.dev with phase := .wakeCal } }) ∧
     (s.dev.phase = .wakeCal →
       ∃ t, exec .restExitComplete s = .next t ∧ t.dev.phase = .run ∧ (t.port p).tc = (s.port p).tc ∧
         ∀ g : Group, t.mtr.grp[g].slot = 0))

/-- R48, R50, R91, R387, R394: port reset and administrative enable with the unlock open: both end the attachment and release the
credits, and a disabled port presents nothing on CC; the reset of a port in a fault state clears it, and the sluice leaves FAULT for OFF; a
reset in progress ignores another; it completes when the sluice is closed, and a port that may be enabled enters its self-test, or GUARD_OFF while a die
cut stands (R125). In LIMP it waits for the fall of DEN with all else as it was, and before PORTS_ENABLED a port that may be enabled stays
BUSY until then. That a port in reset reads DISABLED is the model's choice (log entry A29), and so is GUARD_OFF at once where a die cut
stands (A95). -/
def Obligations.PortResetAndEnable : Prop :=
  ∀ (s : State) (p : Port), s.twi.commits = [] →
    (s.served = true → s.dev.unlock = true → s.lost p = false → (s.port p).cnt.busy = false → (s.port p).cnt.limp = true →
      (s.port p).stg.den = true →
      ∃ t, exec (.portReset p) s = .next t ∧ (t.port p).cnt.busy = true ∧ (t.port p).cnt.limpWait = true ∧
        (t.port p).pd = (s.port p).pd ∧ (t.port p).slc = (s.port p).slc ∧ (t.port p).stg = (s.port p).stg ∧ s.othersKept p t) ∧
    (s.served = true → s.dev.unlock = true → s.lost p = false → (s.port p).cnt.busy = false → (s.port p).tc.st ≠ .fault →
      (s.port p).cnt.limp = false ∨ (s.port p).stg.den = false →
      ∃ t, exec (.portReset p) s = .next t ∧ (t.port p).cnt.busy = true ∧ (t.port p).tc.st = .disabled ∧
        (t.port p).pd.charge = 0 ∧ (t.port p).pd.contract = none ∧ (t.port p).slc.onReq = false) ∧
    (s.served = true → s.dev.unlock = true → s.lost p = false → (s.port p).cnt.busy = false → (s.port p).tc.st = .fault →
      (s.port p).cnt.since = [] → (s.port p).cnt.limp = false ∨ (s.port p).stg.den = false →
      ∃ t, exec (.portReset p) s = .next t ∧ (t.port p).cnt.busy = true ∧ (t.port p).cnt.any = false ∧ (t.port p).tc.st = .fault ∧
        (t.port p).pd.charge = 0 ∧ (t.port p).slc.onReq = false ∧
        ((s.port p).slc.st = .fault → (t.port p).slc.st = .off ∧ (t.port p).slc.dsc = false ∧ (t.port p).slc.window = true)) ∧
    (s.served = true → (s.port p).cnt.busy = true → s.dev.unlock = true → exec (.portReset p) s = .next s) ∧
    (s.served = true → (s.port p).cnt.busy = true → (s.port p).cnt.limpWait = false → (s.port p).slc.open' = false →
      s.portsOn = false → s.canEnable p = true →
      ∃ t, exec (.portResetComplete p) s = .next t ∧ s.onlyPort p t ∧ (t.port p).cnt.busy = true ∧ (t.port p).cnt.waitOn = true) ∧
    (s.served = true → (s.port p).cnt.busy = true → (s.port p).cnt.limpWait = false → (s.port p).slc.open' = false →
      s.portsOn = true ∨ s.canEnable p = false →
      ∃ t, exec (.portResetComplete p) s = .next t ∧ (t.port p).cnt.busy = false ∧
        (t.port p).cnt.prstCnt = satInc (s.port p).cnt.prstCnt ∧ (t.port p).cnt.evt = setBit (s.port p).cnt.evt 1 ∧
        ((s.port p).cfg.twin = false → s.dieCut p = false → s.factor p ≠ 0 → s.onlyPortYard p t) ∧
        (s.portsOn = true → (s.port p).cfg.enabled = true → (s.port p).tc.admEn = true → s.lost p = false →
          (s.d2 (dieOf p)).ucode = false → (s.port p).cnt.any = false → s.dieCut p = false → s.factor p ≠ 0 →
          (t.port p).tc.st = .selftest ∧ (t.port p).live = true)) ∧
    (s.portsOn = true → s.dev.unlock = true → (s.port p).tc.admEn = true →
      ∃ t, exec (.admDisable p) s = .next t ∧ (t.port p).tc.admEn = false ∧ (t.port p).tc.st = .disabled ∧
        (t.portPins p).cc1 = .highZ ∧ (t.portPins p).cc2 = .highZ) ∧
    (s.portsOn = true → s.dev.unlock = true → (s.port p).tc.admEn = false → (s.port p).tc.st = .disabled →
      (s.port p).cfg.enabled = true → s.lost p = false → (s.d2 (dieOf p)).ucode = false → (s.port p).cnt.any = false →
      (s.port p).cnt.busy = false →
      ∃ t, exec (.admEnable p) s = .next t ∧ (t.port p).tc.admEn = true ∧ (t.port p).live = true ∧
        (s.dieCut p = false → s.factor p ≠ 0 → (t.port p).tc.st = .selftest ∧ s.othersKept p t) ∧
        (s.dieCut p = true → (t.port p).grd.dieHot = true ∧ (t.port p).tc.st = .guardOff))

/-- R57, R59, R381 to R383, R388: TWM's write and reads. A write commits its whole words, in order from its index on, when no PEC is required or a PEC
byte matches; a wrong PEC commits nothing, counts and sets TWI_EVT.PEC, and where one is required and none is there the write commits
nothing and counts, without that event (log entry A19). A read answers the bytes of its registers, a counted read with
a PEC behind them, and every transaction leaves the index behind the last word (here where no earlier words still wait for their
registers; those that do reach them first, log entry A16). Before the PLLs lock TWM acknowledges and stretches SCL, in
rest it also wakes the device, and in reset it acknowledges nothing. -/
def Obligations.TwmTransactions : Prop :=
  (∀ (s : State) (i : Index) (b : List Byte) (c q : Byte) (w v : Word) (n : Nat), s.served = true → s.twi.commits = [] → b.length ≤ 64 →
    (b.length % 4 = 0 → s.pecNeeded .twm = false →
      ∃ t, exec (.twmWrite i b) s = .next t ∧ t = { s with twi := t.twi } ∧ t.twi.index = i + BitVec.ofNat 16 (b.length / 4) ∧
        t.twi.nak = false ∧ t.twi.cnt = s.twi.cnt ∧ t.twi.evt = s.twi.evt ∧
        t.twi.commits = (wordsOf b).zipIdx.map fun e => (i + BitVec.ofNat 16 e.2, e.1)) ∧
    (b.length % 4 = 0 →
      (q = pec (addrByte s.twmAddr false :: i.extractLsb' 8 8 :: i.extractLsb' 0 8 :: b) →
        ∃ t, exec (.twmWrite i (b ++ [q])) s = .next t ∧ t = { s with twi := t.twi } ∧ t.twi.evt = s.twi.evt ∧
          t.twi.commits = (wordsOf b).zipIdx.map fun e => (i + BitVec.ofNat 16 e.2, e.1)) ∧
      (q ≠ pec (addrByte s.twmAddr false :: i.extractLsb' 8 8 :: i.extractLsb' 0 8 :: b) →
        ∃ t, exec (.twmWrite i (b ++ [q])) s = .next t ∧ t = { s with twi := t.twi } ∧ t.twi.commits = [] ∧
          t.twi.evt = setBit s.twi.evt 2 ∧ t.twi.cnt = bump s.twi.cnt 0)) ∧
    (b.length % 4 = 0 → b ≠ [] → s.pecNeeded .twm = true →
      ∃ t, exec (.twmWrite i b) s = .next t ∧ t = { s with twi := t.twi } ∧ t.twi.commits = [] ∧ t.twi.evt = s.twi.evt ∧
        t.twi.cnt = bump s.twi.cnt 0) ∧
    (2 ≤ b.length % 4 →
      ∃ t, exec (.twmWrite i b) s = .next t ∧ t = { s with twi := t.twi } ∧ t.twi.evt = setBit s.twi.evt 1 ∧
        t.twi.cnt = bump s.twi.cnt 1 ∧ t.twi.commits =
          (if s.pecNeeded .twm then [] else (wordsOf b).zipIdx.map fun e => (i + BitVec.ofNat 16 e.2, e.1))) ∧
    (∃ t, exec (.twmSetIndex i) s = .next t ∧ t = { s with twi := { s.twi with index := i, reply := [], nak := false } }) ∧
    (s.pecNeeded .twm = false → w = s.regRead .twm i.toNat →
      v = (s.afterRead .twm i.toNat).regRead .twm ((i.toNat + 1) % 65536) →
      (∃ t, exec (.twmStreamedRead i 8) s = .next t ∧ t = { s with twi := t.twi } ∧ t.twi.reply = wordBytes w ++ wordBytes v ∧
        t.twi.nak = false ∧ t.twi.index = i + 2#16) ∧
      (s.twi.index = i → ∃ t, exec (.twmCurrentRead 8) s = .next t ∧ t = { s with twi := t.twi } ∧
        t.twi.reply = wordBytes w ++ wordBytes v ∧ t.twi.index = i + 2#16)) ∧
    (w = s.regRead .twm i.toNat → c = 1#8 →
      ∃ t, exec (.twmCountedRead i [c] n) s = .next t ∧ t = { s with twi := t.twi } ∧ t.twi.index = i + 1#16 ∧
        t.twi.reply = wordBytes w ++ [pec ([addrByte s.twmAddr false, i.extractLsb' 8 8, i.extractLsb' 0 8, c,
          addrByte s.twmAddr true] ++ wordBytes w)] ++ List.replicate n 0xFF#8) ∧
    (c = 0#8 ∨ 32 < c.toNat →
      ∃ t, exec (.twmCountedRead i [c] n) s = .next t ∧ t = { s with twi := t.twi } ∧ t.twi.nak = true ∧ t.twi.reply = [])) ∧
  (∀ (s : State) (i : Index) (b : List Byte),
    (s.dev.phase = .clock ∨ s.dev.phase = .pll ∨ s.dev.phase = .wakePll →
      ∃ t, exec (.twmWrite i b) s = .next t ∧ t = { s with twi := t.twi } ∧ t.twi.stretched = s.twi.stretched ++ [.write i b] ∧
        t.twi.nak = false ∧ t.twi.commits = s.twi.commits) ∧
    (s.dev.phase = .rest →
      ∃ t, exec (.twmWrite i b) s = .next t ∧ t.twi.stretched = s.twi.stretched ++ [.write i b] ∧ t.dev.phase = .wakePll ∧
        t.clk.wake = 2#32) ∧
    (s.dev.phase = .reset →
      ∃ t, exec (.twmWrite i b) s = .next t ∧ t = { s with twi := { s.twi with reply := [], nak := true } }))

/-- R59, R379, R385, R388: an enabled metering target answers for the port that its address names, with the words of that port's MET
sub-block only; a data byte written to it is answered N; an address or a condition that is not served acknowledges nothing,
and in rest a target's own address wakes the device.
R329 and the text of CIS_STAT in chapter 12: a read of MET_STAT keeps that moment's words for its own target, and a read of CIS_STAT keeps
the ledger's; how long a copy serves is the model's choice (log entry A21). -/
def Obligations.MeteringTargets : Prop :=
  ∀ (s : State) (a : AuxTarget) (adr : BitVec 7) (p : Port) (o c : Byte) (b : List Byte) (w : Word) (n : Nat),
    (s.auxPort a adr = some p → o.toNat < 32 → w = s.regRead (AuxTarget.target a) (0x10A0 + 0x100 * p.val + o.toNat) →
      (∃ t, exec (.meteringSetOffset a adr o) s = .next t ∧
        t = { s with twi := { s.twi with offsets := s.twi.offsets.set p o.toNat, reply := [], nak := false } }) ∧
      (s.pecNeeded (AuxTarget.target a) = false →
        ∃ t, exec (.meteringStreamedRead a adr o 4) s = .next t ∧ t = { s with twi := t.twi } ∧ t.twi.reply = wordBytes w ∧
          t.twi.nak = false ∧ t.twi.offsets[p] = (o.toNat + 1) % 32) ∧
      (s.pecNeeded (AuxTarget.target a) = false → s.twi.offsets[p] = o.toNat →
        ∃ t, exec (.meteringCurrentRead a adr 4) s = .next t ∧ t = { s with twi := t.twi } ∧ t.twi.reply = wordBytes w ∧
          t.twi.offsets[p] = (o.toNat + 1) % 32) ∧
      (c = 1#8 →
        ∃ t, exec (.meteringCountedRead a adr o [c] n) s = .next t ∧ t = { s with twi := t.twi } ∧
          t.twi.reply = wordBytes w ++ [pec ([addrByte adr false, o, c, addrByte adr true] ++ wordBytes w)] ++
            List.replicate n 0xFF#8 ∧
          t.twi.offsets[p] = (o.toNat + 1) % 32) ∧
      (b ≠ [] →
        ∃ t, exec (.meteringWrite a adr o b) s = .next t ∧ t = { s with twi := t.twi } ∧ t.twi.nak = true ∧
          t.twi.commits = s.twi.commits)) ∧
    (s.auxPort a adr = none → s.dev.phase ≠ .rest →
      ∃ t, exec (.meteringStreamedRead a adr o n) s = .next t ∧ t = { s with twi := { s.twi with reply := [], nak := true } }) ∧
    (s.dev.phase = .rest → s.alm.cfg.auxEn.testBit 0 = true → s.alm.cfg.baseA ≤ adr.toNat → adr.toNat < s.alm.cfg.baseA + 16 →
      ∃ t, exec (.meteringStreamedRead .twa adr o n) s = .next t ∧ t.twi.nak = true ∧ t.dev.phase = .wakePll ∧ t.clk.wake = 2#32) ∧
    (s.served = true →
      (∃ t, exec (.metStatRead (AuxTarget.target a) p) s = .next t ∧ t = { s with twi := t.twi } ∧
        t.twi.metCopy[Target.idx (AuxTarget.target a)] = some (p, (s.port p).metWords) ∧
        t.twi.metCopy[Target.idx .twm] = s.twi.metCopy[Target.idx .twm]) ∧
      (∃ t, exec (.cisStatRead .twm) s = .next t ∧ t = { s with twi := { s.twi with cisCopy := some s.ledgerWords } }))

/-- R7, R387, R395, R396: words at registers: a W1C write clears the bits written 1 and no other, a counter clear zeroes its block's
counters, the high-water mark falls to the use of now, and an enable register takes its own bits. Nothing else changes.
R383: the words that a TWM write has committed reach their registers in order: the row of the first one takes it out of the queue, and the
row of any other does nothing while it waits (log entry A16). -/
def Obligations.RegisterWrites : Prop :=
  (∀ (s : State) (i j : Index) (w v : Word) (l : List (Index × Word)), s.served = true → s.twi.commits = (i, w) :: l →
    (i = 0x000#16 → exec (.registerWrite i w) s = .next { s with twi := { s.twi with commits := l } }) ∧
    (∃ t, exec (.registerWrite i w) s = .next t ∧ t.twi.commits = l) ∧
    ((j, v) ≠ (i, w) → exec (.registerWrite j v) s = .next s ∧ exec (.eventAck j v) s = .next s)) ∧
  (∀ (s : State) (p : Port) (w : Word), s.served = true → s.twi.commits = [] →
    (∃ t, exec (.eventAck (BitVec.ofNat 16 (portReg p 0x01)) w) s = .next t ∧
      t = s.onPort p fun x => { x with tc := { x.tc with evt := x.tc.evt &&& ~~~w } }) ∧
    (∃ t, exec (.eventAck 0x301#16 w) s = .next t ∧ t = { s with sup := { s.sup with evt := s.sup.evt &&& ~~~w } }) ∧
    (∃ t, exec (.eventAck 0x009#16 w) s = .next t ∧ t = { s with dev := { s.dev with rstCause := s.dev.rstCause &&& ~~~w } }) ∧
    (∃ t, exec (.counterClear (.slc p)) s = .next t ∧
      t = s.onPort p fun x => { x with slc := { x.slc with cnt := Vector.replicate 8 0#32 } }) ∧
    (∃ t, exec (.counterClear .cis) s = .next t ∧ t = { s with cis := { s.cis with cnt := Vector.replicate 6 0#32 } }) ∧
    (∃ t, exec .hwmclr s = .next t ∧ t = { s with hnd := { s.hnd with sharedHwm := s.hnd.sharedUsed } }) ∧
    (∃ t, exec (.registerWrite (BitVec.ofNat 16 (portReg p 0x22)) w) s = .next t ∧
      t = s.onPort p fun x => { x with pd := { x.pd with ie := w &&& 0xFFFF#32 } }) ∧
    (∃ t, exec (.registerWrite 0x000#16 w) s = .next t ∧ t = s))

/-- R386: the unlock: two keys in order open it, a lone second key is ignored, any other value and 100 ms without a write close it, and
so does every device reset; that a PLL which loses its lock in any clocked phase is one of these is the model's choice (log entry A81).
A write that needs it and finds it closed changes nothing but the report of the refusal. -/
def Obligations.Unlock : Prop :=
  ∀ (s : State) (p : Port) (i : Fin 256) (d : LinkSide) (w : Word) (k : BitVec 16) (c : Instr),
    (s.served = true → s.twi.commits = [] →
      exec .unlockFirstKey s = .next { s with dev := { s.dev with keyPend := true } } ∧
      exec .unlockSecondKey s = .next
        (if s.dev.keyPend then { s with dev := { s.dev with unlock := true, keyPend := false } } else s) ∧
      (k ≠ 0x00A5#16 → k ≠ 0x005A#16 →
        exec (.unlockClose k) s = .next { s with dev := { s.dev with unlock := false, keyPend := false } }) ∧
      (s.dev.unlock = false → ∀ e ∈ [Instr.portReset p, .loopManual p, .loopAuto p, .loopMdutyWrite p w, .coefWindowWrite p i w,
          .admEnable p, .admDisable p, .linkReset d, .devRst w, .almanacReload w],
        ∃ t, exec e s = .next t ∧ t = { s with twi := t.twi } ∧
          (t.twi = s.twi ∨ t.twi = { s.twi with evt := setBit s.twi.evt 0, cnt := bump s.twi.cnt 2 }))) ∧
    exec .unlockKeyWindowExpiry s = .next { s with dev := { s.dev with keyPend := false } } ∧
    exec .unlockTimeout s = .next { s with dev := { s.dev with unlock := false } } ∧
    (c ∈ [Instr.standbyPor, .rstNLow, .supplyBelowThreshold .vddC, .supplyBelowThreshold .vddIo, .supplyBelowThreshold .vddA] ∨
        c = .pllLockLost ∧ s.clk.pllS = true ∧ s.clk.pllH = true ∧ s.clocked = true ∨ c = .stopPhaseEnd ∧ s.dev.stop ≠ none →
      ∃ t, exec c s = .next t ∧ t.dev.unlock = false ∧ t.dev.keyPend = false)

/-- R378: the SCL timeout of a target sets TWI_EVT.TIMEOUT, counts in the target's TWI_TO_CNT and commits nothing. That it does so in every
clocked phase, in those too in which no target is served, is the model's choice (log entry A22). -/
def Obligations.SclTimeout : Prop :=
  ∀ (s : State) (k : Target) (j : Fin 20), s.clocked = true → j.val = 5 * (Target.idx k).val + 3 →
    ∃ t, exec (.sclTimeout k) s = .next t ∧
      t = { s with twi := { s.twi with evt := setBit s.twi.evt 3, cnt := bump s.twi.cnt j
                                       stretched := if k = .twm then [] else s.twi.stretched } }

/-- R4: DEV_ID. -/
def Obligations.DeviceIdentity : Prop :=
  ∀ (s : State) (k : Target),
    (s.dev.code = .e → s.regRead k 0x0000 = 0x0D48B00E#32) ∧ (s.dev.code = .c → s.regRead k 0x0000 = 0x0D48B00C#32)

/-- The command at the front of the queue runs with the queue's rest; with no command waiting a microsecond passes, and the hands drop
ready events from which nothing follows, here where no committed word waits for its register. What an empty queue does is the choice of
this model (log entry A2). -/
def Obligations.StepRunsFront : Prop :=
  ∀ (s : State) (c : Instr) (l : List Instr),
    (s.pending = c :: l → step s = exec c { s with pending := l }) ∧
    (s.pending = [] → s.twi.commits = [] → ∃ t, step s = .next t ∧
      t = { s with dev := t.dev, sup := t.sup, pwm := t.pwm, mux := t.mux, hnd := t.hnd, draws := t.draws } ∧
      t.dev = { s.dev with us := if s.clocked then s.dev.us + 1 else s.dev.us, aon := s.dev.aon + 1 } ∧
      t.sup = { s.sup with now := s.sup.now + 1 } ∧ t.hnd.reqs = s.hnd.reqs ∧ t.hnd.timers = s.hnd.timers ∧
      ∀ r ∈ t.hnd.ready, r ∈ s.hnd.ready)

/-- Every command answers a next state in every state, but the release of reset with TMODE high (R23). That a command out of its place does
nothing is the model's choice (log entry A10), and so is the stop with TMODE high (A11). -/
def Obligations.CommandsComplete : Prop :=
  ∀ (s : State) (c : Instr), (∃ t, exec c s = .next t) ∨
    ((∃ k, c = .resetRelease k true) ∧ s.dev.phase = .reset ∧ exec c s = .fault .factoryTestMode)

/-- The state after reset: R47 and R48 (a standby power-on reset sets POR_SB alone and clears the supervisor, which starts in NORMAL
on IN_A), R17 and R91 (no port is live, every port DISABLED with its pins in
their reset states, no sluice passes, no stage runs), R382 (the index 0), and memories in
their canonical form. That the pins stand as with VAUX there is the model's choice (log entry A1). -/
def Obligations.ResetState : Prop :=
  State.reset.memOk = true ∧ State.reset.safe = true ∧ State.reset.dev.phase = .reset ∧
  State.reset.dev.unlock = false ∧ State.reset.twi.index = 0#16 ∧ State.reset.pending = [] ∧
  State.reset.sup.st = .normal ∧ State.reset.sup.ga = true ∧ State.reset.sup.gb = false ∧ State.reset.sup.pfw = false ∧
  (∀ k, State.reset.regRead k 0x009 = 0x00000001#32) ∧
  ∀ p, (State.reset.port p).live = false ∧ (State.reset.port p).tc.st = .disabled ∧ (State.reset.port p).slc.st = .off ∧
    (State.reset.port p).stg.den = false ∧ (State.reset.port p).pd.charge = 0 ∧ State.reset.portPins p = PortPins.reset true

/-- R243, R245, R269: only the Pyrog, the coefficient path, a tally snapshot, an image applied and a reset change a memory: every other
command leaves every byte of the trough, of program memory and of the staging as it was. A sample reaches the trough only in its own
port's slot past the coefficient block, and never program memory, its state line the 256 bytes that the table of R244 gives it; a port reset
only the port data and the state line of its own slot (R244). A command that lets a port reset or committed words act which had
waited is not in question here. -/
def Obligations.MemoryFrame : Prop :=
  ∀ (s t : State) (c : Instr), exec c s = .next t →
    (mayStore c = false → storesLate s c = false → s.memKept t) ∧
    (∀ n r, onPump c = some n → s.pump n = some r → r.stLn.length = 256 →
      (∀ a, a < slotAt r.port + 0x400 ∨ slotAt r.port + 0x1000 ≤ a → t.trough.read a = s.trough.read a) ∧
      (∀ a, t.prog.read a = s.prog.read a) ∧ ∀ a, memRead zeroByte t.mtr.staging a = memRead zeroByte s.mtr.staging a) ∧
    (∀ p, c = .portReset p →
      ∀ a, a < slotAt p + 0x400 ∨ slotAt p + 0xC00 ≤ a → t.trough.read a = s.trough.read a)

/-- Every step keeps every memory in its canonical form. -/
def Obligations.StepKeepsMemOk : Prop :=
  ∀ (s t : State), s.memOk = true → step s = .next t → t.memOk = true

/-- R365 to R368: at every step the gate drives stand as the supervisor's state wants them, so at least one is on; a hand-over starts
only with the reserve fitted and RSV_LOW clear, and no command but the supervisor's own, a standby power-on reset and the apply step moves
either. That the apply step, which can change what the reserve and its thresholds are, may do so is the model's reading (log entry A57). -/
def Obligations.GatesHold : Prop :=
  ∀ (s t : State) (c : Instr), s.sup.gatesRight = true →
    (step s = .next t → t.sup.gatesRight = true ∧ (t.sup.ga || t.sup.gb) = true) ∧
    (exec c s = .next t → s.sup.st = .normal → t.sup.st ≠ .normal →
      t.sup.st = .hoRun ∧ t.sup.cfg.fitted = true ∧ t.sup.rsvLow = false) ∧
    (exec c s = .next t → t.sup.ga ≠ s.sup.ga ∨ t.sup.gb ≠ s.sup.gb →
      c = .standbyPor ∨ c = .qualComplete ∨ (∃ b, c = .hoGateCheck b ∨ c = .rtnGateCheck b) ∨
        ∃ v, c = .hoRequest v ∨ c = .hoComplete v ∨ c = .rtnComplete v ∨ c = .emergencyReturn v ∨ c = .qualStart v ∨
          c = .qualBreak v ∨ c = .rsvLowSet v ∨ c = .rsvLowClear v ∨ c = .almanacApplyDone)

/-- R219, R392: at every step no port passes current in a fault state. -/
def Obligations.SluiceSafety : Prop :=
  ∀ (s t : State), s.safe = true → step s = .next t → t.safe = true
end

