-- ==== Sys2Proof/Laws/State.lean ====
section
/-! SUPPORT. One lemma per update of the state and per component: what State.onPort, State.onPorts, the counters, events, free
values and queues change, and that nothing else changes. -/

namespace Sys2Proof.Machine

variable (s : State) (p q : Port) (f g : PortState → PortState)

/-! ## One port changed -/

@[simp] theorem State.onPort_port_self : (s.onPort p f).port p = f (s.port p) := by
  simp [State.onPort, State.port]

theorem State.onPort_port_ne (h : q ≠ p) : (s.onPort p f).port q = s.port q := by
  have h' : p.val ≠ q.val := fun e => h (Fin.ext e.symm)
  simp [State.onPort, State.port, h']

theorem State.onPort_port : (s.onPort p f).port q = if q = p then f (s.port p) else s.port q := by
  by_cases h : q = p
  · subst h; simp
  · simp [h, State.onPort_port_ne]

@[simp] theorem State.onPort_onPort : (s.onPort p f).onPort p g = s.onPort p (fun x => g (f x)) := by
  simp [State.onPort, Vector.set_set]

@[simp] theorem State.onPort_dev : (s.onPort p f).dev = s.dev := rfl
@[simp] theorem State.onPort_clk : (s.onPort p f).clk = s.clk := rfl
@[simp] theorem State.onPort_alm : (s.onPort p f).alm = s.alm := rfl
@[simp] theorem State.onPort_sup : (s.onPort p f).sup = s.sup := rfl
@[simp] theorem State.onPort_cis : (s.onPort p f).cis = s.cis := rfl
@[simp] theorem State.onPort_lnk : (s.onPort p f).lnk = s.lnk := rfl
@[simp] theorem State.onPort_twi : (s.onPort p f).twi = s.twi := rfl
@[simp] theorem State.onPort_mtr : (s.onPort p f).mtr = s.mtr := rfl
@[simp] theorem State.onPort_pmp : (s.onPort p f).pmp = s.pmp := rfl
@[simp] theorem State.onPort_hnd : (s.onPort p f).hnd = s.hnd := rfl
@[simp] theorem State.onPort_grd : (s.onPort p f).grd = s.grd := rfl
@[simp] theorem State.onPort_pwm : (s.onPort p f).pwm = s.pwm := rfl
@[simp] theorem State.onPort_mux : (s.onPort p f).mux = s.mux := rfl
@[simp] theorem State.onPort_trough : (s.onPort p f).trough = s.trough := rfl
@[simp] theorem State.onPort_prog : (s.onPort p f).prog = s.prog := rfl
@[simp] theorem State.onPort_draws : (s.onPort p f).draws = s.draws := rfl
@[simp] theorem State.onPort_pending : (s.onPort p f).pending = s.pending := rfl

/-! ## Every port changed -/

@[simp] theorem State.onPorts_port : (s.onPorts f).port p = f (s.port p) := by
  simp [State.onPorts, State.port]

@[simp] theorem State.onPorts_dev : (s.onPorts f).dev = s.dev := by simp only [State.onPorts]
@[simp] theorem State.onPorts_clk : (s.onPorts f).clk = s.clk := by simp only [State.onPorts]
@[simp] theorem State.onPorts_alm : (s.onPorts f).alm = s.alm := by simp only [State.onPorts]
@[simp] theorem State.onPorts_sup : (s.onPorts f).sup = s.sup := by simp only [State.onPorts]
@[simp] theorem State.onPorts_cis : (s.onPorts f).cis = s.cis := by simp only [State.onPorts]
@[simp] theorem State.onPorts_lnk : (s.onPorts f).lnk = s.lnk := by simp only [State.onPorts]
@[simp] theorem State.onPorts_twi : (s.onPorts f).twi = s.twi := by simp only [State.onPorts]
@[simp] theorem State.onPorts_mtr : (s.onPorts f).mtr = s.mtr := by simp only [State.onPorts]
@[simp] theorem State.onPorts_pmp : (s.onPorts f).pmp = s.pmp := by simp only [State.onPorts]
@[simp] theorem State.onPorts_hnd : (s.onPorts f).hnd = s.hnd := by simp only [State.onPorts]
@[simp] theorem State.onPorts_grd : (s.onPorts f).grd = s.grd := by simp only [State.onPorts]
@[simp] theorem State.onPorts_pwm : (s.onPorts f).pwm = s.pwm := by simp only [State.onPorts]
@[simp] theorem State.onPorts_mux : (s.onPorts f).mux = s.mux := by simp only [State.onPorts]
@[simp] theorem State.onPorts_trough : (s.onPorts f).trough = s.trough := by simp only [State.onPorts]
@[simp] theorem State.onPorts_prog : (s.onPorts f).prog = s.prog := by simp only [State.onPorts]
@[simp] theorem State.onPorts_draws : (s.onPorts f).draws = s.draws := by simp only [State.onPorts]
@[simp] theorem State.onPorts_pending : (s.onPorts f).pending = s.pending := by simp only [State.onPorts]

end Sys2Proof.Machine
end

