-- ==== Sys2Proof/Laws/Kept.lean ====
section
/-! SUPPORT. What most of the named operations leave alone: the trough, program memory, the staging of the tally record, the waiting
commands, and the gate drives of the input supervisor with its state. One lemma per operation; a lemma that is not here belongs to an
operation that changes one of them. -/

namespace Sys2Proof.Machine

/-- From s to t the memories, the queue and the supervisor's state and gates are as they were. -/
abbrev State.Same (s t : State) : Prop :=
  t.trough = s.trough ∧ t.prog = s.prog ∧ t.mtr.staging = s.mtr.staging ∧ t.pending = s.pending ∧
  t.sup.st = s.sup.st ∧ t.sup.ga = s.sup.ga ∧ t.sup.gb = s.sup.gb

section
variable (c : Prop) [Decidable c] (a b : State) (x y : Mtr) (u v : Sup)
@[simp] theorem State.ite_trough : (if c then a else b).trough = if c then a.trough else b.trough := apply_ite ..
@[simp] theorem State.ite_prog : (if c then a else b).prog = if c then a.prog else b.prog := apply_ite ..
@[simp] theorem State.ite_mtr : (if c then a else b).mtr = if c then a.mtr else b.mtr := apply_ite ..
@[simp] theorem State.ite_sup : (if c then a else b).sup = if c then a.sup else b.sup := apply_ite ..
@[simp] theorem State.ite_pending : (if c then a else b).pending = if c then a.pending else b.pending := apply_ite ..
@[simp] theorem Mtr.ite_staging : (if c then x else y).staging = if c then x.staging else y.staging := apply_ite ..
@[simp] theorem Sup.ite_st : (if c then u else v).st = if c then u.st else v.st := apply_ite ..
@[simp] theorem Sup.ite_ga : (if c then u else v).ga = if c then u.ga else v.ga := apply_ite ..
@[simp] theorem Sup.ite_gb : (if c then u else v).gb = if c then u.gb else v.gb := apply_ite ..
end

/-- A fold of an operation that leaves them alone leaves them alone. -/
theorem foldl_kept {α : Type} (f : State → α → State) (hf : ∀ s a, State.Same s (f s a)) (l : List α) (s : State) :
    State.Same s (l.foldl f s) := by
  induction l generalizing s with
  | nil => simp [State.Same]
  | cons a l ih => have h1 := ih (f s a); have h2 := hf s a; simp_all [State.Same]

@[simp] theorem State.onPort_kept (s : State) (p : Port) (f : PortState → PortState) : State.Same s (State.onPort s p f) := by
  simp [State.Same, State.onPort]
@[simp] theorem State.onPorts_kept (s : State) (f : PortState → PortState) : State.Same s (State.onPorts s f) := by
  simp [State.Same, State.onPorts]
@[simp] theorem State.forPorts_kept (s : State) (l : List Port) (f : State → Port → State) (hf : ∀ s p, State.Same s (f s p)) :
    State.Same s (s.forPorts l f) := foldl_kept f hf l s
@[simp] theorem State.onD2_kept (s : State) (d : WDie) (f : D2d → D2d) : State.Same s (State.onD2 s d f) := by
  unfold State.onD2; (repeat' split) <;> simp [State.Same]
@[simp] theorem State.draw_kept (s : State) : State.Same s s.draw.2 := by simp [State.draw, State.Same]
@[simp] theorem State.drawIn_kept (s : State) (lo hi : Nat) : State.Same s (State.drawIn s lo hi).2 := by
  unfold State.drawIn; (try dsimp only); (repeat' split) <;> simp [State.Same]
@[simp] theorem State.cisGrant_kept (s : State) (k : Nat) : State.Same s (State.cisGrant s k) := by
  unfold State.cisGrant; (try dsimp only); (repeat' split) <;> simp [State.Same]
@[simp] theorem State.pass_kept (s : State) (n : Nat) (xref : Bool) : State.Same s (State.pass s n xref) := by
  unfold State.pass; (try dsimp only); (repeat' split) <;> simp [State.Same]
@[simp] theorem State.locked_kept (s : State) (acts : Bool) (f : State → State) (hf : ∀ s, State.Same s (f s)) : State.Same s (State.locked s acts f) := by
  unfold State.locked; (repeat' split) <;> simp [State.Same, *]
@[simp] theorem State.tcEvt_kept (s : State) (p : Port) (i : Nat) : State.Same s (State.tcEvt s p i) := by
  simp [State.Same, State.tcEvt]
@[simp] theorem State.tcCnt_kept (s : State) (p : Port) (i : Fin 12) : State.Same s (State.tcCnt s p i) := by
  simp [State.Same, State.tcCnt]
@[simp] theorem State.pdEvt_kept (s : State) (p : Port) (i : Nat) : State.Same s (State.pdEvt s p i) := by
  simp [State.Same, State.pdEvt]
@[simp] theorem State.pdCnt_kept (s : State) (p : Port) (i : Fin 13) : State.Same s (State.pdCnt s p i) := by
  simp [State.Same, State.pdCnt]
@[simp] theorem State.vdmEvt_kept (s : State) (p : Port) (i : Nat) : State.Same s (State.vdmEvt s p i) := by
  simp [State.Same, State.vdmEvt]
@[simp] theorem State.vdmCnt_kept (s : State) (p : Port) (i : Fin 7) : State.Same s (State.vdmCnt s p i) := by
  simp [State.Same, State.vdmCnt]
@[simp] theorem State.slcEvt_kept (s : State) (p : Port) (i : Nat) : State.Same s (State.slcEvt s p i) := by
  simp [State.Same, State.slcEvt]
@[simp] theorem State.slcCnt_kept (s : State) (p : Port) (i : Fin 8) : State.Same s (State.slcCnt s p i) := by
  simp [State.Same, State.slcCnt]
@[simp] theorem State.loopEvt_kept (s : State) (p : Port) (i : Nat) : State.Same s (State.loopEvt s p i) := by
  simp [State.Same, State.loopEvt]
@[simp] theorem State.loopCnt_kept (s : State) (p : Port) (i : Fin 4) : State.Same s (State.loopCnt s p i) := by
  simp [State.Same, State.loopCnt]
@[simp] theorem State.grdEvt_kept (s : State) (p : Port) (i : Nat) : State.Same s (State.grdEvt s p i) := by
  simp [State.Same, State.grdEvt]
@[simp] theorem State.grdCnt_kept (s : State) (p : Port) (i : Fin 5) : State.Same s (State.grdCnt s p i) := by
  simp [State.Same, State.grdCnt]
@[simp] theorem State.cisEvt_kept (s : State) (i : Nat) : State.Same s (State.cisEvt s i) := by
  simp [State.Same, State.cisEvt]
@[simp] theorem State.cisCnt_kept (s : State) (i : Fin 6) : State.Same s (State.cisCnt s i) := by
  simp [State.Same, State.cisCnt]
@[simp] theorem State.supEvt_kept (s : State) (i : Nat) : State.Same s (State.supEvt s i) := by
  simp [State.Same, State.supEvt]
@[simp] theorem State.supCnt_kept (s : State) (i : Fin 8) : State.Same s (State.supCnt s i) := by
  simp [State.Same, State.supCnt]
@[simp] theorem State.mtrEvt_kept (s : State) (i : Nat) : State.Same s (State.mtrEvt s i) := by
  simp [State.Same, State.mtrEvt]
@[simp] theorem State.mtrCnt_kept (s : State) (i : Fin 7) : State.Same s (State.mtrCnt s i) := by
  simp [State.Same, State.mtrCnt]
@[simp] theorem State.pwmCnt_kept (s : State) (i : Fin 5) : State.Same s (State.pwmCnt s i) := by
  simp [State.Same, State.pwmCnt]
@[simp] theorem State.twiCnt_kept (s : State) (t : Target) (i : Fin 5) : State.Same s (State.twiCnt s t i) := by
  simp [State.Same, State.twiCnt]
@[simp] theorem State.lnkEvt_kept (s : State) (i : Nat) : State.Same s (State.lnkEvt s i) := by
  simp [State.Same, State.lnkEvt]
@[simp] theorem State.abortSamples_kept (s : State) (p : Port) : State.Same s (State.abortSamples s p) := by
  simp [State.Same, State.abortSamples]
@[simp] theorem State.post_kept (s : State) (from' : Nat) (p : Option Port) (cls : Nat) (e : EvCode) : State.Same s (State.post s from' p cls e) := by
  simp [State.Same, State.post]
@[simp] theorem State.postPort_kept (s : State) (p : Port) (cls : Nat) (e : EvCode) : State.Same s (State.postPort s p cls e) := by
  simp [State.Same, State.postPort]
@[simp] theorem State.note_kept (s : State) (from' : Nat) (p : Option Port) (cls : Nat) (n : Note) : State.Same s (State.note s from' p cls n) := by
  unfold State.note; (try dsimp only); (repeat' split) <;> simp [State.Same]
@[simp] theorem State.noteConn_kept (s : State) (p : Port) : State.Same s (State.noteConn s p) := by
  unfold State.noteConn; (try dsimp only); (repeat' split) <;> simp [State.Same]
@[simp] theorem State.disarm_kept (s : State) (p : Port) (t : TimerId) : State.Same s (State.disarm s p t) := by
  simp [State.Same, State.disarm]
@[simp] theorem State.arm_kept (s : State) (p : Port) (t : TimerId) : State.Same s (State.arm s p t) := by
  simp [State.Same, State.arm]
@[simp] theorem State.disarmAll_kept (s : State) (p : Port) : State.Same s (State.disarmAll s p) := by
  simp [State.Same, State.disarmAll]
@[simp] theorem State.yardClear_kept (s : State) (p : Port) : State.Same s (State.yardClear s p) := by
  simp [State.Same, State.yardClear]
@[simp] theorem State.yardDrop_kept (s : State) (p : Port) : State.Same s (State.yardDrop s p) := by
  unfold State.yardDrop; (try dsimp only); (repeat' split) <;> simp [State.Same]
@[simp] theorem State.beginStep_kept (s : State) (hand : Hand) (r : YardRec) : State.Same s (State.beginStep s hand r) := by
  unfold State.beginStep; (try dsimp only); (repeat' split) <;> simp [State.Same]
@[simp] theorem State.endStep_kept (s : State) : State.Same s (State.endStep s) := by
  unfold State.endStep; (try dsimp only); (repeat' split) <;> simp [State.Same]
@[simp] theorem State.skipSilent_kept (hand : Hand) (n : Nat) (s : State) : State.Same s (State.skipSilent hand n s) := by
  induction n generalizing s with
  | zero => simp [State.skipSilent, State.Same]
  | succ n ih => unfold State.skipSilent; (repeat' split) <;> simp [State.Same, ih]
@[simp] theorem State.skipAll_kept (s : State) : State.Same s s.skipAll := by
  unfold State.skipAll; split
  · exact foldl_kept _ (fun s h => State.skipSilent_kept h _ s) _ s
  · simp [State.Same]
@[simp] theorem State.send_kept (s : State) (p : Port) (kd : Sop) (k : TxKind) (m : PdMsg) : State.Same s (State.send s p kd k m) := by
  simp [State.Same, State.send]
@[simp] theorem State.slcCmd_kept (s : State) (p : Port) (c : SlcCmd) : State.Same s (State.slcCmd s p c) := by
  simp [State.Same, State.slcCmd]
@[simp] theorem State.stgCmd_kept (s : State) (p : Port) (c : StgCmd) : State.Same s (State.stgCmd s p c) := by
  simp [State.Same, State.stgCmd]
@[simp] theorem State.muxUpdate_kept (s : State) (p : Port) : State.Same s (State.muxUpdate s p) := by
  unfold State.muxUpdate; (try dsimp only); (repeat' split) <;> simp [State.Same]
@[simp] theorem State.vdmQuiet_kept (s : State) (p : Port) : State.Same s (State.vdmQuiet s p) := by
  simp [State.Same, State.vdmQuiet]
@[simp] theorem State.endMode_kept (s : State) (p : Port) : State.Same s (State.endMode s p) := by
  simp [State.Same, State.endMode]
@[simp] theorem State.dropMsgs_kept (s : State) (p : Port) : State.Same s (State.dropMsgs s p) := by
  simp [State.Same, State.dropMsgs]
@[simp] theorem State.protReset_kept (s : State) (p : Port) : State.Same s (State.protReset s p) := by
  simp [State.Same, State.protReset]
@[simp] theorem State.stageHalt_kept (s : State) (p : Port) : State.Same s (State.stageHalt s p) := by
  simp [State.Same, State.stageHalt]
@[simp] theorem State.release_kept (s : State) (p : Port) : State.Same s (State.release s p) := by
  simp [State.Same, State.release]
@[simp] theorem State.noteFree_kept (s : State) (old : Int) : State.Same s (State.noteFree s old) := by
  simp [State.Same, State.noteFree]
@[simp] theorem State.leave_kept (s : State) (p : Port) (st : ConnState) : State.Same s (State.leave s p st) := by
  simp [State.Same, State.leave]
@[simp] theorem State.detach_kept (s : State) (p : Port) : State.Same s (State.detach s p) := by
  simp [State.Same, State.detach]
@[simp] theorem State.guardOff_kept (s : State) (p : Port) : State.Same s (State.guardOff s p) := by
  unfold State.guardOff; (repeat' split) <;> simp [State.Same]
@[simp] theorem State.errRecov_kept (s : State) (p : Port) : State.Same s (State.errRecov s p) := by
  simp [State.Same, State.errRecov]
@[simp] theorem State.shedPort_kept (s : State) (p : Port) : State.Same s (State.shedPort s p) := by
  simp [State.Same, State.shedPort]
@[simp] theorem State.shedCuts_kept (n : Nat) (s : State) : State.Same s (State.shedCuts n s) := by
  induction n generalizing s with
  | zero => simp [State.Same, State.shedCuts]
  | succ n ih => unfold State.shedCuts; (repeat' split) <;> simp [State.Same, ih]
@[simp] theorem State.twinNotice_kept (s : State) (p : Port) : State.Same s (State.twinNotice s p) := by
  unfold State.twinNotice; (try dsimp only); (repeat' split) <;> simp [State.Same]
@[simp] theorem State.shedErr_kept (n : Nat) (s : State) : State.Same s (State.shedErr n s) := by
  induction n generalizing s with
  | zero => simp [State.Same, State.shedErr]
  | succ n ih => unfold State.shedErr; (repeat' split) <;> simp [State.Same, ih]
@[simp] theorem State.shedEnd_kept (s : State) : State.Same s (State.shedEnd s) := by
  simp [State.Same, State.shedEnd]
@[simp] theorem State.shed_kept (s : State) : State.Same s (State.shed s) := by
  simp [State.Same, State.shed]
@[simp] theorem State.ledger_kept (s : State) (f : State → State) (hf : ∀ s, State.Same s (f s)) : State.Same s (State.ledger s f) := by
  unfold State.ledger; (repeat' split) <;> simp [State.Same, *]
@[simp] theorem State.ledgerOf_kept (s : State) (p : Port) (f : State → State) (hf : ∀ s, State.Same s (f s)) :
    State.Same s (State.ledgerOf s p f) := by
  simp [State.Same, State.ledgerOf, s.ledger_kept f hf]
@[simp] theorem State.slcTo_kept (s : State) (p : Port) (f : Slc → Slc) : State.Same s (State.slcTo s p f) := by
  simp [State.Same, State.slcTo]
@[simp] theorem State.slcOff_kept (s : State) (p : Port) : State.Same s (State.slcOff s p) := by
  unfold State.slcOff; (repeat' split) <;> simp [State.Same] <;> (repeat' split) <;> simp
@[simp] theorem State.faultLeave_kept (s : State) (p : Port) (k : FaultKind) : State.Same s (State.faultLeave s p k) := by
  simp [State.Same, State.faultLeave]
@[simp] theorem State.onSide_kept (s : State) (east : Bool) (f : LinkPort → LinkPort) : State.Same s (State.onSide s east f) := by
  simp [State.Same, State.onSide]
@[simp] theorem State.lnkCnt_kept (s : State) (east : Bool) (i : Fin 6) : State.Same s (State.lnkCnt s east i) := by
  simp [State.Same, State.lnkCnt]
@[simp] theorem State.drift_kept (s : State) (east : Bool) : State.Same s (State.drift s east) := by
  unfold State.drift; (try dsimp only); (repeat' split) <;> simp [State.Same]
@[simp] theorem State.sendFrame_kept (s : State) (east : Bool) (f : LinkFrame) : State.Same s (State.sendFrame s east f) := by
  simp [State.Same, State.sendFrame]
@[simp] theorem State.sendLine_kept (s : State) (east : Bool) (f : LinkFrame) : State.Same s (State.sendLine s east f) := by
  simp [State.Same, State.sendLine]
@[simp] theorem State.nextXid_kept (s : State) (east : Bool) (amount ends : Nat) : State.Same s (s.nextXid east amount ends).2 := by
  simp [State.Same, State.nextXid]
@[simp] theorem State.sendGrant_kept (s : State) (east : Bool) (req loan : BitVec 16) (amount leaseMs : Nat) : State.Same s (State.sendGrant s east req loan amount leaseMs) := by
  simp [State.Same, State.sendGrant]
@[simp] theorem State.sendLapse_kept (s : State) (east : Bool) (loan : BitVec 16) (amount ends : Nat) : State.Same s (State.sendLapse s east loan amount ends) := by
  simp [State.Same, State.sendLapse]
@[simp] theorem State.onLoan_kept (s : State) (i : Fin 32) (f : Loan → Loan) : State.Same s (State.onLoan s i f) := by
  simp [State.Same, State.onLoan]
@[simp] theorem State.dropLoan_kept (s : State) (i : Fin 32) : State.Same s (State.dropLoan s i) := by
  simp [State.Same, State.dropLoan]
@[simp] theorem State.setReq_kept (s : State) (east : Bool) (r : Option LoanReq) : State.Same s (State.setReq s east r) := by
  simp [State.Same, State.setReq]
@[simp] theorem State.askSide_kept (s : State) (east : Bool) (amount hops : Nat) (second any : Bool) (up : Option (BitVec 16)) : State.Same s (State.askSide s east amount hops second any up) := by
  simp [State.Same, State.askSide]
@[simp] theorem State.refuseRelays_kept (s : State) (gone : Relayed → Bool) : State.Same s (State.refuseRelays s gone) := by
  unfold State.refuseRelays
  have h := foldl_kept (fun (s : State) (r : Relayed) =>
    if r.granted || !s.carries (!r.east) then s else s.sendFrame (!r.east) (.refuse r.up))
    (fun s i => by split <;> simp [State.Same]) (s.cis.relays.filter gone)
    { s with cis := { s.cis with relays := s.cis.relays.filter fun r => !gone r } }
  exact h
@[simp] theorem State.seek_kept (s : State) (short : Nat) : State.Same s (State.seek s short) := by
  simp [State.Same, State.seek]
@[simp] theorem State.vdmTimersOff_kept (s : State) (p : Port) : State.Same s (State.vdmTimersOff s p) := by
  simp [State.Same, State.vdmTimersOff]
@[simp] theorem State.cableTimersOff_kept (s : State) (p : Port) : State.Same s (State.cableTimersOff s p) := by
  unfold State.cableTimersOff; (try dsimp only); (repeat' split) <;> simp [State.Same]
@[simp] theorem State.vdmInterrupt_kept (s : State) (p : Port) : State.Same s (State.vdmInterrupt s p) := by
  simp [State.Same, State.vdmInterrupt]
@[simp] theorem State.offerTry_kept (s : State) (p : Port) (n : Nat) : State.Same s (State.offerTry s p n) := by
  simp [State.Same, State.offerTry]
@[simp] theorem State.offer_kept (s : State) (p : Port) : State.Same s (State.offer s p) := by
  simp [State.Same, State.offer]
@[simp] theorem State.offerDue_kept (s : State) (p : Port) : State.Same s (State.offerDue s p) := by
  simp [State.Same, State.offerDue]
@[simp] theorem State.evaluate_kept (s : State) (p : Port) : State.Same s (State.evaluate s p) := by
  simp [State.Same, State.evaluate]
@[simp] theorem State.accessory_kept (s : State) (p : Port) : State.Same s (State.accessory s p) := by
  simp [State.Same, State.accessory]
@[simp] theorem State.noteFrom_kept (s : State) (p : Port) (old : ConnState) : State.Same s (State.noteFrom s p old) := by
  unfold State.noteFrom; (try dsimp only); (repeat' split) <;> simp [State.Same]
@[simp] theorem State.toUnatt_kept (s : State) (p : Port) : State.Same s (State.toUnatt s p) := by
  simp [State.Same, State.toUnatt]
@[simp] theorem State.seeVbc_kept (s : State) (p : Port) (mv : Nat) : State.Same s (State.seeVbc s p mv) := by
  simp [State.Same, State.seeVbc]
@[simp] theorem State.vbcFell_kept (s old : State) (p : Port) : State.Same s (State.vbcFell s old p) := by
  unfold State.vbcFell; (try dsimp only); (repeat' split) <;> simp [State.Same]
@[simp] theorem State.limitsFor_kept (s : State) (p : Port) (c : Option Contract) (raise : Bool) : State.Same s (State.limitsFor s p c raise) := by
  simp [State.Same, State.limitsFor]
@[simp] theorem State.limitsNow_kept (s : State) (p : Port) : State.Same s (State.limitsNow s p) := by
  simp [State.Same, State.limitsNow]
@[simp] theorem State.vconnOn_kept (s : State) (p : Port) : State.Same s (State.vconnOn s p) := by
  simp [State.Same, State.vconnOn]
@[simp] theorem State.vconnTry_kept (s : State) (p : Port) : State.Same s (State.vconnTry s p) := by
  simp [State.Same, State.vconnTry]
@[simp] theorem State.attachSrc_kept (s : State) (p : Port) : State.Same s (State.attachSrc s p) := by
  simp [State.Same, State.attachSrc]
@[simp] theorem State.attachSnk_kept (s : State) (p : Port) : State.Same s (State.attachSnk s p) := by
  simp [State.Same, State.attachSnk]
@[simp] theorem State.isetFirst_kept (s : State) (p : Port) : State.Same s (State.isetFirst s p) := by
  unfold State.isetFirst; (try dsimp only); (repeat' split) <;> simp [State.Same]
@[simp] theorem State.stageUp_kept (s : State) (p : Port) : State.Same s (State.stageUp s p) := by
  unfold State.stageUp; (try dsimp only); (repeat' split) <;> simp [State.Same]
@[simp] theorem State.tryAttach_kept (s : State) (p : Port) : State.Same s (State.tryAttach s p) := by
  simp [State.Same, State.tryAttach]
@[simp] theorem State.ccJudge_kept (s : State) (p : Port) (had : Bool) : State.Same s (State.ccJudge s p had) := by
  unfold State.ccJudge; (try dsimp only); (repeat' split) <;> simp [State.Same]
@[simp] theorem State.twinRetry_kept (s : State) (p : Port) : State.Same s (State.twinRetry s p) := by
  unfold State.twinRetry; (repeat' split) <;> simp [State.Same] <;> (repeat' split) <;> simp
@[simp] theorem State.twinStart_kept (s : State) (p : Port) : State.Same s (State.twinStart s p) := by
  unfold State.twinStart; (try dsimp only); (repeat' split) <;> simp [State.Same]
@[simp] theorem State.twinFreed_kept (s : State) (p : Port) : State.Same s (State.twinFreed s p) := by
  simp [State.Same, State.twinFreed]
@[simp] theorem State.twinLost_kept (s : State) (p : Port) : State.Same s (State.twinLost s p) := by
  unfold State.twinLost; (try dsimp only); (repeat' split) <;> simp [State.Same]
@[simp] theorem State.vbcLow_kept (s : State) (p : Port) : State.Same s (State.vbcLow s p) := by
  unfold State.vbcLow; (try dsimp only); (repeat' split) <;> simp [State.Same]
@[simp] theorem State.tryRamp_kept (s : State) (p : Port) : State.Same s (State.tryRamp s p) := by
  simp [State.Same, State.tryRamp]
@[simp] theorem State.popSlc_kept (s : State) (p : Port) : State.Same s (State.popSlc s p) := by
  simp [State.Same, State.popSlc]
@[simp] theorem State.trip_kept (s : State) (p : Port) (cause : Nat) : State.Same s (State.trip s p cause) := by
  unfold State.trip; (try dsimp only); (repeat' split) <;> simp [State.Same]
@[simp] theorem State.gateDown_kept (s : State) (p : Port) (dur : Nat) : State.Same s (State.gateDown s p dur) := by
  unfold State.gateDown; (try dsimp only); (repeat' split) <;> simp [State.Same]
@[simp] theorem State.limpOff_kept (s : State) (p : Port) : State.Same s (State.limpOff s p) := by
  unfold State.limpOff; (try dsimp only); (repeat' split) <;> simp [State.Same]
@[simp] theorem State.popStg_kept (s : State) (p : Port) : State.Same s (State.popStg s p) := by
  simp [State.Same, State.popStg]
@[simp] theorem State.startWait_kept (s : State) (fsw : Nat) : State.Same s (State.startWait s fsw).2 := by
  unfold State.startWait; (try dsimp only); (repeat' split) <;> simp [State.Same]
@[simp] theorem State.refCmd_kept (s : State) (p : Port) (f : PortState → PortState) : State.Same s (State.refCmd s p f) := by
  unfold State.refCmd; (try dsimp only); (repeat' split) <;> simp [State.Same]
@[simp] theorem State.freerun_kept (s : State) : State.Same s (State.freerun s) := by
  simp [State.Same, State.freerun]
@[simp] theorem State.setPump_kept (s : State) (n : Pump) (r : Option PumpRun) : State.Same s (State.setPump s n r) := by
  simp [State.Same, State.setPump]
@[simp] theorem State.pumpFree_kept (s : State) (n : Pump) (r : PumpRun) (cycles : Nat) : State.Same s (State.pumpFree s n r cycles) := by
  simp [State.Same, State.pumpFree]
@[simp] theorem State.deliver_kept (s : State) (r : PumpRun) : State.Same s (State.deliver s r) := by
  simp [State.Same, State.deliver]
@[simp] theorem State.noteWait_kept (s : State) (p : Port) (wait : Nat) : State.Same s (State.noteWait s p wait) := by
  simp [State.Same, State.noteWait]
@[simp] theorem State.noteSteal_kept (s : State) (n : Pump) (p : Port) (tie level : Bool) : State.Same s (State.noteSteal s n p tie level) := by
  unfold State.noteSteal; (try dsimp only); (repeat' split) <;> simp [State.Same]
@[simp] theorem State.dispatch_kept (s : State) (n : Pump) (p : Port) (tie level preset : Bool) (wait : Nat) : State.Same s (State.dispatch s n p tie level preset wait) := by
  unfold State.dispatch; (try dsimp only); (repeat' split) <;> simp [State.Same]
@[simp] theorem State.badCoef_kept (s : State) (p : Port) : State.Same s (State.badCoef s p) := by
  simp [State.Same, State.badCoef]
@[simp] theorem State.hostAuto_kept (s : State) (p : Port) : State.Same s (State.hostAuto s p) := by
  simp [State.Same, State.hostAuto]
@[simp] theorem State.wrLoopCtl_kept (s : State) (p : Port) (w : Word) : State.Same s (State.wrLoopCtl s p w) := by
  simp [State.Same, State.wrLoopCtl]
@[simp] theorem State.wrLoopMduty_kept (s : State) (p : Port) (w : Word) : State.Same s (State.wrLoopMduty s p w) := by
  simp [State.Same, State.wrLoopMduty]
@[simp] theorem State.wrCoef_kept (s : State) (p : Port) (i : Fin 256) (w : Word) : State.Same s (State.wrCoef s p i w) := by
  simp [State.Same, State.wrCoef]
@[simp] theorem State.onProt_kept (s : State) (p : Port) (f : Prot → Prot) : State.Same s (State.onProt s p f) := by
  simp [State.Same, State.onProt]
@[simp] theorem State.hardResetSeen_kept (s : State) (p : Port) : State.Same s (State.hardResetSeen s p) := by
  simp [State.Same, State.hardResetSeen]
@[simp] theorem State.accept_kept (s : State) (p : Port) (k : Packet) : State.Same s (State.accept s p k) := by
  unfold State.accept; (repeat' split) <;> simp [State.Same] <;> (repeat' split) <;> simp
@[simp] theorem State.lineIdle_kept (s : State) (p : Port) : State.Same s (State.lineIdle s p) := by
  unfold State.lineIdle; (try dsimp only); (repeat' split) <;> simp [State.Same]
@[simp] theorem State.packetEnd_kept (s : State) (p : Port) (amp : Nat) : State.Same s (State.packetEnd s p amp) := by
  unfold State.packetEnd; (try dsimp only); (repeat' split) <;> simp [State.Same]
@[simp] theorem State.hrTimers_kept (s : State) (p : Port) : State.Same s (State.hrTimers s p) := by
  unfold State.hrTimers; (try dsimp only); (repeat' split) <;> simp [State.Same]
@[simp] theorem State.onPd_kept (s : State) (p : Port) (f : Pd → Pd) : State.Same s (State.onPd s p f) := by
  simp [State.Same, State.onPd]
@[simp] theorem State.onVdm_kept (s : State) (p : Port) (f : VdmP → VdmP) : State.Same s (State.onVdm s p f) := by
  simp [State.Same, State.onVdm]
@[simp] theorem State.vdmSend_kept (s : State) (p : Port) (st : VdmState) (v : Vdm) : State.Same s (State.vdmSend s p st v) := by
  simp [State.Same, State.vdmSend]
@[simp] theorem State.cabSend_kept (s : State) (p : Port) (st : VdmState) (v : Vdm) : State.Same s (State.cabSend s p st v) := by
  unfold State.cabSend; (try dsimp only); (repeat' split) <;> simp [State.Same]
@[simp] theorem State.cableTry_kept (s : State) (p : Port) : State.Same s (State.cableTry s p) := by
  simp [State.Same, State.cableTry]
@[simp] theorem State.cabAgain_kept (s : State) (p : Port) : State.Same s (State.cabAgain s p) := by
  unfold State.cabAgain; (try dsimp only); (repeat' split) <;> simp [State.Same]
@[simp] theorem State.vdmAgain_kept (s : State) (p : Port) : State.Same s (State.vdmAgain s p) := by
  unfold State.vdmAgain; (repeat' split) <;> simp [State.Same]
@[simp] theorem State.noMode_kept (s : State) (p : Port) : State.Same s (State.noMode s p) := by
  simp [State.Same, State.noMode]
@[simp] theorem State.nextEntry_kept (s : State) (p : Port) : State.Same s (State.nextEntry s p) := by
  unfold State.nextEntry; (repeat' split) <;> simp [State.Same] <;> (repeat' split) <;> simp
@[simp] theorem State.cableDone_kept (s : State) (p : Port) (next : State → State) (hnext : ∀ s, State.Same s (next s)) : State.Same s (State.cableDone s p next) := by
  unfold State.cableDone; (repeat' split) <;> simp [State.Same, *]
@[simp] theorem State.cableFailed_kept (s : State) (p : Port) (next : State → State) (hnext : ∀ s, State.Same s (next s)) : State.Same s (State.cableFailed s p next) := by
  unfold State.cableFailed; (repeat' split) <;> simp [State.Same, *]
@[simp] theorem State.cableTryFailed_kept (s : State) (p : Port) (next : State → State) (hnext : ∀ s, State.Same s (next s)) : State.Same s (State.cableTryFailed s p next) := by
  unfold State.cableTryFailed; (repeat' split) <;> simp [State.Same, *]
@[simp] theorem State.alertTry_kept (s : State) (p : Port) : State.Same s (State.alertTry s p) := by
  unfold State.alertTry; (repeat' split) <;> simp [State.Same] <;> (repeat' split) <;> simp
@[simp] theorem State.alertInput_kept (s : State) (p : Port) (c : InputCause) : State.Same s (State.alertInput s p c) := by
  unfold State.alertInput; (try dsimp only); (repeat' split) <;> simp [State.Same]
@[simp] theorem State.alertTemp_kept (s : State) (p : Port) (derated : Bool) : State.Same s (State.alertTemp s p derated) := by
  simp [State.Same, State.alertTemp]
@[simp] theorem State.firstReady_kept (s : State) (p : Port) : State.Same s (State.firstReady s p) := by
  simp [State.Same, State.firstReady]
@[simp] theorem State.readyTail_kept (s : State) (p : Port) : State.Same s (State.readyTail s p) := by
  simp [State.Same, State.readyTail]
@[simp] theorem State.enterReady_kept (s : State) (p : Port) : State.Same s (State.enterReady s p) := by
  simp [State.Same, State.enterReady]
@[simp] theorem State.sinkReady_kept (s : State) (p : Port) : State.Same s (State.sinkReady s p) := by
  simp [State.Same, State.sinkReady]
@[simp] theorem State.takeVconn_kept (s : State) (p : Port) : State.Same s (State.takeVconn s p) := by
  simp [State.Same, State.takeVconn]
@[simp] theorem State.dropVconn_kept (s : State) (p : Port) : State.Same s (State.dropVconn s p) := by
  simp [State.Same, State.dropVconn]
@[simp] theorem State.eprFail_kept (s : State) (p : Port) (reason : Nat) : State.Same s (State.eprFail s p reason) := by
  simp [State.Same, State.eprFail]
@[simp] theorem State.eprAnswer_kept (s : State) (p : Port) : State.Same s (State.eprAnswer s p) := by
  simp [State.Same, State.eprAnswer]
@[simp] theorem State.vcsFailed_kept (s : State) (p : Port) : State.Same s (State.vcsFailed s p) := by
  simp [State.Same, State.vcsFailed]
@[simp] theorem State.dropPledge_kept (s : State) (p : Port) : State.Same s (State.dropPledge s p) := by
  simp [State.Same, State.dropPledge]
@[simp] theorem State.softReset_kept (s : State) (p : Port) : State.Same s (State.softReset s p) := by
  simp [State.Same, State.softReset]
@[simp] theorem State.hrBegin_kept (s : State) (p : Port) : State.Same s (State.hrBegin s p) := by
  simp [State.Same, State.hrBegin]
@[simp] theorem State.toErrRecov_kept (s : State) (p : Port) : State.Same s (State.toErrRecov s p) := by
  simp [State.Same, State.toErrRecov]
@[simp] theorem State.hardReset_kept (s : State) (p : Port) : State.Same s (State.hardReset s p) := by
  simp [State.Same, State.hardReset]
@[simp] theorem State.hrDischarged_kept (s : State) (p : Port) : State.Same s (State.hrDischarged s p) := by
  simp [State.Same, State.hrDischarged]
@[simp] theorem State.say_kept (s : State) (p : Port) (m : PdMsg) : State.Same s (State.say s p m) := by
  simp [State.Same, State.say]
@[simp] theorem State.notSupported_kept (s : State) (p : Port) : State.Same s (State.notSupported s p) := by
  simp [State.Same, State.notSupported]
@[simp] theorem State.refuseSwap_kept (s : State) (p : Port) : State.Same s (State.refuseSwap s p) := by
  simp [State.Same, State.refuseSwap]
@[simp] theorem State.reject_kept (s : State) (p : Port) : State.Same s (State.reject s p) := by
  simp [State.Same, State.reject]
@[simp] theorem State.acceptReq_kept (s : State) (p : Port) (c : Contract) : State.Same s (State.acceptReq s p c) := by
  simp [State.Same, State.acceptReq]
@[simp] theorem State.waitTwin_kept (s : State) (p : Port) : State.Same s (State.waitTwin s p) := by
  simp [State.Same, State.waitTwin]
@[simp] theorem State.waitCred_kept (s : State) (p : Port) (short : Nat) : State.Same s (State.waitCred s p short) := by
  simp [State.Same, State.waitCred]
@[simp] theorem State.admission_kept (s : State) (p : Port) (r : Rdo) (eprMsg : Bool) : State.Same s (State.admission s p r eprMsg) := by
  unfold State.admission; (repeat' split) <;> simp [State.Same] <;> (repeat' split) <;> simp
@[simp] theorem State.sinkContract_kept (s : State) (p : Port) (c : Contract) : State.Same s (State.sinkContract s p c) := by
  simp [State.Same, State.sinkContract]
@[simp] theorem State.eprLeft_kept (s : State) (p : Port) : State.Same s (State.eprLeft s p) := by
  simp [State.Same, State.eprLeft]
@[simp] theorem State.contractReached_kept (s : State) (p : Port) : State.Same s (State.contractReached s p) := by
  unfold State.contractReached; (repeat' split) <;> simp [State.Same]
@[simp] theorem State.acceptAcked_kept (s : State) (p : Port) : State.Same s (State.acceptAcked s p) := by
  simp [State.Same, State.acceptAcked]
@[simp] theorem State.vdmStepFails_kept (s : State) (p : Port) : State.Same s (s.vdmStepFails p) := by
  unfold State.vdmStepFails; dsimp only; split <;> simp [State.Same]
@[simp] theorem State.cabStepFails_kept (s : State) (p : Port) : State.Same s (State.cabStepFails s p) := by
  unfold State.cabStepFails; (try dsimp only); (repeat' split) <;> simp [State.Same]
@[simp] theorem State.capsFailed_kept (s : State) (p : Port) : State.Same s (State.capsFailed s p) := by
  simp [State.Same, State.capsFailed]
@[simp] theorem State.loseOutput_kept (s : State) (p : Port) : State.Same s (State.loseOutput s p) := by
  unfold State.loseOutput; dsimp only; (repeat' split) <;> simp [State.Same]
@[simp] theorem State.verSeen_kept (s : State) (p : Port) (v : Vdm) : State.Same s (State.verSeen s p v) := by
  unfold State.verSeen; (try dsimp only); (repeat' split) <;> simp [State.Same]
@[simp] theorem State.vdmAnswered_kept (s : State) (p : Port) (v : Vdm) : State.Same s (State.vdmAnswered s p v) := by
  simp [State.Same, State.vdmAnswered]
@[simp] theorem State.askSvids_kept (s : State) (p : Port) : State.Same s (State.askSvids s p) := by
  simp [State.Same, State.askSvids]
@[simp] theorem State.modeReached_kept (s : State) (p : Port) : State.Same s (State.modeReached s p) := by
  unfold State.modeReached; (try dsimp only); (repeat' split) <;> simp [State.Same]
@[simp] theorem State.setHpd_kept (s : State) (p : Port) (b : Bool) : State.Same s (State.setHpd s p b) := by
  unfold State.setHpd; (try dsimp only); (repeat' split) <;> simp [State.Same]
@[simp] theorem State.hpdEffect_kept (s : State) (p : Port) (was hpd irq : Bool) : State.Same s (State.hpdEffect s p was hpd irq) := by
  unfold State.hpdEffect; (try dsimp only); (repeat' split) <;> simp [State.Same]
@[simp] theorem State.dpAttention_kept (s : State) (p : Port) (w : Word) : State.Same s (State.dpAttention s p w) := by
  unfold State.dpAttention; (try dsimp only); (repeat' split) <;> simp [State.Same]
@[simp] theorem State.onGrd_kept (s : State) (p : Port) (f : GrdP → GrdP) : State.Same s (State.onGrd s p f) := by
  simp [State.Same, State.onGrd]
@[simp] theorem State.guardPost_kept (s : State) (p : Port) (offer : Bool) : State.Same s (State.guardPost s p offer) := by
  simp [State.Same, State.guardPost]
@[simp] theorem State.guardCut_kept (s : State) (p : Port) : State.Same s (State.guardCut s p) := by
  simp [State.Same, State.guardCut]
@[simp] theorem State.guardFree_kept (s : State) (p : Port) : State.Same s (State.guardFree s p) := by
  simp [State.Same, State.guardFree]
@[simp] theorem State.setWet_kept (s : State) (p : Port) : State.Same s (State.setWet s p) := by
  simp [State.Same, State.setWet]
@[simp] theorem State.setFlood_kept (s : State) (p : Port) : State.Same s (State.setFlood s p) := by
  simp [State.Same, State.setFlood]
@[simp] theorem State.judgeWet_kept (s : State) (p : Port) : State.Same s (State.judgeWet s p) := by
  simp [State.Same, State.judgeWet]
@[simp] theorem State.judgeCorr_kept (s : State) (p : Port) (mv : Int) : State.Same s (State.judgeCorr s p mv) := by
  simp [State.Same, State.judgeCorr]
@[simp] theorem State.judgeZero_kept (s : State) (p : Port) : State.Same s (State.judgeZero s p) := by
  unfold State.judgeZero; (try dsimp only); (repeat' split) <;> simp [State.Same]
@[simp] theorem State.dieHotOn_kept (s : State) (p : Port) : State.Same s (State.dieHotOn s p) := by
  unfold State.dieHotOn; (try dsimp only); (repeat' split) <;> simp [State.Same]
@[simp] theorem State.onMet_kept (s : State) (p : Port) (f : Met → Met) : State.Same s (State.onMet s p f) := by
  simp [State.Same, State.onMet]
@[simp] theorem State.askTally_kept (s : State) (k : TallyKind) : State.Same s (State.askTally s k) := by
  simp [State.Same, State.askTally]
@[simp] theorem State.wrBclr_kept (s : State) (w : Word) : State.Same s (State.wrBclr s w) := by
  unfold State.wrBclr; (repeat' split) <;> simp [State.Same]
@[simp] theorem State.latchMet_kept (s : State) (t : Target) (p : Port) : State.Same s (State.latchMet s t p) := by
  simp [State.Same, State.latchMet]
@[simp] theorem State.onGrp_kept (s : State) (g : Group) (f : Grp → Grp) : State.Same s (State.onGrp s g f) := by
  simp [State.Same, State.onGrp]
@[simp] theorem State.onMod_kept (s : State) (p : Port) (i : Fin 3) (f : Modl → Modl) : State.Same s (State.onMod s p i f) := by
  simp [State.Same, State.onMod]
@[simp] theorem State.prefSee_kept (s : State) (d : WDie) (uv : Nat) : State.Same s (State.prefSee s d uv) := by
  unfold State.prefSee; (repeat' split) <;> simp [State.Same]
@[simp] theorem State.flashTally_kept (s : State) : State.Same s (State.flashTally s) := by
  unfold State.flashTally; (try dsimp only); (repeat' split) <;> simp [State.Same]
@[simp] theorem State.tryRecord_kept (s : State) (k : TallyKind) : State.Same s (State.tryRecord s k) := by
  simp [State.Same, State.tryRecord]
@[simp] theorem State.slotDone_kept (s : State) : State.Same s (State.slotDone s) := by
  simp [State.Same, State.slotDone]
@[simp] theorem State.restoreTally_kept (s : State) (l : List TallySlot) : State.Same s (s.restoreTally l) := by
  have hf : ∀ (b : List Byte) (s : State), State.Same s
      (s.forPorts allPorts fun s p => s.onMet p fun m => m.restore (bytesAt b (0x40 + 40 * p.val) 40)) :=
    fun b s => State.forPorts_kept s _ _ fun s p => s.onMet_kept p _
  unfold State.restoreTally
  (repeat' split) <;> (try simp [State.Same]) <;> (repeat' split) <;> simp [hf]
@[simp] theorem State.firstErase_kept (s : State) : State.Same s (State.firstErase s) := by
  simp [State.Same, State.firstErase]
@[simp] theorem State.supFreeze_kept (s : State) : State.Same s (State.supFreeze s) := by
  simp [State.Same, State.supFreeze]
@[simp] theorem State.wake_kept (s : State) (src : WakeSource) : State.Same s (State.wake s src) := by
  unfold State.wake; (repeat' split) <;> simp [State.Same]
@[simp] theorem State.seeVsb_kept (s : State) : State.Same s (State.seeVsb s) := by
  unfold State.seeVsb; (try dsimp only); (repeat' split) <;> simp [State.Same]
@[simp] theorem State.seeA_kept (s : State) (v : Nat) : State.Same s (s.seeA v) := by
  unfold State.seeA State.onSup; (repeat' split) <;> simp [State.Same]
@[simp] theorem State.seeB_kept (s : State) (v : Nat) : State.Same s (s.seeB v) := by
  unfold State.seeB State.onSup; (repeat' split) <;> simp [State.Same]
@[simp] theorem State.warnTally_kept (s : State) : State.Same s (State.warnTally s) := by
  simp [State.Same, State.warnTally]
@[simp] theorem State.setWrn_kept (s : State) : State.Same s (s.setWrn) := by
  unfold State.setWrn State.onSup; (repeat' split) <;> simp [State.Same]
@[simp] theorem State.crierAsk_kept (s : State) (c : InputCause) : State.Same s (State.crierAsk s c) := by
  unfold State.crierAsk; (try dsimp only); (repeat' split) <;> simp [State.Same]
@[simp] theorem State.clearWrn_kept (s : State) : State.Same s (s.clearWrn) := by
  unfold State.clearWrn State.onSup; (repeat' split) <;> simp [State.Same]
@[simp] theorem State.gateSlow_kept (s : State) (slow : Bool) : State.Same s (State.gateSlow s slow) := by
  simp [State.Same, State.gateSlow]
@[simp] theorem State.dropBorrowed_kept (s : State) : State.Same s (s.dropBorrowed) := by
  unfold State.dropBorrowed
  generalize List.finRange 32 = l
  have h := foldl_kept (fun (s : State) (i : Fin 32) =>
    let l := s.loan i
    if l.valid && !l.lent then (((s.dropLoan i).sendLapse l.east l.id l.amount l.ends).cisEvt 4).cisCnt 4 else s)
    (fun s i => by dsimp only; split <;> simp [State.Same]) l
    { (s.refuseRelays fun _ => true) with
      cis := { (s.refuseRelays fun _ => true).cis with reqW := none, reqE := none, short := 0, rest := none } }
  have h2 := s.refuseRelays_kept fun _ => true
  simp_all [State.Same]
@[simp] theorem State.setProfile_kept (s : State) (reserve : Bool) : State.Same s (s.setProfile reserve) := by
  unfold State.setProfile; split <;> simp [State.Same]
@[simp] theorem State.loanNote_kept (s : State) : State.Same s (State.loanNote s) := by
  unfold State.loanNote; (try dsimp only); (repeat' split) <;> simp [State.Same]
@[simp] theorem State.seekNext_kept (s : State) : State.Same s (State.seekNext s) := by
  simp [State.Same, State.seekNext]
@[simp] theorem State.endSearch_kept (s : State) (any : Bool) : State.Same s (State.endSearch s any) := by
  unfold State.endSearch; (try dsimp only); (repeat' split) <;> simp [State.Same]
@[simp] theorem State.relayNext_kept (s : State) (east : Bool) : State.Same s (State.relayNext s east) := by
  unfold State.relayNext; (try dsimp only); (repeat' split) <;> simp [State.Same]
@[simp] theorem State.portFree_kept (s : State) (east : Bool) : State.Same s (State.portFree s east) := by
  unfold State.portFree; (try dsimp only); (repeat' split) <;> simp [State.Same]
@[simp] theorem State.closeReq_kept (s : State) (east : Bool) : State.Same s (State.closeReq s east) := by
  unfold State.closeReq; (repeat' split) <;> simp [State.Same]
@[simp] theorem State.noteLate_kept (s : State) (east : Bool) : State.Same s (State.noteLate s east) := by
  unfold State.noteLate; (try dsimp only); (repeat' split) <;> simp [State.Same]
@[simp] theorem State.lendOwn_kept (s : State) (east : Bool) (reqId : BitVec 16) (a : Nat) (i : Fin 32) : State.Same s (State.lendOwn s east reqId a i) := by
  simp [State.Same, State.lendOwn]
@[simp] theorem State.answerReq_kept (s : State) (east : Bool) (reqId : BitVec 16) (amount hops : Nat) : State.Same s (State.answerReq s east reqId amount hops) := by
  unfold State.answerReq; (repeat' split) <;> simp [State.Same]
@[simp] theorem State.borrowOwn_kept (s : State) (east : Bool) (reqId loanId : BitVec 16) (amount leaseMs : Nat) (i : Fin 32) :
    State.Same s (s.borrowOwn east reqId loanId amount leaseMs i) := by
  have hc : ∀ f : State → State, (∀ s, State.Same s (f s)) → State.Same s (s.ledger f) := fun f h => s.ledger_kept f h
  unfold State.borrowOwn
  simp only [State.Same]
  (repeat' split) <;> simp (disch := simp [State.Same]) [State.Same]
@[simp] theorem State.relayLoan_kept (s : State) (east : Bool) (loanId up : BitVec 16) (amount leaseMs : Nat) (i j : Fin 32) : State.Same s (State.relayLoan s east loanId up amount leaseMs i j) := by
  simp [State.Same, State.relayLoan]
@[simp] theorem State.relayGot_kept (s : State) (east : Bool) (reqId : BitVec 16) (a : Nat) : State.Same s (State.relayGot s east reqId a) := by
  unfold State.relayGot; (try dsimp only); (repeat' split) <;> simp [State.Same]
@[simp] theorem State.takeGrant_kept (s : State) (east : Bool) (reqId loanId : BitVec 16) (amount leaseMs : Nat) : State.Same s (State.takeGrant s east reqId loanId amount leaseMs) := by
  unfold State.takeGrant; (repeat' split) <;> simp [State.Same] <;> (repeat' split) <;> simp
@[simp] theorem State.lapseBorrowed_kept (s : State) (i : Fin 32) (a : Nat) : State.Same s (State.lapseBorrowed s i a) := by
  simp [State.Same, State.lapseBorrowed]
@[simp] theorem State.regain_kept (s : State) (i : Fin 32) (a : Nat) : State.Same s (State.regain s i a) := by
  simp [State.Same, State.regain]
@[simp] theorem State.outLapsed_kept (s : State) (i : Fin 32) (a : Nat) : State.Same s (State.outLapsed s i a) := by
  unfold State.outLapsed; (try dsimp only); (repeat' split) <;> simp [State.Same]
@[simp] theorem State.takeLapse_kept (s : State) (east : Bool) (loanId : BitVec 16) (amount : Nat) : State.Same s (State.takeLapse s east loanId amount) := by
  unfold State.takeLapse; (repeat' split) <;> simp [State.Same]
@[simp] theorem State.sendRenew_kept (s : State) (i : Fin 32) (a leaseMs : Nat) : State.Same s (State.sendRenew s i a leaseMs) := by
  simp [State.Same, State.sendRenew]
@[simp] theorem State.takeRenew_kept (s : State) (east : Bool) (loanId : BitVec 16) (amount leaseMs : Nat) : State.Same s (State.takeRenew s east loanId amount leaseMs) := by
  unfold State.takeRenew; (repeat' split) <;> simp [State.Same]
@[simp] theorem State.takeRenewAck_kept (s : State) (east : Bool) (loanId : BitVec 16) (kept : Nat) : State.Same s (State.takeRenewAck s east loanId kept) := by
  unfold State.takeRenewAck; (repeat' split) <;> simp [State.Same]
@[simp] theorem State.dropLoans_kept (s : State) (east : Bool) : State.Same s (s.dropLoans east) :=
  s.ledger_kept _ fun s => foldl_kept _ (fun s i => by dsimp only; split <;> simp [State.Same]) _ s
@[simp] theorem State.takeId_kept (s : State) (n : Nat) : State.Same s (State.takeId s n) := by
  simp [State.Same, State.takeId]
@[simp] theorem State.chainWave_kept (s : State) : State.Same s (State.chainWave s) := by
  simp [State.Same, State.chainWave]
@[simp] theorem State.sendWest_kept (s : State) (f : LinkFrame) : State.Same s (State.sendWest s f) := by
  simp [State.Same, State.sendWest]
@[simp] theorem State.setLink_kept (s : State) (east : Bool) (st : LinkState) : State.Same s (State.setLink s east st) := by
  simp [State.Same, State.setLink]
@[simp] theorem State.reopen_kept (s : State) : State.Same s (State.reopen s) := by
  unfold State.reopen; (try dsimp only); (repeat' split) <;> simp [State.Same]
@[simp] theorem State.portChanged_kept (s : State) (prompt : Bool) : State.Same s (State.portChanged s prompt) := by
  unfold State.portChanged; (try dsimp only); (repeat' split) <;> simp [State.Same]
@[simp] theorem State.linkChanged_kept (s : State) : State.Same s (State.linkChanged s) := by
  simp [State.Same, State.linkChanged]
@[simp] theorem State.wakeSide_kept (s : State) (east : Bool) : State.Same s (State.wakeSide s east) := by
  unfold State.wakeSide; dsimp only; (repeat' split) <;> simp [State.Same]
@[simp] theorem State.startAudit_kept (s : State) : State.Same s (State.startAudit s) := by
  simp [State.Same, State.startAudit]
@[simp] theorem State.auditResult_kept (s : State) (no : BitVec 16) (r : BitVec 3) (nodes : BitVec 16) : State.Same s (State.auditResult s no r nodes) := by
  simp [State.Same, State.auditResult]
@[simp] theorem State.auditBack_kept (s : State) (t : AuditTok) : State.Same s (State.auditBack s t) := by
  simp [State.Same, State.auditBack]
@[simp] theorem State.heardOn_kept (s : State) (east : Bool) : State.Same s (State.heardOn s east) := by
  unfold State.heardOn; (try dsimp only); (repeat' split) <;> simp [State.Same]
@[simp] theorem State.dowserStop_kept (s : State) : State.Same s (State.dowserStop s) := by
  unfold State.dowserStop; (try dsimp only); (repeat' split) <;> simp [State.Same]
@[simp] theorem State.restNow_kept (s : State) : State.Same s (State.restNow s) := by
  unfold State.restNow; (try dsimp only); (repeat' split) <;> simp [State.Same]
@[simp] theorem State.sleepSent_kept (s : State) (f : LinkFrame) : State.Same s (State.sleepSent s f) := by
  unfold State.sleepSent; (try dsimp only); (repeat' split) <;> simp [State.Same]
@[simp] theorem State.ringEnds_kept (s : State) (uid : BitVec 48) : State.Same s (State.ringEnds s uid) := by
  unfold State.ringEnds; (try dsimp only); (repeat' split) <;> simp [State.Same]
@[simp] theorem State.takeEnum_kept (s : State) (nextId : BitVec 16) (uid : BitVec 48) (chain : Bool) : State.Same s (State.takeEnum s nextId uid chain) := by
  simp [State.Same, State.takeEnum]
@[simp] theorem State.takeEnumDone_kept (s : State) (nodes : BitVec 16) (closing : Bool) : State.Same s (State.takeEnumDone s nodes closing) := by
  simp [State.Same, State.takeEnumDone]
@[simp] theorem State.takeAudit_kept (s : State) (east : Bool) (t : AuditTok) : State.Same s (State.takeAudit s east t) := by
  simp [State.Same, State.takeAudit]
@[simp] theorem State.linkReset_kept (s : State) (e : Bool) : State.Same s (State.linkReset s e) := by
  simp [State.Same, State.linkReset]
@[simp] theorem State.wrLnkCtl_kept (s : State) (w : Word) : State.Same s (State.wrLnkCtl s w) := by
  simp [State.Same, State.wrLnkCtl]
@[simp] theorem State.supHeard_kept (s : State) (d : WDie) : State.Same s (State.supHeard s d) := by
  unfold State.supHeard; (repeat' split) <;> simp [State.Same, Sup.hear]
@[simp] theorem State.linksDone_kept (s : State) : State.Same s (State.linksDone s) := by
  simp [State.Same, State.linksDone]
@[simp] theorem State.stopPhase_kept (s : State) (c : StopCause) : State.Same s (s.stopPhase c) := by
  unfold State.stopPhase; split <;> simp [State.Same]
@[simp] theorem State.wrDevRst_kept (s : State) (w : Word) : State.Same s (State.wrDevRst s w) := by
  simp [State.Same, State.wrDevRst]
@[simp] theorem State.wrAlmCtl_kept (s : State) (w : Word) : State.Same s (State.wrAlmCtl s w) := by
  simp [State.Same, State.wrAlmCtl]
@[simp] theorem State.muxZero_kept (s : State) : State.Same s (State.muxZero s) := by
  unfold State.muxZero; (try dsimp only); (repeat' split) <;> simp [State.Same]
@[simp] theorem State.calAll_kept (s : State) (gain : Bool) : State.Same s (State.calAll s gain) := by
  simp [State.Same, State.calAll]
@[simp] theorem State.enable_kept (s : State) (p : Port) : State.Same s (State.enable s p) := by
  simp [State.Same, State.enable]
@[simp] theorem State.resetDone_kept (s : State) (p : Port) : State.Same s (State.resetDone s p) := by
  unfold State.resetDone; (try dsimp only); (repeat' split) <;> simp [State.Same]
@[simp] theorem State.enableFirst_kept (s : State) (p : Port) : State.Same s (State.enableFirst s p) := by
  unfold State.enableFirst; (try dsimp only); (repeat' split) <;> simp [State.Same]
@[simp] theorem State.adminNote_kept (s : State) (p : Port) : State.Same s (State.adminNote s p) := by
  unfold State.adminNote; (try dsimp only); (repeat' split) <;> simp [State.Same]
@[simp] theorem State.twinAgain_kept (s : State) (p : Port) : State.Same s (State.twinAgain s p) := by
  unfold State.twinAgain; (try dsimp only); (repeat' split) <;> simp [State.Same]
@[simp] theorem State.adm_kept (s : State) (p : Port) (en : Bool) : State.Same s (State.adm s p en) := by
  simp [State.Same, State.adm]
@[simp] theorem State.wrTcCtl_kept (s : State) (p : Port) (w : Word) : State.Same s (State.wrTcCtl s p w) := by
  simp [State.Same, State.wrTcCtl]
@[simp] theorem State.afterRead_kept (s : State) (t : Target) (i : Nat) : State.Same s (s.afterRead t i) := by
  unfold State.afterRead; (repeat' split) <;> simp [State.Same]
@[simp] theorem State.ack_kept (s : State) (i : Nat) (w : Word) : State.Same s (State.ack s i w) := by
  unfold State.ack; (repeat' split) <;> simp [State.Same]
@[simp] theorem State.enables_kept (s : State) (i : Nat) (w : Word) : State.Same s (State.enables s i w) := by
  unfold State.enables; (repeat' split) <;> simp [State.Same]
@[simp] theorem State.clearCounts_kept (s : State) (b : ClearBlock) : State.Same s (State.clearCounts s b) := by
  unfold State.clearCounts; (repeat' split) <;> simp [State.Same]
@[simp] theorem State.hwmClear_kept (s : State) : State.Same s (State.hwmClear s) := by
  simp [State.Same, State.hwmClear]
@[simp] theorem State.wrUnlock_kept (s : State) (key : BitVec 16) : State.Same s (State.wrUnlock s key) := by
  simp [State.Same, State.wrUnlock]
@[simp] theorem State.wrCclr_kept (s : State) (b : ClearBlock) (w : Word) : State.Same s (State.wrCclr s b w) := by
  simp [State.Same, State.wrCclr]
@[simp] theorem State.globalCtl_kept (s : State) (i : Nat) (w : Word) : State.Same s (State.globalCtl s i w) := by
  unfold State.globalCtl; (repeat' split) <;> simp [State.Same]
@[simp] theorem State.answer_kept (s : State) (reply : List Byte) (nak : Bool) : State.Same s (State.answer s reply nak) := by
  simp [State.Same, State.answer]
@[simp] theorem State.noAck_kept (s : State) : State.Same s (State.noAck s) := by
  simp [State.Same, State.noAck]
@[simp] theorem State.twiEvt_kept (s : State) (i : Nat) : State.Same s (State.twiEvt s i) := by
  simp [State.Same, State.twiEvt]
@[simp] theorem State.setIndex_kept (s : State) (idx : Index) (k : Nat) : State.Same s (State.setIndex s idx k) := by
  simp [State.Same, State.setIndex]
@[simp] theorem State.stretch_kept (s : State) (c : TwmOp) : State.Same s (State.stretch s c) := by
  unfold State.stretch; (try dsimp only); (repeat' split) <;> simp [State.Same]
@[simp] theorem State.twmWrite_kept (s : State) (idx : Index) (bytes : List Byte) : State.Same s (State.twmWrite s idx bytes) := by
  unfold State.twmWrite; (try dsimp only); (repeat' split) <;> simp [State.Same]
@[simp] theorem State.twmSetIndex_kept (s : State) (idx : Index) : State.Same s (State.twmSetIndex s idx) := by
  unfold State.twmSetIndex; (try dsimp only); (repeat' split) <;> simp [State.Same]
@[simp] theorem State.readSeq_kept (t : Target) (k : Nat) (f : Nat → Nat) (s : State) : State.Same s (State.readSeq t k f s).2 := by
  induction k generalizing f s with
  | zero => simp [State.Same, State.readSeq]
  | succ k ih => simp [State.Same, State.readSeq, ih]
@[simp] theorem State.readBytes_kept (s : State) (t : Target) (n : Nat) (f : Nat → Nat) : State.Same s (s.readBytes t n f).2 := by
  simp [State.Same, State.readBytes]
@[simp] theorem State.twmStream_kept (s : State) (idx : Index) (n : Nat) : State.Same s (s.twmStream idx n) := by
  simp [State.Same, State.twmStream, State.setIndex, State.answer]
@[simp] theorem State.twmStreamed_kept (s : State) (idx : Index) (n : Nat) : State.Same s (State.twmStreamed s idx n) := by
  unfold State.twmStreamed; (try dsimp only); (repeat' split) <;> simp [State.Same]
@[simp] theorem State.twmCounted_kept (s : State) (idx : Index) (after : List Byte) (extra : Nat) : State.Same s (State.twmCounted s idx after extra) := by
  unfold State.twmCounted; (try dsimp only); (repeat' split) <;> simp [State.Same]
@[simp] theorem State.twmCurrent_kept (s : State) (n : Nat) : State.Same s (State.twmCurrent s n) := by
  unfold State.twmCurrent; (try dsimp only); (repeat' split) <;> simp [State.Same]
@[simp] theorem State.auxNone_kept (s : State) (t : AuxTarget) (addr : BitVec 7) : State.Same s (State.auxNone s t addr) := by
  unfold State.auxNone; (try dsimp only); (repeat' split) <;> simp [State.Same]
@[simp] theorem State.setOffset_kept (s : State) (p : Port) (o : Nat) : State.Same s (State.setOffset s p o) := by
  simp [State.Same, State.setOffset]
@[simp] theorem State.auxStream_kept (s : State) (t : AuxTarget) (p : Port) (off n : Nat) : State.Same s (s.auxStream t p off n) := by
  simp [State.Same, State.auxStream, State.setOffset, State.answer]
end Sys2Proof.Machine
end

