-- ==== Sys2Proof/Laws/Memory.lean ====
section
/-! SUPPORT. Memories: every operation keeps the canonical form, a byte written is read back, and no other byte changes. -/

namespace Sys2Proof.Machine

variable (d : Nat → Byte)

/-! ## The canonical form -/

theorem memWfFrom_cons (lo a : Nat) (b : Byte) (t : List Host.Cell) :
    memWfFrom d lo ((a, b) :: t) = true ↔ lo ≤ a ∧ b ≠ d a ∧ memWfFrom d (a + 1) t = true := by
  simp [memWfFrom, and_assoc]

theorem memWfFrom_mono {lo lo' : Nat} (h : lo' ≤ lo) {m : List Host.Cell} (w : memWfFrom d lo m = true) : memWfFrom d lo' m = true := by
  cases m with
  | nil => rfl
  | cons x t =>
    obtain ⟨a, b⟩ := x
    rw [memWfFrom_cons] at *
    exact ⟨Nat.le_trans h w.1, w.2⟩

/-- Every entry of a canonical memory stands at lo or above. -/
theorem memRead_below {lo a : Nat} (h : a < lo) {m : List Host.Cell} (w : memWfFrom d lo m = true) : memRead d m a = d a := by
  induction m generalizing lo with
  | nil => rfl
  | cons x t ih =>
    obtain ⟨k, b⟩ := x
    rw [memWfFrom_cons] at w
    rw [memRead, if_neg (by omega)]
    exact ih (by omega) w.2.2

theorem memErase_wf {lo : Nat} {m : List Host.Cell} (w : memWfFrom d lo m = true) (a : Nat) : memWfFrom d lo (memErase m a) = true := by
  induction m generalizing lo with
  | nil => rfl
  | cons x t ih =>
    obtain ⟨k, b⟩ := x
    rw [memWfFrom_cons] at w
    rw [memErase]
    split
    · exact memWfFrom_mono d (by omega) w.2.2
    · exact (memWfFrom_cons ..).2 ⟨w.1, w.2.1, ih w.2.2⟩

theorem memPut_wf {lo : Nat} {m : List Host.Cell} (w : memWfFrom d lo m = true) {a : Nat} (h : lo ≤ a) {b : Byte} (hb : b ≠ d a) :
    memWfFrom d lo (memPut b m a) = true := by
  induction m generalizing lo with
  | nil => exact (memWfFrom_cons ..).2 ⟨h, hb, rfl⟩
  | cons x t ih =>
    obtain ⟨k, c⟩ := x
    rw [memWfFrom_cons] at w
    rw [memPut]
    split
    · exact (memWfFrom_cons ..).2 ⟨h, hb, (memWfFrom_cons ..).2 ⟨by omega, w.2⟩⟩
    · split
      · next e => subst e; exact (memWfFrom_cons ..).2 ⟨h, hb, w.2.2⟩
      · exact (memWfFrom_cons ..).2 ⟨w.1, w.2.1, ih w.2.2 (by omega)⟩

/-- A byte written keeps the canonical form. -/
theorem memWrite_wf {m : List Host.Cell} (w : memWf d m = true) (a : Nat) (b : Byte) : memWf d (memWrite d m a b) = true := by
  rw [memWrite]
  split
  · exact memErase_wf d w a
  · exact memPut_wf d w (Nat.zero_le a) ‹_›

theorem memWrites_wf {m : List Host.Cell} (w : memWf d m = true) (a : Nat) (l : List Byte) : memWf d (memWrites d m a l) = true := by
  induction l generalizing m a with
  | nil => exact w
  | cons b t ih => exact ih (memWrite_wf d w a b) (a + 1)

theorem memOf_wfFrom (a : Nat) (l : List Byte) : memWfFrom d a (memOf d a l) = true := by
  induction l generalizing a with
  | nil => rfl
  | cons b t ih =>
    rw [memOf]
    split
    · exact memWfFrom_mono d (Nat.le_succ a) (ih _)
    · exact (memWfFrom_cons ..).2 ⟨Nat.le_refl a, ‹_›, ih _⟩

theorem memOf_wf (a : Nat) (l : List Byte) : memWf d (memOf d a l) = true := memWfFrom_mono d (Nat.zero_le a) (memOf_wfFrom d a l)

theorem filter_wf {lo : Nat} {m : List Host.Cell} (w : memWfFrom d lo m = true) (p : Host.Cell → Bool) :
    memWfFrom d lo (m.filter p) = true := by
  induction m generalizing lo with
  | nil => rfl
  | cons x t ih =>
    obtain ⟨k, b⟩ := x
    rw [memWfFrom_cons] at w
    rw [List.filter_cons]
    split
    · exact (memWfFrom_cons ..).2 ⟨w.1, w.2.1, ih w.2.2⟩
    · exact memWfFrom_mono d (by omega) (ih w.2.2)

theorem memClear_wf {m : List Host.Cell} (w : memWf d m = true) (lo hi : Nat) : memWf d (memClear m lo hi) = true := filter_wf d w _

/-- Two canonical memories, the second above the first, make a canonical one. -/
theorem append_wf {lo hi : Nat} {m n : List Host.Cell} (w : memWfFrom d lo m = true) (v : memWfFrom d hi n = true) (h : lo ≤ hi)
    (below : ∀ c ∈ m, c.1 < hi) : memWfFrom d lo (m ++ n) = true := by
  induction m generalizing lo with
  | nil => exact memWfFrom_mono d h v
  | cons x t ih =>
    obtain ⟨k, b⟩ := x
    rw [memWfFrom_cons] at w
    have hk := below (k, b) (by simp)
    exact (memWfFrom_cons ..).2 ⟨w.1, w.2.1, ih w.2.2 hk fun c hc => below c (by simp [hc])⟩

theorem memOf_below (a : Nat) (l : List Byte) : ∀ c ∈ memOf d a l, c.1 < a + l.length := by
  induction l generalizing a with
  | nil => simp [memOf]
  | cons b t ih =>
    intro c hc
    rw [memOf] at hc
    have e : a + (b :: t).length = a + 1 + t.length := by simp; omega
    rw [e]
    split at hc
    · exact ih _ c hc
    · rcases List.mem_cons.1 hc with rfl | hc
      · show a < _; omega
      · exact ih _ c hc

/-! ## Reading after writing -/

theorem memRead_erase {lo : Nat} {m : List Host.Cell} (w : memWfFrom d lo m = true) (a x : Nat) :
    memRead d (memErase m a) x = if x = a then d a else memRead d m x := by
  induction m generalizing lo with
  | nil => simp only [memErase, memRead]; split <;> simp_all
  | cons y t ih =>
    obtain ⟨k, b⟩ := y
    rw [memWfFrom_cons] at w
    rw [memErase]
    by_cases e : k = a
    · subst e
      rw [if_pos rfl]
      by_cases h : x = k
      · subst h; rw [if_pos rfl]; exact memRead_below d (Nat.lt_succ_self _) w.2.2
      · rw [if_neg h, memRead, if_neg (Ne.symm h)]
    · rw [if_neg e, memRead, memRead, ih w.2.2]
      by_cases h : x = a
      · subst h; simp [e]
      · simp [h]

theorem memRead_put (b : Byte) (m : List Host.Cell) (a x : Nat) : memRead d (memPut b m a) x = if x = a then b else memRead d m x := by
  induction m with
  | nil => simp only [memPut, memRead, eq_comm]
  | cons y t ih =>
    obtain ⟨k, c⟩ := y
    rw [memPut]
    split
    · simp only [memRead, eq_comm (a := a)]
    · split
      · next e => subst e; simp only [memRead, eq_comm (a := a)]; split <;> rfl
      · simp only [memRead, ih]
        by_cases h : x = a
        · simp only [if_pos h]; rw [if_neg (by omega)]
        · simp only [if_neg h]

/-- A byte written is read back, and every other byte reads as before. -/
theorem memRead_write {m : List Host.Cell} (w : memWf d m = true) (a x : Nat) (b : Byte) :
    memRead d (memWrite d m a b) x = if x = a then b else memRead d m x := by
  rw [memWrite]
  split
  · next e => rw [memRead_erase d w, e]
  · exact memRead_put d b m a x

/-- Bytes written from a on: each is read back, and every byte outside reads as before. -/
theorem memRead_writes {m : List Host.Cell} (w : memWf d m = true) (a x : Nat) (l : List Byte) :
    memRead d (memWrites d m a l) x = if h : a ≤ x ∧ x < a + l.length then l[x - a]'(by omega) else memRead d m x := by
  induction l generalizing m a with
  | nil => rw [memWrites, dif_neg (by simp)]
  | cons b t ih =>
    rw [memWrites, ih (memWrite_wf d w a b), memRead_write d w]
    by_cases e : x = a
    · subst e
      rw [dif_neg (by omega), if_pos rfl, dif_pos (by simp)]; simp
    · by_cases h : a + 1 ≤ x ∧ x < a + 1 + t.length
      · have h' : a ≤ x ∧ x < a + (b :: t).length := by simp; omega
        rw [dif_pos h, dif_pos h']
        have e1 : x - a = (x - (a + 1)) + 1 := by omega
        simp only [e1, List.getElem_cons_succ]
      · rw [dif_neg h, if_neg e, dif_neg (by simp; omega)]

/-- A byte string laid out from a on reads as itself there and as unlisted elsewhere. -/
theorem memRead_of (a x : Nat) (l : List Byte) :
    memRead d (memOf d a l) x = if h : a ≤ x ∧ x < a + l.length then l[x - a]'(by omega) else d x := by
  induction l generalizing a with
  | nil => rw [memOf, dif_neg (by simp)]; rfl
  | cons b t ih =>
    have step : memRead d (memOf d a (b :: t)) x = if x = a then b else memRead d (memOf d (a + 1) t) x := by
      rw [memOf]
      split
      · next e =>
        by_cases h : x = a
        · subst h; rw [if_pos rfl, e]; exact memRead_below d (Nat.lt_succ_self _) (memOf_wfFrom d _ t)
        · rw [if_neg h]
      · rw [memRead]; simp only [eq_comm]
    rw [step, ih]
    by_cases e : x = a
    · subst e; rw [if_pos rfl, dif_pos (by simp)]; simp
    · by_cases h : a + 1 ≤ x ∧ x < a + 1 + t.length
      · have h' : a ≤ x ∧ x < a + (b :: t).length := by simp; omega
        rw [if_neg e, dif_pos h, dif_pos h']
        have e1 : x - a = (x - (a + 1)) + 1 := by omega
        simp only [e1, List.getElem_cons_succ]
      · rw [if_neg e, dif_neg h, dif_neg (by simp; omega)]

/-- Clearing a range makes it read as unlisted and leaves every other byte. -/
theorem memRead_clear (m : List Host.Cell) (lo hi x : Nat) :
    memRead d (memClear m lo hi) x = if lo ≤ x ∧ x < hi then d x else memRead d m x := by
  induction m with
  | nil => simp [memClear, memRead]
  | cons y t ih =>
    obtain ⟨k, c⟩ := y
    simp only [memClear] at ih ⊢
    by_cases h : lo ≤ k ∧ k < hi
    · rw [List.filter_cons, if_neg (by simp; omega), ih, memRead]
      by_cases g : lo ≤ x ∧ x < hi
      · rw [if_pos g, if_pos g]
      · rw [if_neg g, if_neg g, if_neg (by rintro rfl; exact g h)]
    · rw [List.filter_cons, if_pos (by simp; omega), memRead, memRead, ih]
      by_cases e : k = x
      · subst e; simp [h]
      · simp [e]

/-! ## The memories of the state -/

/-- A write to the trough keeps its form, and changes no byte but those written. -/
theorem Trough.write_wf {t : Trough} (w : t.wf = true) (a : Nat) (l : List Byte) : (t.write a l).wf = true := memWrites_wf _ w a l

theorem Trough.read_write {t : Trough} (w : t.wf = true) (a x : Nat) (l : List Byte) :
    (t.write a l).read x = if h : a ≤ x ∧ x < a + l.length then l[x - a]'(by omega) else t.read x := memRead_writes _ w a x l

@[simp] theorem Trough.write_rom (t : Trough) (a : Nat) (l : List Byte) : (t.write a l).rom = t.rom := rfl

/-- The memories of the machine after reset have the canonical form. -/
theorem reset_memories_wf : State.reset.trough.wf = true ∧ State.reset.prog.wf = true ∧ memWf zeroByte State.reset.mtr.staging = true := by
  decide

end Sys2Proof.Machine
end

