-- ==== Sys2Proof/Laws/Ops.lean ====
section
/-! SUPPORT. What the shared operations do, said once: counters and latched bits, the yard's requests and timers, the three ways a hand's
step begins, and how a word reaches its register. -/

namespace Sys2Proof.Machine

/-! ## Counters and bits -/

/-- A counter stops at its largest value and otherwise rises by one (R395). -/
theorem satInc_toNat (w : Word) : (satInc w).toNat = min (w.toNat + 1) (2 ^ 32 - 1) := by
  unfold satInc; split <;> bv_omega

theorem bump_self {n : Nat} (v : Vector Word n) (i : Fin n) : (bump v i)[i] = satInc v[i] := by simp [bump]

theorem bump_ne {n : Nat} (v : Vector Word n) {i j : Fin n} (h : j ≠ i) : (bump v i)[j] = v[j] := by
  have h' : i.val ≠ j.val := fun e => h (Fin.ext e.symm)
  simp [bump, h']

/-- Setting a bit sets that bit and no other (R396). -/
theorem setBit_getLsbD (w : Word) {i : Nat} (hi : i < 32) (j : Nat) : (setBit w i).getLsbD j = (w.getLsbD j || decide (j = i)) := by
  simp only [setBit, BitVec.getLsbD_or, BitVec.getLsbD_shiftLeft, BitVec.getLsbD_one]
  by_cases e : j = i
  · subst e; simp [hi]
  · by_cases l : j < i
    · simp [e, l]
    · have : j - i ≠ 0 := by omega
      simp [e, this]

/-- A write of W1C bits clears the bits written 1 and no other (R7). -/
theorem w1c_getLsbD (w v : Word) (j : Nat) : (w1c w v).getLsbD j = (w.getLsbD j && !v.getLsbD j) := by
  by_cases h : j < 32
  · simp [w1c, h]
  · simp [w1c, BitVec.getLsbD_of_ge _ _ (Nat.le_of_not_lt h)]

theorem beBytes_length (n v : Nat) : (beBytes n v).length = n := by
  induction n with
  | zero => rfl
  | succ n ih => simp [beBytes, ih]

/-! ## Free values -/

@[simp] theorem State.draw_draws (s : State) : s.draw.2.draws = s.draws + 1 := rfl
@[simp] theorem State.draw_ports (s : State) : s.draw.2.ports = s.ports := rfl
@[simp] theorem State.drawIn_draws (s : State) (lo hi : Nat) : (s.drawIn lo hi).2.draws = s.draws + 1 := rfl
@[simp] theorem State.drawIn_ports (s : State) (lo hi : Nat) : (s.drawIn lo hi).2.ports = s.ports := rfl

/-- A value drawn between two bounds lies between them. -/
theorem State.drawIn_bounds (s : State) {lo hi : Nat} (h : lo ≤ hi) : lo ≤ (s.drawIn lo hi).1 ∧ (s.drawIn lo hi).1 ≤ hi := by
  simp only [State.drawIn, Config.between]
  have := Nat.mod_lt (Config.free s.draws) (show 0 < hi - lo + 1 by omega)
  omega

/-! ## Events and counters of a port touch that port alone -/

theorem State.tcEvt_port (s : State) (p q : Port) (i : Nat) :
    (s.tcEvt p i).port q = if q = p then { s.port p with tc.evt := setBit (s.port p).tc.evt i } else s.port q := State.onPort_port ..

theorem State.pdEvt_port (s : State) (p q : Port) (i : Nat) :
    (s.pdEvt p i).port q = if q = p then { s.port p with pd.evt := setBit (s.port p).pd.evt i } else s.port q := State.onPort_port ..

theorem State.grdEvt_port (s : State) (p q : Port) (i : Nat) :
    (s.grdEvt p i).port q = if q = p then { s.port p with grd.evt := setBit (s.port p).grd.evt i } else s.port q := State.onPort_port ..

/-! ## Requests to the yard and timers -/

@[simp] theorem State.post_ports (s : State) (f : Nat) (p : Option Port) (c : Nat) (e : EvCode) : (s.post f p c e).ports = s.ports := rfl

theorem State.post_reqs (s : State) (f : Nat) (p : Option Port) (c : Nat) (e : EvCode) :
    (s.post f p c e).hnd.reqs = s.hnd.reqs ++ [⟨f, p, c, e, false⟩] := rfl

/-- After a timer is disarmed no record of it is left (R132). -/
theorem State.disarm_timers (s : State) (p : Port) (t : TimerId) (r : TimerRec) :
    r ∈ (s.disarm p t).hnd.timers ↔ r ∈ s.hnd.timers ∧ ¬ (r.port = p ∧ r.id = t) := by
  simp only [State.disarm, Hnd.freeTimers, isTimer, List.mem_filter, Bool.not_eq_true', Bool.and_eq_false_iff, decide_eq_false_iff_not]
  tauto

/-- A timer that is armed keeps its record and its place, and is written anew; any other gets one record more, which expires within its
bounds (R132). -/
theorem State.arm_timers (s : State) (p : Port) (t : TimerId) :
    (s.arm p t).hnd.timers =
      (let r : TimerRec := ⟨p, t, BitVec.ofNat 32 (s.dev.us + Config.between s.draws (timerBounds t).1 (timerBounds t).2),
        s.hnd.tagNext, none⟩
       if s.hnd.timers.any (isTimer p t) then s.hnd.timers.map fun x => if isTimer p t x then { r with place := x.place } else x
       else s.hnd.timers ++ [{ r with place := s.hnd.findRec (some p) 2 }]) := by
  unfold State.arm
  dsimp only [State.drawIn, State.onPort, Hnd.mark]
  split
  · rfl
  · exact (apply_ite Hnd.timers _ _ _).trans (ite_self _)

/-! ## How a hand's step runs -/

/-- A step begins, after what is silent at the head of the hand's choice, on the event that the hand then chooses, when it is the event
asked for (R131, R133). -/
theorem State.take_spec {s t : State} {h : Hand} {p : Option Port} {e : EvCode → Bool} {c : EvCode} (k : s.take h p e = some (c, t)) :
    ∃ r, (State.skipSilent h s.hnd.ready.length s).hnd.choose h = some r ∧ r.port = p ∧ e r.ev = true ∧ r.silent = false ∧ r.ev = c ∧
      t = (State.skipSilent h s.hnd.ready.length s).beginStep h r := by
  unfold State.take at k
  dsimp only at k
  split at k
  · cases k
  · next r hr =>
    split at k
    · next hc =>
      simp only [Bool.and_eq_true, decide_eq_true_eq, Bool.not_eq_true'] at hc
      obtain ⟨rfl, rfl⟩ := Prod.mk.inj (Option.some.inj k)
      exact ⟨r, hr, hc.1.1, hc.1.2, hc.2, rfl, rfl⟩
    · cases k

theorem State.take_kept {s t : State} {h : Hand} {p : Option Port} {e : EvCode → Bool} {c : EvCode} (k : s.take h p e = some (c, t)) :
    State.Same s t := by
  obtain ⟨r, -, -, -, -, -, rfl⟩ := State.take_spec k
  have h1 := State.skipSilent_kept h s.hnd.ready.length s
  have h2 := State.beginStep_kept (State.skipSilent h s.hnd.ready.length s) h r
  simp_all [State.Same]

/-- What a hand's command can do: nothing, where the device does not run or the hand does not choose that event; else the step f, run
to its end (R133, R135). -/
theorem State.handStep_spec (s : State) (h : Hand) (p : Option Port) (e : EvCode → Bool) (f : EvCode → State → State) :
    s.handStep h p e f = .next s ∨ ∃ c u, s.running = true ∧ s.take h p e = some (c, u) ∧ s.handStep h p e f = .next (f c u).endStep := by
  unfold State.handStep
  split
  · exact .inl rfl
  · next hr =>
    split
    · next c u hu => exact .inr ⟨c, u, by simpa using hr, hu, rfl⟩
    · exact .inl rfl

/-- A step leaves alone what its body leaves alone. -/
theorem State.handStep_kept (s : State) (h : Hand) (p : Option Port) (e : EvCode → Bool) (f : EvCode → State → State)
    (hf : ∀ c u, State.Same u (f c u)) : ∃ t, s.handStep h p e f = .next t ∧ State.Same s t := by
  obtain k | ⟨c, u, -, hu, k⟩ := s.handStep_spec h p e f
  · exact ⟨s, k, by simp [State.Same]⟩
  · have h1 := State.take_kept hu
    have h2 := hf c u
    have h3 := State.endStep_kept (f c u)
    exact ⟨_, k, by simp_all [State.Same]⟩

theorem State.timerStep_kept (s : State) (h : Hand) (p : Port) (i : TimerId) (f : State → State) (hf : ∀ u, State.Same u (f u)) :
    ∃ t, s.timerStep h p i f = .next t ∧ State.Same s t := by
  refine s.handStep_kept h _ _ _ fun c u => ?_
  split
  · split
    · have h1 := hf (u.onPort p fun x => { x with pd := { x.pd with live := x.pd.live.filter fun e => e.1 ≠ i } })
      have h2 := u.onPort_kept p fun x => { x with pd := { x.pd with live := x.pd.live.filter fun e => e.1 ≠ i } }
      simp_all [State.Same]
    · simp [State.Same]
  · simp [State.Same]

/-- A step on a message takes the port's oldest received message out (R108). -/
theorem State.takeMsg_spec {s t : State} {h : Hand} {p : Port} {f : RxMsg → Bool} {m : RxMsg} (k : s.takeMsg h p f = some (m, t)) :
    ∃ l c u, (s.port p).prot.rx = m :: l ∧ f m = true ∧ s.take h (some p) (fun e => e = .msg) = some (c, u) ∧
      t = u.onPort p (fun x => { x with prot.rx := l }) := by
  unfold State.takeMsg at k
  split at k
  · cases k
  · next m' l hl =>
    split at k
    · next hf =>
      split at k
      · next c u hu =>
        obtain ⟨rfl, rfl⟩ := Prod.mk.inj (Option.some.inj k)
        exact ⟨l, c, u, hl, hf, hu, rfl⟩
      · cases k
    · cases k

theorem State.takeMsg_kept {s t : State} {h : Hand} {p : Port} {f : RxMsg → Bool} {m : RxMsg} (k : s.takeMsg h p f = some (m, t)) :
    State.Same s t := by
  obtain ⟨l, c, u, -, -, hu, rfl⟩ := State.takeMsg_spec k
  have h1 := State.take_kept hu
  have h2 := State.onPort_kept u p fun x => { x with prot.rx := l }
  simp_all [State.Same]

/-! ## Words that reach their registers (R383) -/

/-- A register's own row acts where registers are served and its word is the next one, and does nothing elsewhere. -/
theorem State.hostWrite_spec (s : State) (i : Nat) (w : Word) (f : State → State) :
    s.hostWrite i w f =
      .next (if s.served && s.inOrder i w then f { s with twi.commits := s.twi.commits.tail } else s) := by
  unfold State.hostWrite; split <;> rfl

/-- With no committed word waiting every word is the next one. -/
@[simp] theorem State.inOrder_none {s : State} (h : s.twi.commits = []) (i : Nat) (w : Word) : s.inOrder i w = true := by
  simp [State.inOrder, h]

/-- With no committed word waiting a register's own row is the write itself. -/
theorem State.hostWrite_alone {s : State} (h : s.twi.commits = []) (k : s.served = true) (i : Nat) (w : Word) (f : State → State) :
    s.hostWrite i w f = .next (f s) := by
  have e : { s with twi.commits := s.twi.commits.tail } = s := by rw [h, List.tail_nil, ← h]
  rw [State.hostWrite_spec, State.inOrder_none h, k, e]; rfl

/-- With no committed word waiting there is nothing to drain. -/
theorem State.drain_none {s : State} (h : s.twi.commits = []) : s.drain = s := by
  have e : ({ s with twi.commits := [] } : State) = s := by rw [← h]
  simp [State.drain, h, e]

end Sys2Proof.Machine
end

