-- ==== Sys2Proof/WellFormed.lean ====
section
/-! DEFINITION. Which commands the outside can send: operands inside what their wires, tables and formats can carry. The meanings are
total; an ill-formed command is one that the outside cannot produce. -/

namespace Sys2Proof

/-- A packet begins with four K-codes, so at most four of them can be good. -/
def Packet.wf (k : Packet) : Bool := decide (k.goodK ≤ 4)

/-- HELLO fields are one byte. -/
def Hello.wf (f : Hello) : Bool := decide (f.protoMin < 256) && decide (f.protoMax < 256)

/-- Input voltages in 10 mV units within a divider of ratio 1/25 and a pin of 2.5 V (R362). -/
def inOk (v : Nat) : Bool := decide (v ≤ 6250)

/-- The operands lie inside their formats. -/
def Instr.wf : Instr → Bool
  | .portsEnabled ms => decide (ms < 65536)
  | .counterRestoreDone slots => slots.all fun t => decide (t.bytes.length = 2048)
  | .packetReceive _ k => k.wf
  | .troughGrant reqs => decide reqs.Nodup
  | .meteringSample m => decide (m.length = 48)
  | .holdSnsSample mv => decide (mv ≤ 62500)
  | .hello _ _ f => f.wf
  | .sleep _ _ ms => decide (ms < 2 ^ 32)
  | .req _ _ _ amount hops => decide (amount < 2 ^ 32) && decide (hops < 256)
  | .grant _ _ _ _ _ amount ms => decide (amount < 2 ^ 32) && decide (ms < 65536)
  | .renew _ _ _ amount ms => decide (amount < 2 ^ 32) && decide (ms < 65536)
  | .renewAck _ _ _ kept => decide (kept < 2 ^ 32)
  | .lapse _ _ _ _ amount => decide (amount < 2 ^ 32)
  | .wrnSet v => inOk v
  | .wrnClear v => inOk v
  | .hoRequest v => inOk v
  | .hoRequestClear v => inOk v
  | .qualStart v => inOk v
  | .qualBreak v => inOk v
  | .emergencyReturn v => inOk v
  | .rsvLowSet v => inOk v
  | .rsvLowClear v => inOk v
  | .twmCountedRead _ after _ => !after.isEmpty
  | .meteringCountedRead _ _ _ after _ => !after.isEmpty
  | _ => true

end Sys2Proof
end

