-- ==== Sys2Proof/Tests/Slice0.lean ====
section
/-! SUPPORT. Tests: a smoke test of WellFormed, Pyrog words written out by hand from the encoding tables and the manual's own example
program, the worked examples of the manual, and for every statement with hypotheses states and operands that meet them. -/

namespace Sys2Proof.Tests

open Sys2Proof Sys2Proof.Machine

set_option Elab.async false
set_option maxRecDepth 100000

/-! ## WellFormed: one ill-formed term for each check, and its well-formed neighbour -/

theorem test_wf_refuses :
    (Instr.portsEnabled 65536).wf = false ∧ (Instr.counterRestoreDone [⟨0, [0#8]⟩]).wf = false ∧
    (Instr.packetReceive 0 ⟨.sop, 5, true, true, [], 0#32, 0#3, .wait⟩).wf = false ∧ (Instr.troughGrant [3, 3]).wf = false ∧
    (Instr.meteringSample []).wf = false ∧ (Instr.holdSnsSample 62501).wf = false ∧
    (Instr.hello .west ⟨0#4, 1#2⟩ ⟨256, 2, true, true, 0#48, 0#32⟩).wf = false ∧
    (Instr.hello .west ⟨0#4, 1#2⟩ ⟨1, 256, true, true, 0#48, 0#32⟩).wf = false ∧
    (Instr.sleep .west ⟨0#4, 1#2⟩ (2 ^ 32)).wf = false ∧ (Instr.req .west ⟨0#4, 1#2⟩ 0#16 (2 ^ 32) 4).wf = false ∧
    (Instr.req .west ⟨0#4, 1#2⟩ 0#16 5 256).wf = false ∧ (Instr.grant .west ⟨0#4, 1#2⟩ 0#16 0#16 0#16 (2 ^ 32) 5).wf = false ∧
    (Instr.grant .west ⟨0#4, 1#2⟩ 0#16 0#16 0#16 5 65536).wf = false ∧
    (Instr.renew .west ⟨0#4, 1#2⟩ 0#16 (2 ^ 32) 5).wf = false ∧ (Instr.renew .west ⟨0#4, 1#2⟩ 0#16 5 65536).wf = false ∧
    (Instr.renewAck .west ⟨0#4, 1#2⟩ 0#16 (2 ^ 32)).wf = false ∧ (Instr.lapse .west ⟨0#4, 1#2⟩ 0#16 0#16 (2 ^ 32)).wf = false := by
  decide

theorem test_wf_refuses_inputs :
    (Instr.wrnSet 6251).wf = false ∧ (Instr.wrnClear 6251).wf = false ∧ (Instr.hoRequest 6251).wf = false ∧
    (Instr.hoRequestClear 6251).wf = false ∧ (Instr.qualStart 6251).wf = false ∧ (Instr.qualBreak 6251).wf = false ∧
    (Instr.emergencyReturn 6251).wf = false ∧ (Instr.rsvLowSet 6251).wf = false ∧ (Instr.rsvLowClear 6251).wf = false ∧
    (Instr.twmCountedRead 0#16 [] 4).wf = false ∧ (Instr.meteringCountedRead .twa 0#7 0#8 [] 4).wf = false := by decide

theorem test_wf_takes :
    (Instr.portsEnabled 65535).wf = true ∧ (Instr.troughGrant [3, 4]).wf = true ∧ (Instr.holdSnsSample 62500).wf = true ∧
    (Instr.sleep .west ⟨0#4, 1#2⟩ (2 ^ 32 - 1)).wf = true ∧ (Instr.wrnSet 6250).wf = true ∧
    (Instr.twmCountedRead 0#16 [1#8] 4).wf = true := by decide

/-- No row of the table gives bits, so no word spells a command. -/
theorem test_no_word (n w : Nat) (s : State) : decodeTableWord n w = none ∧ s.withFetchWord n w = s := ⟨rfl, rfl⟩

/-! ## Pyrog words -/

/-- The example encodings of the loop program in the manual, at their addresses, and MOV.F32 #0, @0x0500 (R277, R282). -/
theorem test_pyrog_manual_words :
    decodeInst 0x000 [0x1210#16, 0xB004#16, 0xB005#16, 0x0000#16] =
      .ok ⟨.sub, .f32, .t, true, [.io 4, .io 5, .reg 0], 0x000, 0x008⟩ ∧
    decodeInst 0x016 [0x6040#16, 0x4040#16, 0x4408#16, 0x0200#16] =
      .ok ⟨.stg, .f32, .c, false, [.portRel 0x040#12, .portRel 0x408#12, .reg 2], 0x016, 0x01E⟩ ∧
    decodeInst 0x02C [0x1830#16, 0x4008#16, 0x0000#16, 0x0500#16] =
      .ok ⟨.mul, .f32, .n, true, [.portRel 0x008#12, .reg 0, .reg 5], 0x02C, 0x034⟩ ∧
    decodeInst 0x064 [0x1A00#16, 0x4004#16, 0x0200#16, 0xC000#16] =
      .ok ⟨.mac, .f32, .t, false, [.portRel 0x004#12, .reg 2, .acc 0 0], 0x064, 0x06C⟩ ∧
    decodeInst 0x06C [0x2630#16, 0xC000#16, 0x0400#16] = .ok ⟨.rnd, .f32, .n, true, [.acc 0 0, .reg 4], 0x06C, 0x072⟩ ∧
    decodeInst 0x0A2 [0x5000#16, 0x0B00#16, 0x100A#16] = .ok ⟨.bz, .f32, .t, false, [.reg 11, .immS 10#12], 0x0A2, 0x0A8⟩ ∧
    decodeInst 0x0B8 [0x5400#16, 0x1008#16] = .ok ⟨.bra, .f32, .t, false, [.immS 8#12], 0x0B8, 0x0BC⟩ ∧
    decodeInst 0 [0x0200#16, 0x1000#16, 0x3000#16, 0x0500#16] =
      .ok ⟨.mov, .f32, .t, false, [.immS 0#12, .absLocal 0x0500#16], 0, 8⟩ := by decide

/-- Words written out from the tables of R276, R277 and R282: a long immediate, a circular operand, a part of an accumulator,
auto-modifying operands, NOP, and two that trap. -/
theorem test_pyrog_words :
    decodeInst 0 [0x5500#16, 0x2000#16, 0x0001#16, 0x8000#16] = .ok ⟨.bra, .i32, .t, false, [.immL 0x00018000#32], 0, 8⟩ ∧
    decodeInst 0 [0x1A00#16, 0x6700#16, 0x7800#16, 0xC200#16] =
      .ok ⟨.mac, .f32, .t, false, [.postInc 7, .preDec 8, .acc 2 0], 0, 8⟩ ∧
    decodeInst 0 [0x0200#16, 0xA9B0#16, 0xB010#16] = .ok ⟨.mov, .f32, .t, false, [.circ 9 5 true, .io 16], 0, 6⟩ ∧
    decodeInst 0 [0x7400#16] = .ok ⟨.nop, .f32, .t, false, [], 0, 2⟩ ∧
    decodeInst 0 [0x0000#16, 0x0100#16] = .bad 0x01 ∧
    decodeInst 0 [0x0200#16, 0xD000#16, 0x0100#16] = .badSpec .mov 0x02 := by decide

/-! ## Worked examples of the manual -/

/-- R122, R124: a 10 kΩ thermistor with B 3,950 at 2,000 Ω stands at 66.2 °C; F is 84 % and a 60 W class is allowed 504 credits. -/
theorem test_thermistor :
    (let t : Thermal := ⟨60, 80, 90, 50, 3950, 100⟩
     66150 ≤ ntcTemp t 2000 ∧ ntcTemp t 2000 < 66250 ∧ fNtcOf t (ntcTemp t 2000) = 84 ∧ pAllowOf 600000 84 = 504) := by decide +kernel

/-- R145: 20 V at 5.00 A needs 1,000 credits, and R141: the default charges. -/
theorem test_credits :
    (requestOf ⟨1200, 0#32, [⟨1, .fixed 5000 3000⟩, ⟨1, .fixed 20000 5000⟩], 1000⟩ ⟨2, 5000, 5000, 0, false⟩ false).map (·.credits)
      = some 1000 ∧
    defaultCharge 0 = 45 ∧ defaultCharge 1 = 75 ∧ defaultCharge 2 = 150 := by decide

/-- R379: with TWC_BASE 0x30 the address 0x35 serves port 37, and its address bytes are 0x6A and 0x6B. -/
theorem test_metering_address :
    addrByte 0x35#7 false = 0x6A#8 ∧ addrByte 0x35#7 true = 0x6B#8 ∧ addrByte 0x35#7 false ≠ addrByte 0x35#7 true := by decide

/-- R4: DEV_ID of a DL48-E. -/
theorem test_dev_id : State.reset.regRead .twm 0 = 0x0D48B00E#32 := by decide +kernel

/-- R49: a standby power-on reset names itself in RST_CAUSE, and the ports are not live. -/
theorem test_reset : State.reset.regRead .twm 9 = 1#32 ∧ (State.reset.port 47).live = false := by decide +kernel


/-! ## States for the statements' hypotheses -/

/-- A running device with every port live and unattached, 1,000 credits of its own, both dies trained. -/
def tRun : State := { State.reset with
  dev := { State.reset.dev with phase := .run }
  clk := { State.reset.clk with pllS := true, pllH := true, suo := false, xrefOk := true
                                d0 := { State.reset.clk.d0 with trained := true }, d1 := { State.reset.clk.d1 with trained := true } }
  alm := { State.reset.alm with cfg := { State.reset.alm.cfg with home := 1000 } }
  ports := Vector.ofFn fun p => { PortState.reset p with live := true, tc := { (PortState.reset p).tc with st := .unattSrc } } }

/-- tRun with port 0 changed. -/
def tAt (f : PortState → PortState) : State := tRun.onPort 0 f
/-- Port 0 in a connection state. -/
def tIn (c : ConnState) (f : PortState → PortState := id) : State := tAt fun x => f { x with tc := { x.tc with st := c } }
/-- Port 0 attached as source, as sink. -/
def tSrc (f : PortState → PortState := id) : State := tIn .attSrc f
def tSnk (f : PortState → PortState := id) : State := tIn .attSnk f
/-- A source in a policy state. -/
def tPd (q : SrcState) (f : Pd → Pd := id) : State := tSrc fun x => { x with pd := f { x.pd with src := q } }
/-- An event of port 0 ready for hand 0. -/
def tEv (s : State) (e : EvCode) (c : Nat := 1) : State := { s with hnd := { s.hnd with ready := [⟨some 0, c, e, false, 0, false⟩] } }
/-- A message received on port 0, and its event. -/
def tMsg (s : State) (m : RxMsg) : State := tEv (s.onPort 0 fun x => { x with prot := { x.prot with rx := [m] } }) .msg
/-- Timer i of port 0 expired. -/
def tTim (s : State) (i : TimerId) : State :=
  tEv (s.onPort 0 fun x => { x with pd := { x.pd with live := [(i, 5)] } }) (.timer i 5) 2
/-- The sluice and the stage of port 0 changed. -/
def tSlc (f : Slc → Slc) : State := tAt fun x => { x with slc := f x.slc }
def tStg (f : Stg → Stg) : State := tAt fun x => { x with stg := f x.stg }


/-! Helpers: a state for each situation that a statement asks for. -/

def wDrp (c : ConnState) : State := tIn c fun x => { x with cfg := { x.cfg with role := 2, drp := true } }
def wAw (c : ConnState) (a b : Nat) : State :=
  tIn c fun x => { x with tc := { x.tc with cc1 := a, cc2 := b, backv := true, pin := rdPin x.cfg.rp a b } }
def wTwin (f : PortState → PortState) (s : State) : State :=
  (s.onPort 0 fun x => { x with cfg := { x.cfg with twin := true } }).onPort 1 fun x => f { x with cfg := { x.cfg with twin := true } }
def wVconn : State := tSrc fun x => { x with tc := { x.tc with vconn := true } }
def wSlc (c : SlcState) (f : Slc → Slc := id) : State := tSlc fun x => f { x with st := c }
def wCmd (l : List SlcCmd) (c : SlcState) (f : PortState → PortState := id) : State :=
  tSrc fun x => f { x with slc := { x.slc with st := c }, pd := { x.pd with slcq := l }, stg := { x.stg with meas := ⟨5000000, 0, 0, 0⟩ } }
def wOnReq : State := wCmd [] .off fun x => { x with slc := { x.slc with onReq := true } }
def wStg (l : List StgCmd) (f : Stg → Stg := id) : State := tSrc fun x => { x with stg := f x.stg, pd := { x.pd with stgq := l } }
def wTrim : State := tSrc fun x => { x with
  slc := { x.slc with st := .on }
  stg := { x.stg with den := true, target := 9000, ref := 9000000, settled := true, meas := ⟨8900000, 0, 0, 0⟩ } }
def wPwm (c : SyncState) : State := { tRun with pwm := { tRun.pwm with sync := c, window := true, good := 3, none' := 7, misses := 7 } }
def okD {α β : Type} (d : β) (x : Except α β) : β := match x with | .ok b => b | .error _ => d
def wBytes (l : List Half) : List Byte := (l.map fun h => [h.extractLsb' 8 8, h.extractLsb' 0 8]).flatten
def wIns (o : PyOp) (ty : PyTy) (l : List PySpec) (sat : Bool := false) (rnd : PyRnd := .t) : PyInst :=
  let i : PyInst := ⟨o, ty, rnd, sat, l, 0, 0⟩
  { i with next := 2 * (encodeInst i).length }
def wRun (f : PumpRun → PumpRun := id) : PumpRun :=
  let r := tRun.newRun 0 false
  f { r with pc := 0, cycles := 40, stack := r.stack - 64, g := ((r.g.set 1 7#32).set 2 3#32).set 3 (BitVec.ofNat 32 (slotAt 0 + 0x800)), coefLn := List.replicate 1024 0#8, stLn := List.replicate 256 0#8 }
def wPy (i : PyInst) (f : PumpRun → PumpRun := id) : State :=
  { tRun with prog := ⟨false, memOf zeroByte 0 (wBytes (encodeInst i))⟩, pmp := { tRun.pmp with pumps := tRun.pmp.pumps.set 0 (some (wRun f)) } }
def wM (i : PyInst) (f : PumpRun → PumpRun := id) : PyM := (wPy i f).pyStart (wRun f) i
def s1 (i : PyInst) (f : PumpRun → PumpRun := id) : Word × PyM := okD (0#32, wM i f) ((wM i f).src i.ty (i.opd 0))
def s2 (i : PyInst) (f : PumpRun → PumpRun := id) : Word × PyM := okD (0#32, wM i f) ((s1 i f).2.src i.ty (i.opd 1))
def s2u (i : PyInst) : Word × PyM := okD (0#32, wM i) ((s1 i).2.src .u32 (i.opd 1))
def d3 (i : PyInst) (m : PyM) (k : Nat) (v : Word) : PyM := okD m (m.dst i.ty (i.opd k) v)
def iTwo (o : PyOp) : PyInst := wIns o .f32 [.reg 1, .reg 2, .reg 4]
def iSh (o : PyOp) : PyInst := wIns o .f32 [.reg 1, .reg 2, .reg 4]
def iOne (o : PyOp) : PyInst := wIns o .i32 [.postInc 3, .reg 4]
def iAcc (o : PyOp) : PyInst := wIns o .f32 [.reg 1, .reg 2, .acc 1 0]
def iA2 (o : PyOp) : PyInst := wIns o .f32 [.acc 0 0, .acc 1 0]
def iRnd : PyInst := wIns .rnd .f32 [.acc 0 0, .reg 4]
def iMul : PyInst := wIns .mul .f32 [.reg 1, .reg 2, .reg 4]
def fA : PumpRun → PumpRun := fun r => { r with acc := Vector.replicate 4 (BitVec.ofInt 72 (5 * 2 ^ 40 + 2 ^ 33)) }
def iLea : PyInst := wIns .lea .u32 [.ind 3, .reg 4]
def iClmp : PyInst := wIns .clmp .i32 [.reg 1, .ind 3, .reg 4]
def iBr (o : PyOp) (d : BitVec 12) : PyInst := wIns o .i32 [.reg 0, .immS d]
def iB1 (o : PyOp) (d : BitVec 12) : PyInst := wIns o .i32 [.immS d]
def iJmp : PyInst := wIns .jmp .u32 [.reg 2]
def fJ : PumpRun → PumpRun := fun r => { r with g := r.g.set 2 64#32 }
def fRet : PumpRun → PumpRun := fun r => { r with g := r.g.set 15 (BitVec.ofNat 32 (slotAt r.port + 0x1000 - 4)) }
def iRet : PyInst := wIns .ret .i32 []
def mCall : PyM := okD (wM (iB1 .call 6#12)) ((wM (iB1 .call 6#12)).push (BitVec.ofNat 32 (iB1 .call 6#12).next))
def mRet : Word × PyM := okD (0#32, wM iRet fRet) ((wM iRet fRet).pop)
def iStg : PyInst := wIns .stg .f32 [.baseDisp 14 0#16, .baseDisp 14 0x480#16, .reg 2]
def iStgb : PyInst := wIns .stgb .f32 [.baseDisp 14 0#16, .baseDisp 14 0x480#16, .reg 2]
def fC : PumpRun → PumpRun := fun r => { r with coefLn := ([0,0,0,0,0x40,0,0,0,0x20,0,0,0,0x10,0,0,0,8,0,0,0,0,0,0,0] : List Byte) ++ List.replicate 1000 0#8 }
def mStg (b : Bool) : PyM := let i := if b then iStgb else iStg; okD (wM i fC) (pyStage tRun.draws b i (wM i fC))
def jb (l : Nat) : StageJob := { (mStg false).run.stage.getD ⟨0#32, 0#32, 0#32, 0, 0, 0, .reg 0, [], 0⟩ with left := l }
def fJob : PumpRun → PumpRun := fun r => { fC r with stage := some (jb 0) }
def eA : Nat × PyM := okD (0, wM iStg fC) ((wM iStg fC).memOp 24 (iStg.opd 0))
def eB : Nat × PyM := okD (0, wM iStg fC) (eA.2.memOp 8 (iStg.opd 1))
def eC : PyPlace × PyM := okD (.reg 0, wM iStg fC) (eB.2.eval 4 .f32 (iStg.opd 2))
def eD : Word × PyM := okD (0#32, wM iStg fC) (eC.2.read .f32 eC.1)
def fBusy : PumpRun → PumpRun := fun r => { fC r with stage := some (jb 3) }
def fLate : PumpRun → PumpRun := fun r => { r with late := true }
def iTrap : PyInst := wIns .trap .i32 [.immS 5#12]
def iBad : PyInst := wIns .add .i32 [.ind 1, .reg 1, .reg 2]
def wBad : State := { wPy iTrap with prog := ⟨false, memOf zeroByte 0 [0x01#8]⟩ }
def wLong : State := wPy iTrap fun r => { r with cycles := 4096 }
def iNop : PyInst := wIns .nop .f32 []
def iEnd : PyInst := wIns .endS .f32 []
def fPre : PumpRun → PumpRun := fun r => { r with preset := true }
/-- One long-form stage whose EXP is 0x7F. -/
def fRom : PumpRun → PumpRun := fun r => { r with coefLn := ([0, 1] : List Byte) ++ List.replicate 77 0#8 ++ [0x7F#8] ++ List.replicate 944 0#8 }
def errC : Nat := match (wM iBad).src .i32 (iBad.opd 0) with | .ok _ => 0 | .error c => c
def cm (i : PyInst) (q : Bool) : PyM := { (s2 i).2 with run := { (s2 i).2.run with g := (s2 i).2.run.g.set 4 (if q then 1#32 else 0#32) } }
def iC2 (d : PySpec) : PyInst := wIns .ceq .f32 [.reg 1, .reg 2, d]
def okM (d : PyM) (x : Except Nat PyM) : PyM := okD d x
def wLoop (f : Loop → Loop) : State := tAt fun x => { x with loop := f x.loop }
def wSel : State := wLoop fun l => { l with ready := true }
def wSteal : State := wLoop fun l => { l with ready := true, reach := 12 }
def wPre (h : Bool) : State :=
  let s := wLoop fun l => { l with ready := true, preset := true, auto := true }
  { s with trough := { s.trough with cells := memWrites s.trough.dflt s.trough.cells (slotAt 0) (if h then [0#8, 2#8, 2#8, 0#8] else [7#8]) } }
def wRunn (f : Loop → Loop := id) : State :=
  let s := wLoop fun l => f { l with running := true }
  { s with pmp := { s.pmp with pumps := s.pmp.pumps.set 0 (some (s.newRun 0 false)) } }
def wUn (f : Loop → Loop := id) (q : Stg → Stg := id): State := let s := tAt fun x => { x with loop := f x.loop, stg := q x.stg }
  { s with dev := { s.dev with unlock := true } }
def wCoef : State := { wUn with pmp := { wUn.pmp with coefQ := [(0, 3, 9#32)] } }
def wProt (f : Prot → Prot) (g : Pd → Pd := id) : State := tSrc fun x => { x with prot := f x.prot, pd := g x.pd }
def wPkt (k : Nat) (sop : Sop) (ok : Bool) : Packet := ⟨sop, k, true, true, [1#8, 2#8], if ok then crc32 [1#8, 2#8] else 0#32, 3#3, .getStatus⟩
def wTx : TxMsg := ⟨.sop, .caps, .getStatus⟩
def wMsg (m : PdMsg) (f : PortState → PortState := id) (st : ConnState := .attSrc) : State := tMsg (tIn st f) ⟨.sop, m⟩
def wPd (f : Pd → Pd) (x : PortState) : PortState := { x with pd := f x.pd }
def wFeat (s : State) : State := { s with alm := { s.alm with cfg := { s.alm.cfg with feat := 16 } } }
def fRole (n : Nat) (x : PortState) : PortState := { x with cfg := { x.cfg with role := n } }
def wOff : Offer := { (PortState.reset 0).pd.offer with pdos := [⟨0, .fixed 5000 3000⟩, ⟨0, .fixed 9000 3000⟩] }
def wRdo (i ma : Nat) : Rdo := ⟨i, ma, ma, 0, false⟩
def wReq (i ma : Nat) (f : Pd → Pd := id) : State := wMsg (.request (wRdo i ma)) (wPd fun x => f { x with src := .negotiate, offer := wOff })
def wEReq (i ma : Nat) (f : Pd → Pd := id) : State := wMsg (.eprRequest (wRdo i ma)) (wPd fun x => f { x with src := .negotiate, offer := wOff, epr := .epr })
def wCon : Contract := ⟨1, .fixed, 5000, 3000, 3000, 150⟩
def wC (i ma : Nat) : Contract := (requestOf wOff (wRdo i ma) false).getD wCon
def wPoor (s : State) : State := { s with alm := { s.alm with cfg := { s.alm.cfg with home := 0 } } }
def wHr (e : EvCode) (f : PortState → PortState := id) (st : ConnState := .attSrc) : State := tEv (tIn st f) e
def wCaps : SrcCaps := ⟨true, false, false, false, false, false, [.fixed 5000 3000, .fixed 9000 3000]⟩
def wEpr (s : State) : State := { s with alm := { s.alm with cfg := { s.alm.cfg with feat := 255, home := 5000 } } }
def fE (e : EprState) : PortState → PortState := wPd fun x => { x with epr := e }
def wEprS : State := wEpr (wMsg (.eprMode .enter) fun x => { x with cfg := { x.cfg with eprOk := true, imax := 500, caps := [⟨1, 0, 500, 500, 300⟩, ⟨3, 0, 2800, 2800, 500⟩] }, pd := { x.pd with vconnSrc := true, contract := some wCon, cable := { x.pd.cable with epr := true } }, tc := { x.tc with vconn := true } })
def wT (i : TimerId) (f : PortState → PortState := id) (st : ConnState := .attSrc) : State := tTim (tIn st f) i
def wSrc (q : SrcState) (f : Pd → Pd := id) : PortState → PortState := wPd fun x => f { x with src := q }
def wSnk (q : SnkState) (f : Pd → Pd := id) : PortState → PortState := wPd fun x => f { x with snk := q }
def wEvR (e : EvCode) (s : State) : State := { s with hnd := { s.hnd with ready := [⟨none, 1, e, false, 0, false⟩] } }
def wSet : State := tSrc fun x => { x with stg := { x.stg with den := true, target := 9000, ref := 9000000 }, pd := { x.pd with want := some { wCon with mv := 9000 }, src := .transition, live := [(.transitionLimit, 1)] } }
def wRise : State := let s := tPd .ready fun x => { x with spacing := true, offer := { x.offer with bound := 3#32, budget := 0, pdos := wOff.pdos }, contract := some wCon }
  s
def wId (pr : Product) : Identity := ⟨0x1234#16, 0x5678#16, pr, true, 3#2, true, false⟩
def fV (f : VdmP → VdmP) : PortState → PortState := fun x => { x with vdm := f x.vdm }
def wV (v : Vdm) (f : VdmP → VdmP) (sop : Sop := .sop) : State := tMsg (tIn .attSrc (fV f)) ⟨sop, .vdm v⟩
def wA (c : VdmCmd) (b : VdmBody) (t : VdmType := .ack) (sv : BitVec 16 := 0xFF00#16) (obj : Nat := 0): Vdm := ⟨sv, 20, c, t, obj, b⟩
def wReqV (c : VdmCmd) (sv : BitVec 16 := 0xFF00#16) : Vdm := ⟨sv, 20, c, .req, 0, .none⟩
def wAlt (s : State) (k : Nat) : State := { s with alm := { s.alm with cfg := { s.alm.cfg with altmode := true, svids := [⟨0xFF01#16, 1, k, 0⟩] } } }
def wMux (z : Bool) : State := { tRun with mux := { tRun.mux with zero := z, reqs := if z then [] else [⟨3, 5, 9#4⟩] } }
def wG (f : PortState → PortState) (st : ConnState := .attSrc) : State := tIn st f
def wNtc (x : PortState) : PortState := { x with cfg := { x.cfg with ntc := true, therm := { x.cfg.therm with ntcNom := 100, ntcB := 3950, tCut := 100 } } }
def fHot (x : PortState) : PortState := { x with grd := { x.grd with hot := true, hotBelow := some 0 } }
def fWarm (x : PortState) : PortState := { x with grd := { x.grd with temp := 120000, readings := [(0, some 120000)] } }
def wYd (r : List YardReq) (t : List TimerRec) : State := { tSrc with hnd := { tSrc.hnd with reqs := r, timers := t } }
def wR : YardReq := ⟨0, some 0, 1, .msg, false⟩
def wTr : TimerRec := ⟨0, .waitWindow, 500, 3, some true⟩
def wYr : YardRec := ⟨some 0, 1, .msg, false, 0, false⟩
def wChoose : State := { tSrc with hnd := { tSrc.hnd with ready := [wYr] } }
def wSamp : List MetSample := List.replicate 48 ⟨500000, 500000, 1000, 5000⟩
def wClr (l : List Port) (n : Nat) : State := { tSrc with mtr := { tSrc.mtr with clears := l, nSamp := n } }
def wGrp (f : Grp → Grp) (q : PortState → PortState := id) : State := let s := tSrc q
  { s with mtr := { s.mtr with grp := s.mtr.grp.set 0 (f s.mtr.grp[0]) } }
def wPref : State :=
  { tSrc with
    alm := { tSrc.alm with cfg := { tSrc.alm.cfg with pref := true } }
    mtr := { tSrc.mtr with
      pref0 := { tSrc.mtr.pref0 with first := false }
      grp := tSrc.mtr.grp.set (prefGroup .w0) { tSrc.mtr.grp[prefGroup .w0] with beside := true, slot := 24, cycles := 19 } } }
def wTal (f : Mtr → Mtr := id) (hold : Bool := true) : State :=
  { tSrc with alm := { tSrc.alm with cfg := { tSrc.alm.cfg with tallyEn := true, interval := 60, holdC := if hold then 4000000 else 1 } }
              mtr := f { tSrc.mtr with holdMv := List.replicate 11 48000, firstDone := true } }
def wJob (n : Nat) : TallyJob := ⟨.interval, true, n, 7⟩
def wSup (f : Sup → Sup) : State := { tRun with sup := f { tRun.sup with cfg := { tRun.sup.cfg with vWrn := 4400, vWrnHys := 100, vbMin := 4000, vRtn := 4500, vHo := 4200, fitted := true, alert := true }, st := .normal, qual := none } }
def wL (f : Lnk → Lnk) (g : Cis → Cis := id) : State :=
  { tRun with
    alm := { tRun.alm with cfg := { tRun.alm.cfg with protoMax := 2, linkE := true, linkW := true, lease := 100, audit := 10, resHome := 300 } }
    cis := g tRun.cis, lnk := f tRun.lnk, dev := { tRun.dev with unlock := true } }
def lp (st : LinkState) (x : LinkPort) : LinkPort := { x with st := st, ver := 2 }
def wUp (f : Lnk → Lnk := id) (g : Cis → Cis := id) : State := wL (fun l => f { l with w := lp .up l.w, e := lp .up l.e }) g
def wK : LinkHdr := ⟨3#4, 2#2⟩
def wHel (e : Bool) (lo : Nat := 1) : Hello := ⟨lo, 2, e, true, 7#48, 9#32⟩
def wRq (sec : Bool) : LoanReq := ⟨5#16, 100, 0, 3, sec, false, none⟩
def wLn (f : Loan → Loan) (g : Cis → Cis := id) : State :=
  wUp id fun c => g { c with loans := c.loans.set 4 (f { c.loans[4] with valid := true, amount := 60, id := 8#16, ends := 1000, next := 2000 }) }
def wTok (r : Bool) : AuditTok := ⟨1#16, 1#16, 1000#32, 5#32, 0#32, 0#32, 0#32, 0#16, 10#16, false, r⟩
def wRep (l : List Bool) (b : Bool) : State := { wL id fun c => { c with reserve := b } with sup := { tRun.sup with reports := l } }
def wPh (f : Phase) (g : State → State := id) : State := g { tRun with dev := { tRun.dev with phase := f } }
def wUl (g : PortState → PortState := id) (st : ConnState := .attSrc) : State := { tIn st g with dev := { tRun.dev with unlock := true } }
def wD (f : D2d → D2d) (c : Clk → Clk := id) : State := { tRun with clk := c { tRun.clk with d0 := f tRun.clk.d0 } }
/-- A tally record that starts as one and whose check word is wrong, and one that passes, with SEQ 5, 41 starts and an
energy count of port 1 (R318). -/
def tMag : List Byte := [0x54#8, 0x41#8, 0x4C#8, 0x59#8, 0#8, 0#8, 0#8, 6#8] ++ List.replicate 2040 0#8
def tBody : List Byte :=
  [0x54#8, 0x41#8, 0x4C#8, 0x59#8, 0#8, 0#8, 0#8, 5#8] ++ List.replicate 16 0#8 ++ [0#8, 0#8, 0#8, 41#8] ++ List.replicate 89 0#8 ++ [7#8] ++
    List.replicate 1926 0#8
def tRecord : List Byte := tBody ++ wordBytes (crc32c tBody)
def wImg : Image := ⟨5, 0, 1, 0, 0, 0, false, true, false, tRun.alm.cfg, [], tRun.sup.cfg, [], some []⟩
/-- A number in n bytes, and an image with no port mapped, its header followed by the table and the bodies of DEVICE, PORTCLASS, PORTMAP, CAPS,
POWER and CISTERN (R64, R65, R71 to R76), with a check word that is right or not. -/
def tBe (n v : Nat) : List Byte := (List.range n).map fun i => BitVec.ofNat 8 (v / 256 ^ (n - 1 - i))
def tSecs : List (List Byte) :=
  let z (n : Nat) : List Byte := List.replicate n 0#8
  [z 5 ++ [1#8] ++ z 26,
   [1#8] ++ z 7 ++ tBe 2 400 ++ z 4 ++ tBe 2 10 ++ tBe 2 500 ++ tBe 2 300 ++ [0#8, 0#8, 2#8] ++ z 3 ++ tBe 2 2000 ++ tBe 2 300 ++ z 6,
   (List.replicate 48 (0xFF#8 :: z 3)).flatten,
   [1#8, 0#8, 0#8, 0#8, 1#8, 0#8, 0#8, 0#8, 1#8, 0#8] ++ tBe 2 500 ++ z 2 ++ tBe 2 300 ++ z 84,
   tBe 2 4800 ++ tBe 2 100 ++ tBe 2 4000 ++ tBe 2 5500 ++ tBe 2 4400 ++ tBe 2 100 ++ tBe 2 100 ++ [10#8, 0#8] ++ tBe 2 10 ++ z 14,
   tBe 4 1000 ++ z 12 ++ tBe 4 1000 ++ tBe 2 100 ++ z 2]
def tTable (i o : Nat) : List (List Byte) → List Byte
  | [] => []
  | b :: l => tBe 2 i ++ tBe 2 1 ++ tBe 4 o ++ tBe 4 b.length ++ tTable (i + 1) (o + b.length) l
def tImg (seq : Nat) (good : Bool) : List Byte :=
  let l := tBe 4 0x414C4D4E ++ [1#8, 0#8] ++ tBe 2 32 ++ tBe 4 seq ++ tBe 4 524 ++ tBe 2 6 ++ tBe 2 32 ++ List.replicate 12 0#8 ++
    tTable 1 104 tSecs ++ tSecs.flatten
  l ++ if good then wordBytes (crc32c l) else List.replicate 4 0#8
def tFlash : Option Sfdp := some ⟨true, true, 0#3, 0x1000000, 800, true⟩
def wRest : State := { tRun with alm := { tRun.alm with cfg := { tRun.alm.cfg with restEn := true, sleepOk := true } }
                                 mtr := { tRun.mtr with reqs := [], job := none } }
def wB : List Byte := [1#8, 2#8, 3#8, 4#8]
def wAux : State := { tRun with alm := { tRun.alm with cfg := { tRun.alm.cfg with auxEn := 1, baseA := 0x20 } } }
def wPec : Byte := pec (addrByte tRun.twmAddr false :: (0x12#16 : BitVec 16).extractLsb' 8 8 :: (0x12#16 : BitVec 16).extractLsb' 0 8 :: wB)
def wSv : State := tSrc


/-! ## Witnesses: the hypotheses of every statement hold together somewhere, clause by clause -/

theorem wit_ConnectionMoves :
    (let s : State := tIn .selftest; let p : Port := 0; s.works p = true ∧ (s.port p).tc.st = .selftest ∧
      (s.port p).cnt.phyx = false ∧ (s.port p).cnt.any = true → (s.port p).slc.passing = false ∧
      (s.port (s.stageOf p)).cnt.limpWait = false) ∧
    (let s : State := tRun; let p : Port := 0; let cc1 : Nat := 400; let cc2 : Nat := 3000; s.ccRuns p = true ∧
      (s.port p).grd.ccFrame = none ∧ (s.port p).tc.st = .unattSrc ∧ (rdPin (s.port p).cfg.rp cc1 cc2).isSome = true) ∧
    (let s : State := tIn .unattSnk; let p : Port := 0; let cc1 : Nat := 201; let cc2 : Nat := 200; s.ccRuns p = true ∧
      (s.port p).grd.ccFrame = none ∧ (s.port p).tc.st = .unattSnk ∧ 200 < cc1 ∧ cc2 ≤ 200 ∨ cc1 ≤ 200 ∧ 200 < cc2) ∧
    (let s : State := tSnk; let p : Port := 0; s.ccRuns p = true ∧ (s.port p).grd.ccFrame = none ∧ (s.port p).tc.st = .attSnk) ∧
    (let s : State := wDrp .unattSrc; let p : Port := 0; s.ccRuns p = true ∧ (s.port p).cfg.role = 2 ∧
      (s.port p).cfg.drp = true ∧ (s.port p).tc.st = .unattSrc) ∧
    (let s : State := wDrp .unattSnk; let p : Port := 0; s.ccRuns p = true ∧ (s.port p).cfg.role = 2 ∧
      (s.port p).cfg.drp = true ∧ (s.port p).tc.st = .unattSnk) ∧
    (let s : State := tIn .errRecov; let p : Port := 0; s.works p = true ∧ (s.port p).tc.st = .errRecov) ∧
    (let s : State := wVconn; let p : Port := 0; s.works p = true ∧ (s.port p).tc.vconn = true) := by
  refine ⟨?_, ?_, ?_, ?_, ?_, ?_, ?_, ?_⟩ <;> decide +kernel

theorem wit_Attach :
    (let s : State := wAw .attwaitSrc 400 3000; let p : Port := 0; let vbc : Nat := 799; s.works p = true ∧
      (s.port p).tc.st = .attwaitSrc ∧ (s.port p).rdSame = true ∧ vbc < 800 ∧ s.dev.stop = none ∧ s.twinHeld p false = false ∧
      (defaultCharge (s.port p).cfg.rp : Int) ≤ s.free ∧ (s.port p).tc.backv = true) ∧
    (let s : State := wAw .attwaitSnk 400 0; let p : Port := 0; let vbc : Nat := 4001; s.works p = true ∧
      (s.port p).tc.st = .attwaitSnk ∧ (s.port p).tc.rpOne = true ∧ 4000 < vbc ∧ s.twinHeld p true = false ∧
      (s.port p).tc.backv = true) ∧
    (let s : State := wPoor (wAw .attwaitSrc 400 3000); let p : Port := 0; let vbc : Nat := 799; s.works p = true ∧
      (s.port p).tc.st = .attwaitSrc ∧ (s.port p).rdSame = true ∧ vbc < 800 ∧ s.dev.stop = none ∧ s.twinHeld p false = false ∧
      s.free < (defaultCharge (s.port p).cfg.rp : Int) ∧ (s.port p).pd.holdCred = false) ∧
    (let s : State := wTwin (fun x => { x with cnt := { x.cnt with limp := true } }) (wAw .attwaitSrc 400 3000);
      let p : Port := 0; let vbc : Nat := 0; s.works p = true ∧ (s.port p).tc.st = .attwaitSrc ∧ (s.port p).rdSame = true ∧
      vbc < 800 ∧ s.dev.stop = none ∧ s.twinHeld p false = true) ∧
    (let s : State := (wAw .attwaitSrc 400 3000).onPort 0 fun x => { x with tc := { x.tc with backv := false, ccDone := true }, slc := { x.slc with low0 := false } };
      let p : Port := 0; let m : LoopConv := ⟨0, 0, 0, 0⟩; s.works p = true ∧ (s.port p).tc.st = .attwaitSrc ∧
      (s.port p).tc.ccDone = true ∧ (s.port p).tc.backv = false ∧ (s.port p).slc.low0 = false ∧ (s.loopMeas p m).vbc < 800000 ∧
      (s.port p).rdSame = true ∧ s.dev.stop = none ∧ (s.port p).cfg.twin = false ∧ (s.port p).cnt.limpWait = false ∧
      (defaultCharge (s.port p).cfg.rp : Int) ≤ s.free) := by
  refine ⟨?_, ?_, ?_, ?_, ?_⟩ <;> decide +kernel

theorem wit_Detach :
    (let s : State := tSrc; let p : Port := 0; s.works p = true ∧ (s.port p).tc.st = .attSrc) ∧
    (let s : State := tSnk; let p : Port := 0; s.works p = true ∧ (s.port p).tc.st = .attSnk ∧ (s.port p).pd.snkHr = false) ∧
    (let s : State := tIn .attwaitSrc; let p : Port := 0; s.works p = true ∧
      ((s.port p).tc.st = .attwaitSrc ∨ (s.port p).tc.st = .attwaitSnk)) ∧
    (let s : State := tSnk (wPd fun x => { x with snkHr := true }); let p : Port := 0; s.works p = true ∧
      (s.port p).tc.st = .attSnk ∧ (s.port p).pd.snkHr = true) := by
  refine ⟨?_, ?_, ?_, ?_⟩ <;> decide +kernel

theorem wit_SluiceRequests :
    (let s : State := wCmd [.on] .off fun x => { x with stg := { x.stg with den := true, meas := ⟨5000000, 5000000, 0, 0⟩ } };
      let p : Port := 0; let l : List SlcCmd := []; (s.port p).pd.slcq = .on :: l ∧ s.works p = true ∧ (s.port p).slc.st = .off ∧
      s.dev.vauxOk = true ∧ (s.port p).slc.offRun = false ∧ (s.port p).cnt.any = false ∧ s.dev.stop = none ∧
      ((s.port p).sinkRole = true ∨ (s.port (s.stageOf p)).stg.den = true ∧ in5V (s.port (s.stageOf p)).vbsMv = true)) ∧
    (let s : State := wCmd [.off] .on; let p : Port := 0; let l : List SlcCmd := []; (s.port p).pd.slcq = .off :: l) ∧
    (let s : State := wCmd [.ilim 3] .off; let p : Port := 0; let l : List SlcCmd := []; let n : Nat := 3;
      (s.port p).pd.slcq = .ilim n :: l) := by
  refine ⟨?_, ?_, ?_⟩ <;> decide +kernel

theorem wit_SluiceRampAndLimit :
    (let s : State := wSlc .ramp fun x => { x with phase := .precharge }; let p : Port := 0; (s.port p).slc.st = .ramp ∧
      (s.port p).slc.phase = .precharge ∧ ((s.port p).slc.st = .ramp ∨ (s.port p).slc.st = .on)) ∧
    (let s : State := wSlc .ramp fun x => { x with phase := .slope }; let p : Port := 0; (s.port p).slc.st = .ramp ∧
      (s.port p).slc.phase = .slope) ∧
    (let s : State := wSlc .ramp fun x => { x with phase := .enhance }; let p : Port := 0; (s.port p).slc.st = .ramp ∧
      (s.port p).slc.phase = .enhance) ∧
    (let s : State := wSlc .on; let p : Port := 0; (s.port p).slc.st = .on) ∧
    (let s : State := wSlc .limit; let p : Port := 0; (s.port p).slc.st = .limit) := by
  refine ⟨?_, ?_, ?_, ?_, ?_⟩ <;> decide +kernel

theorem wit_SluiceTripsAndFaults :
    (let s : State := wSlc .limit; let p : Port := 0; let n : Nat := 1000; (s.port p).slc.st = .limit ∧
      19 * (16 * tFault (s.port p).cfg.faultT) ≤ 20 * ((s.port p).slc.acc + 16 * n) ∧
      ((s.port p).slc.passing = true ∨ (s.port p).slc.st = .discharge) ∧ (s.port p).slc.passing = true ∧
      ((s.port p).slc.st = .ramp ∨ (s.port p).slc.st = .limit ∧ (s.port p).slc.limOn = false)) ∧
    (let s : State := wSlc .trip; let p : Port := 0; (s.port p).slc.st = .trip ∧ (s.port p).cnt.limp = false ∧
      (s.port p).cnt.any = false ∧ (s.port (s.stageOf p)).cnt.limpWait = false ∧
      ((s.port p).slc.st = .discharge ∨ (s.port p).slc.st = .trip) ∧ (s.port p).slc.sink = false) ∧
    (let s : State := wSlc .retryWait fun x => { x with offRun := true, onReq := true }; let p : Port := 0;
      (s.port p).slc.st = .retryWait ∧ (s.port p).slc.offRun = true) ∧
    (let s : State := wSlc .discharge; let p : Port := 0; (s.port p).slc.st = .discharge ∧ (s.port p).cnt.limp = false) ∧
    (let s : State := wSlc .ramp; let p : Port := 0; (s.port p).cnt.any = false ∧ (s.port (s.stageOf p)).cnt.limpWait = false ∧
      (s.port p).slc.st = .ramp ∧ (s.port p).slc.gck = false) ∧
    (let s : State := tAt fun x => { x with slc := { x.slc with window := true, seenLow := true }, stg := { x.stg with meas := ⟨5000000, 5000000, 0, 0⟩ } };
      let p : Port := 0; (s.port p).cnt.any = false ∧ (s.port (s.stageOf p)).cnt.limpWait = false ∧ s.fetsWatch p = true) := by
  refine ⟨?_, ?_, ?_, ?_, ?_, ?_⟩ <;> decide +kernel

theorem wit_StageAndReference :
    (let s : State := wStg [.stop] fun x => { x with den := true }; let p : Port := 0; let l : List StgCmd := [];
      (s.port p).cfg.twin = false ∧ (s.port p).prior = none ∧ (s.port p).pd.stgq = .stop :: l ∧ (s.port p).stg.limpPi = false ∧
      s.works p = true ∧ (s.port p).stg.den = true ∧ (s.port p).cnt.limp = false ∧ (s.port p).stg.stopping = false ∧
      (s.port p).stg.wait = 0 ∧ (s.port p).pd.holdTwin = false ∧ (s.port p).tc.st = .attwaitSrc → (s.port p).tc.ccDone = false) ∧
    (let s : State := wStg [.start 5000]; let p : Port := 0; let l : List StgCmd := []; let mv : Nat := 5000;
      (s.port p).cfg.twin = false ∧ (s.port p).prior = none ∧ (s.port p).pd.stgq = .start mv :: l ∧ s.dev.vauxOk = true ∧
      (s.port p).cnt.fets = false ∧ (s.port p).cnt.limp = false ∧ s.lost p = false ∧ (s.port p).stg.den = false ∧
      ((s.port p).loop.auto = true ∨ (s.port p).loop.host = false)) ∧
    (let s : State := wStg [.target 9000]; let p : Port := 0; let l : List StgCmd := []; let mv : Nat := 9000;
      (s.port p).cfg.twin = false ∧ (s.port p).prior = none ∧ (s.port p).pd.stgq = .target mv :: l ∧ (s.port p).cnt.limp = false ∧
      (s.port p).pd.slcq.any isIlim = false) ∧
    (let s : State := wStg [] fun x => { x with den := true, stopping := true }; let p : Port := 0;
      (s.port p).cfg.twin = false ∧ (s.port p).stg.den = true ∧ ((s.port p).stg.stopping = true ∨ (s.port p).stg.limpPi = true) ∧
      (s.port p).stg.ref = 0 ∧ (s.port p).cnt.limpWait = false) ∧
    (let s : State := wTrim; let p : Port := 0; (s.port p).cfg.twin = false ∧ (s.port p).stg.den = true ∧
      (s.port p).stg.rev = false ∧ (s.port p).slc.st = .on ∧ (s.port p).stg.settled = true ∧ (s.port p).loop.cc = false) := by
  refine ⟨?_, ?_, ?_, ?_, ?_⟩ <;> decide +kernel

theorem wit_SyncTracker :
    (let s : State := wPwm .track; let e : Int := 1000; s.bankRuns = true ∧ s.pwm.sync = .track ∧
      100 * e.natAbs ≤ 3 * s.pwm.est ∧ (0 ≤ e ∧ s.pwm.window = true ∨ e < 0 ∧ s.pwm.nextSeen = false) ∧ s.pwm.window = true) ∧
    (let s : State := { wPwm .acquire with pwm := { (wPwm .acquire).pwm with good := 3, nearSeen := true, nextSeen := false } };
      let e : Int := -1000; s.bankRuns = true ∧ (s.pwm.sync = .acquire ∨ s.pwm.sync = .freerun) ∧
      100 * (wrapHalf e s.pwm.est).natAbs ≤ 3 * s.pwm.est ∧ 4 ≤ s.pwm.run (wrapHalf e s.pwm.est)) := by
  refine ⟨?_, ?_⟩ <;> decide +kernel

theorem wit_PyrogDecodeEncode :
    (let i : PyInst := iStg; i.wf = true) := by
  decide +kernel

theorem wit_PyrogArithmetic :
    (let s : State := wPy (iTwo .add); let n : Pump := 0; let r : PumpRun := wRun; let i : PyInst := (iTwo .add);
      let a : Word := (s1 (iTwo .add)).1; let b : Word := (s2 (iTwo .add)).1; let m1 : PyM := (s1 (iTwo .add)).2;
      let m2 : PyM := (s2 (iTwo .add)).2;
      let m3 : PyM := d3 (iTwo .add) (s2 (iTwo .add)).2 2 (pyFit .f32 false (pyVal .f32 7#32 + pyVal .f32 3#32));
      let c : Instr := Instr.add 0; let o : PyOp := PyOp.add;
      let v : Word := pyFit .f32 false (pyVal .f32 7#32 + pyVal .f32 3#32);
      (c, o, v) ∈ [(Instr.add n, PyOp.add, pyFit i.ty i.sat (pyVal i.ty a + pyVal i.ty b)), (.sub n, .sub, pyFit i.ty i.sat (pyVal i.ty a - pyVal i.ty b)), (.min n, .min, pyFit i.ty false (min (pyVal i.ty a) (pyVal i.ty b))), (.max n, .max, pyFit i.ty false (max (pyVal i.ty a) (pyVal i.ty b))), (.and n, .and, a &&& b), (.or n, .or, a ||| b), (.xor n, .xor, a ^^^ b)] ∧
      s.pyReady n o r i ∧ (s.pyStart r i).src i.ty (i.opd 0) = .ok (a, m1) ∧ m1.src i.ty (i.opd 1) = .ok (b, m2) ∧
      m2.dst i.ty (i.opd 2) v = .ok m3 ∧ m3.spIn) ∧
    (let s : State := wPy (iOne .mov); let n : Pump := 0; let r : PumpRun := wRun; let i : PyInst := (iOne .mov);
      let a : Word := (s1 (iOne .mov)).1; let m1 : PyM := (s1 (iOne .mov)).2;
      let m2 : PyM := d3 (iOne .mov) (s1 (iOne .mov)).2 1 (((s1 (iOne .mov)).1)); let c : Instr := Instr.mov 0;
      let o : PyOp := PyOp.mov; let v : Word := ((s1 (iOne .mov)).1);
      (c, o, v) ∈ [(Instr.mov n, PyOp.mov, a), (.neg n, .neg, pyFit i.ty i.sat (-pyVal i.ty a)), (.abs n, .abs, pyFit i.ty i.sat (pyVal i.ty a).natAbs), (.not n, .not, lowBits i.ty (~~~a))] ∧
      s.pyReady n o r i ∧ (s.pyStart r i).src i.ty (i.opd 0) = .ok (a, m1) ∧ m1.dst i.ty (i.opd 1) v = .ok m2 ∧ m2.spIn) := by
  refine ⟨?_, ?_⟩ <;> decide +kernel

theorem wit_PyrogShiftsAndCompares :
    (let s : State := wPy (iSh .shl); let n : Pump := 0; let r : PumpRun := wRun; let i : PyInst := (iSh .shl);
      let a : Word := (s1 (iSh .shl)).1; let b : Word := (s2u (iSh .shl)).1; let m1 : PyM := (s1 (iSh .shl)).2;
      let m2 : PyM := (s2u (iSh .shl)).2;
      let m3 : PyM := d3 (iSh .shl) (s2u (iSh .shl)).2 2 (pyFit .f32 false (pyVal .f32 7#32 * (2 ^ min (3#32).toNat PyTy.f32.bits : Nat)));
      let c : Instr := Instr.shl 0; let o : PyOp := PyOp.shl;
      let v : Word := pyFit .f32 false (pyVal .f32 7#32 * (2 ^ min (3#32).toNat PyTy.f32.bits : Nat));
      (c, o, v) ∈ [(Instr.shl n, PyOp.shl, pyFit i.ty i.sat (pyVal i.ty a * (2 ^ min b.toNat i.ty.bits : Nat))), (.shr n, .shr, lowBits i.ty a >>> min b.toNat i.ty.bits), (.asr n, .asr, pyFit i.ty false (pyRound i.rnd (min b.toNat i.ty.bits) (pyVal i.ty a)))] ∧
      s.pyReady n o r i ∧ (s.pyStart r i).src i.ty (i.opd 0) = .ok (a, m1) ∧ m1.src .u32 (i.opd 1) = .ok (b, m2) ∧
      m2.dst i.ty (i.opd 2) v = .ok m3 ∧ m3.spIn) ∧
    (let s : State := wPy (iSh .ceq); let n : Pump := 0; let r : PumpRun := wRun; let i : PyInst := (iSh .ceq);
      let a : Word := (s1 (iSh .ceq)).1; let b : Word := (s2 (iSh .ceq)).1; let m1 : PyM := (s1 (iSh .ceq)).2;
      let m2 : PyM := (s2 (iSh .ceq)).2; let m3 : PyM := cm (iSh .ceq) false; let c : Instr := Instr.ceq 0;
      let o : PyOp := PyOp.ceq; let q : Bool := false; let d : Fin 16 := 4;
      (c, o, q) ∈ [(Instr.ceq n, PyOp.ceq, lowBits i.ty a == lowBits i.ty b), (.cne n, .cne, lowBits i.ty a != lowBits i.ty b), (.clt n, .clt, decide (pyVal i.ty a < pyVal i.ty b)), (.cle n, .cle, decide (pyVal i.ty a ≤ pyVal i.ty b)), (.cltu n, .cltu, decide ((lowBits i.ty a).toNat < (lowBits i.ty b).toNat)), (.cleu n, .cleu, decide ((lowBits i.ty a).toNat ≤ (lowBits i.ty b).toNat))] ∧
      s.pyReady n o r i ∧ (s.pyStart r i).src i.ty (i.opd 0) = .ok (a, m1) ∧ m1.src i.ty (i.opd 1) = .ok (b, m2) ∧
      i.opd 2 = .reg d ∧ d.val ≠ 14 ∧ m3 = { m2 with run := { m2.run with g := m2.run.g.set d (if q then 1#32 else 0#32) } } ∧
      m3.spIn) ∧
    (let s : State := wPy (iC2 (.immS 3#12)); let n : Pump := 0; let r : PumpRun := wRun; let i : PyInst := (iC2 (.immS 3#12));
      let a : Word := (s1 (iC2 (.immS 3#12))).1; let b : Word := (s2 (iC2 (.immS 3#12))).1;
      let m1 : PyM := (s1 (iC2 (.immS 3#12))).2; let m2 : PyM := (s2 (iC2 (.immS 3#12))).2; let c : Instr := Instr.ceq 0;
      let o : PyOp := PyOp.ceq; let q : Bool := false;
      (c, o, q) ∈ [(Instr.ceq n, PyOp.ceq, lowBits i.ty a == lowBits i.ty b), (.cne n, .cne, lowBits i.ty a != lowBits i.ty b), (.clt n, .clt, decide (pyVal i.ty a < pyVal i.ty b)), (.cle n, .cle, decide (pyVal i.ty a ≤ pyVal i.ty b)), (.cltu n, .cltu, decide ((lowBits i.ty a).toNat < (lowBits i.ty b).toNat)), (.cleu n, .cleu, decide ((lowBits i.ty a).toNat ≤ (lowBits i.ty b).toNat))] ∧
      s.pyReady n o r i ∧ (s.pyStart r i).src i.ty (i.opd 0) = .ok (a, m1) ∧ m1.src i.ty (i.opd 1) = .ok (b, m2) ∧
      ((i.opd 2).direct = none ∨ i.opd 2 = .reg 14)) := by
  refine ⟨?_, ?_, ?_⟩ <;> decide +kernel

theorem wit_PyrogAccumulators :
    (let s : State := wPy (iAcc .mul) fA; let n : Pump := 0; let r : PumpRun := wRun fA; let i : PyInst := (iAcc .mul);
      let a : Word := (s1 (iAcc .mul) fA).1; let b : Word := (s2 (iAcc .mul) fA).1; let m1 : PyM := (s1 (iAcc .mul) fA).2;
      let m2 : PyM := (s2 (iAcc .mul) fA).2; let k : Fin 4 := 1; let c : Instr := Instr.mul 0; let o : PyOp := PyOp.mul;
      let x : Acc := BitVec.ofInt 72 (accProduct .f32 (pyVal .f32 7#32 * pyVal .f32 3#32)); (s.pyStart r i).spIn ∧
      (c, o, x) ∈ [(Instr.mul n, PyOp.mul, BitVec.ofInt 72 (accProduct i.ty (pyVal i.ty a * pyVal i.ty b))), (.mac n, .mac, accFit i.sat (m2.run.acc[k].toInt + accProduct i.ty (pyVal i.ty a * pyVal i.ty b))), (.msu n, .msu, accFit i.sat (m2.run.acc[k].toInt - accProduct i.ty (pyVal i.ty a * pyVal i.ty b)))] ∧
      s.pyReady n o r i ∧ (s.pyStart r i).src i.ty (i.opd 0) = .ok (a, m1) ∧ m1.src i.ty (i.opd 1) = .ok (b, m2) ∧
      i.opd 2 = .acc k 0 ∧ m2.spIn) ∧
    (let s : State := wPy iMul; let n : Pump := 0; let r : PumpRun := wRun; let i : PyInst := iMul; let a : Word := (s1 iMul).1;
      let b : Word := (s2 iMul).1; let m1 : PyM := (s1 iMul).2; let m2 : PyM := (s2 iMul).2;
      let m3 : PyM := d3 iMul (s2 iMul).2 2 (pyFit .f32 false (pyRound .t (mulDrop .f32) (pyVal .f32 7#32 * pyVal .f32 3#32)));
      (s.pyStart r i).spIn ∧ s.pyReady n .mul r i ∧ (s.pyStart r i).src i.ty (i.opd 0) = .ok (a, m1) ∧
      m1.src i.ty (i.opd 1) = .ok (b, m2) ∧ (i.opd 2).whole = none ∧
      m2.dst i.ty (i.opd 2) (pyFit i.ty i.sat (pyRound i.rnd (mulDrop i.ty) (pyVal i.ty a * pyVal i.ty b))) = .ok m3 ∧ m3.spIn) ∧
    (let s : State := wPy (iA2 .mova) fA; let n : Pump := 0; let r : PumpRun := wRun fA; let i : PyInst := (iA2 .mova);
      let j : Fin 4 := 0; let k : Fin 4 := 1; (s.pyStart r i).spIn ∧ s.pyReady n .mova r i ∧ i.opd 0 = .acc j 0 ∧
      i.opd 1 = .acc k 0) ∧
    (let s : State := wPy (iA2 .sat) fA; let n : Pump := 0; let r : PumpRun := wRun fA; let i : PyInst := (iA2 .sat);
      let j : Fin 4 := 0; let k : Fin 4 := 1; (s.pyStart r i).spIn ∧ s.pyReady n .sat r i ∧ i.opd 0 = .acc j 0 ∧
      i.opd 1 = .acc k 0) ∧
    (let s : State := wPy iRnd fA; let n : Pump := 0; let r : PumpRun := wRun fA; let i : PyInst := iRnd;
      let m3 : PyM := d3 iRnd (wM iRnd fA) 1 (pyFit .f32 false (pyRound .t (rndDrop .f32) (wRun fA).acc[0].toInt));
      let j : Fin 4 := 0; (s.pyStart r i).spIn ∧ s.pyReady n .rnd r i ∧ i.opd 0 = .acc j 0 ∧
      (s.pyStart r i).dst i.ty (i.opd 1) (pyFit i.ty i.sat (pyRound i.rnd (rndDrop i.ty) r.acc[j].toInt)) = .ok m3 ∧ m3.spIn) ∧
    (let s : State := wPy iLea; let n : Pump := 0; let r : PumpRun := wRun; let i : PyInst := iLea;
      let a : Nat := (okD (0, wM iLea) ((wM iLea).memOp 4 (iLea.opd 0))).1;
      let m1 : PyM := (okD (0, wM iLea) ((wM iLea).memOp 4 (iLea.opd 0))).2;
      let m3 : PyM := okD (wM iLea) ((okD (0, wM iLea) ((wM iLea).memOp 4 (iLea.opd 0))).2.dst .u32 (.reg 4) (BitVec.ofNat 32 (okD (0, wM iLea) ((wM iLea).memOp 4 (iLea.opd 0))).1));
      m3.spIn ∧ s.pyReady n .lea r i ∧ (s.pyStart r i).memOp i.ty.size (i.opd 0) = .ok (a, m1) ∧
      m1.dst .u32 (i.opd 1) (BitVec.ofNat 32 a) = .ok m3) ∧
    (let s : State := wPy iClmp; let n : Pump := 0; let r : PumpRun := wRun; let i : PyInst := iClmp;
      let a : Nat := (okD (0, wM iClmp) ((s1 iClmp).2.memOp 4 (iClmp.opd 1))).1; let x : Word := (s1 iClmp).1;
      let m1 : PyM := (s1 iClmp).2; let m2 : PyM := (okD (0, wM iClmp) ((s1 iClmp).2.memOp 4 (iClmp.opd 1))).2;
      let m3 : PyM := d3 iClmp ((okD (0, wM iClmp) ((s1 iClmp).2.memOp 4 (iClmp.opd 1))).2.cost (okD (0, wM iClmp) ((s1 iClmp).2.memOp 4 (iClmp.opd 1))).1 false) 2 (pyFit .i32 false (clampI (pyVal .i32 7#32) 0 0));
      m3.spIn ∧ s.pyReady n .clmp r i ∧ (s.pyStart r i).src i.ty (i.opd 0) = .ok (x, m1) ∧
      m1.memOp i.ty.size (i.opd 1) = .ok (a, m2) ∧ m2.check a i.ty.size i.ty.size = .ok () ∧
      m2.check (a + i.ty.size) i.ty.size i.ty.size = .ok () ∧
      (m2.costPair a i.ty.size).dst i.ty (i.opd 2) (pyFit i.ty false (clampI (pyVal i.ty x) (pyVal i.ty (BitVec.ofNat 32 (beNat (m2.bytes a i.ty.size)))) (pyVal i.ty (BitVec.ofNat 32 (beNat (m2.bytes (a + i.ty.size) i.ty.size)))))) = .ok m3) := by
  refine ⟨?_, ?_, ?_, ?_, ?_, ?_, ?_⟩ <;> decide +kernel

theorem wit_PyrogFlow :
    (let s : State := wPy (iBr .bz 5#12); let n : Pump := 0; let r : PumpRun := wRun; let i : PyInst := (iBr .bz 5#12);
      let g : Fin 16 := 0; let d : BitVec 12 := 5#12; let c : Instr := Instr.bz 0; let o : PyOp := .bz; let q : Bool := true;
      (s.pyStart r i).spIn ∧ (c, o, q) ∈ [(Instr.bz n, PyOp.bz, decide (r.g[g] = 0#32)), (.bnz n, .bnz, decide (r.g[g] ≠ 0#32))] ∧
      s.pyReady n o r i ∧ i.opd 0 = .reg g ∧ i.opd 1 = .immS d ∧ 0 ≤ (i.next : Int) + 2 * d.toInt ∧
      (i.next : Int) + 2 * d.toInt ≤ 131070 ∧ i.next % 2 = 0) ∧
    (let s : State := wPy (iB1 .bra 5#12); let n : Pump := 0; let r : PumpRun := wRun; let i : PyInst := (iB1 .bra 5#12);
      let d : BitVec 12 := 5#12; (s.pyStart r i).spIn ∧ s.pyReady n .bra r i ∧ i.opd 0 = .immS d ∧
      0 ≤ (i.next : Int) + 2 * d.toInt ∧ (i.next : Int) + 2 * d.toInt ≤ 131070 ∧ i.next % 2 = 0) ∧
    (let s : State := wPy iJmp fJ; let n : Pump := 0; let r : PumpRun := wRun fJ; let i : PyInst := iJmp; let u : Word := 64#32;
      let m1 : PyM := okD (0#32, wM iJmp fJ) ((wM iJmp fJ).src .u32 (iJmp.opd 0)) |>.2; (s.pyStart r i).spIn ∧
      s.pyReady n .jmp r i ∧ (s.pyStart r i).src .u32 (i.opd 0) = .ok (u, m1) ∧ u.toNat ≤ 131070 ∧ u.toNat % 2 = 0 ∧ m1.spIn) ∧
    (let s : State := wPy (iB1 .call 6#12); let n : Pump := 0; let r : PumpRun := wRun; let i : PyInst := (iB1 .call 6#12);
      let d : BitVec 12 := 6#12; let m1 : PyM := mCall; (s.pyStart r i).spIn ∧ s.pyReady n .call r i ∧ i.opd 0 = .immS d ∧
      0 ≤ (i.next : Int) + 2 * d.toInt ∧ (i.next : Int) + 2 * d.toInt ≤ 131070 ∧ i.next % 2 = 0 ∧
      (s.pyStart r i).push (BitVec.ofNat 32 i.next) = .ok m1 ∧ m1.spIn) ∧
    (let s : State := wPy iRet fRet; let n : Pump := 0; let r : PumpRun := wRun fRet; let i : PyInst := iRet;
      let u : Word := mRet.1; let m2 : PyM := mRet.2; (s.pyStart r i).spIn ∧ s.pyReady n .ret r i ∧
      (s.pyStart r i).pop = .ok (u, m2) ∧ u.toNat ≤ 131070 ∧ u.toNat % 2 = 0 ∧ m2.spIn) := by
  refine ⟨?_, ?_, ?_, ?_, ?_⟩ <;> decide +kernel

theorem wit_PyrogStageUnit :
    (let s : State := wPy iStgb fC; let n : Pump := 0; let r : PumpRun := wRun fC; let i : PyInst := iStgb;
      let m : PyM := mStg true; let k : Nat := tRun.draws;
      let ca : Nat := (okD (0, wM iStgb fC) ((wM iStgb fC).memOp 20 (iStgb.opd 0))).1;
      let sa : Nat := (okD (0, wM iStgb fC) ((okD (0, wM iStgb fC) ((wM iStgb fC).memOp 20 (iStgb.opd 0))).2.memOp 8 (iStgb.opd 1))).1;
      let vp : PyPlace := .reg 2; let x : Word := ((wM iStgb fC).run.g)[2]; let m0 : PyM := wM iStgb fC;
      let m1 : PyM := (okD (0, wM iStgb fC) ((wM iStgb fC).memOp 20 (iStgb.opd 0))).2;
      let m2 : PyM := (okD (0, wM iStgb fC) ((okD (0, wM iStgb fC) ((wM iStgb fC).memOp 20 (iStgb.opd 0))).2.memOp 8 (iStgb.opd 1))).2;
      let m3 : PyM := (okD (.reg 0, wM iStgb fC) ((okD (0, wM iStgb fC) ((okD (0, wM iStgb fC) ((wM iStgb fC).memOp 20 (iStgb.opd 0))).2.memOp 8 (iStgb.opd 1))).2.eval 4 .f32 (iStgb.opd 2))).2;
      let m4 : PyM := (okD (0#32, wM iStgb fC) ((okD (.reg 0, wM iStgb fC) ((okD (0, wM iStgb fC) ((okD (0, wM iStgb fC) ((wM iStgb fC).memOp 20 (iStgb.opd 0))).2.memOp 8 (iStgb.opd 1))).2.eval 4 .f32 (iStgb.opd 2))).2.read .f32 (.reg 2))).2;
      m.spIn ∧ s.pyReady n .stgb r i ∧ pyStage s.draws true i (s.pyStart r i) = .ok m ∧ pyStage k true i m0 = .ok m ∧
      m0.memOp 20 (i.opd 0) = .ok (ca, m1) ∧ m1.memOp 8 (i.opd 1) = .ok (sa, m2) ∧ m2.eval 4 .f32 (i.opd 2) = .ok (vp, m3) ∧
      m3.read .f32 vp = .ok (x, m4)) ∧
    (let s : State := wPy iStg fC; let n : Pump := 0; let r : PumpRun := wRun fC; let i : PyInst := iStg;
      let m : PyM := mStg false; let k : Nat := tRun.draws; let ca : Nat := eA.1; let sa : Nat := eB.1; let vp : PyPlace := eC.1;
      let x : Word := eD.1; let m0 : PyM := wM iStg fC; let m1 : PyM := eA.2; let m2 : PyM := eB.2; let m3 : PyM := eC.2;
      let m4 : PyM := eD.2; m.spIn ∧ s.pyReady n .stg r i ∧ pyStage s.draws false i (s.pyStart r i) = .ok m ∧
      pyStage k false i m0 = .ok m ∧ m0.memOp 24 (i.opd 0) = .ok (ca, m1) ∧ m1.memOp 8 (i.opd 1) = .ok (sa, m2) ∧
      m2.eval 4 .f32 (i.opd 2) = .ok (vp, m3) ∧ m3.read .f32 vp = .ok (x, m4)) ∧
    (let s : State := wPy iNop fJob; let n : Pump := 0; let r : PumpRun := wRun fJob; let m : PyM := wM iNop;
      let j : StageJob := jb 0; m.spIn ∧ s.pump n = some r ∧ r.stage = some j ∧
      (j.left = 0 ∨ (match s.prog.fetch r.pc with | .ok q => mustWait q r | _ => false) = true)) := by
  refine ⟨?_, ?_, ?_⟩ <;> decide +kernel

theorem wit_PyrogSampleEnds :
    (let s : State := wPy iTrap; let n : Pump := 0; let r : PumpRun := wRun; let i : PyInst := iTrap; let v : BitVec 12 := 5#12;
      s.pyReady n .trap r i ∧ i.opd 0 = .immS v ∧ v.toNat < 128) ∧
    (let s : State := wPy iBad; let n : Pump := 0; let r : PumpRun := wRun; let i : PyInst := iBad; let code : Nat := errC;
      s.pyReady n .add r i ∧ (s.pyStart r i).src i.ty (i.opd 0) = .error code) ∧
    (let s : State := wBad; let n : Pump := 0; let r : PumpRun := wRun; let code : Nat := 1; s.pump n = some r ∧
      s.prog.fetch r.pc = .bad code) ∧
    (let s : State := wLong; let n : Pump := 0; let r : PumpRun := wRun fun r => { r with cycles := 4096 }; s.pump n = some r ∧
      4096 ≤ r.cycles) ∧
    (let s : State := wPy iNop; let n : Pump := 0; let r : PumpRun := wRun; let i : PyInst := iNop; s.pyReady n .nop r i ∧
      (s.pyStart r i).spIn) ∧
    (let s : State := wPy iEnd; let n : Pump := 0; let r : PumpRun := wRun; let i : PyInst := iEnd; s.pyReady n .endS r i ∧
      r.preset = false ∧ r.late = false ∧ (s.port r.port).loop.limp = false) ∧
    (let s : State := wPy iEnd fPre; let n : Pump := 0; let r : PumpRun := wRun fPre; let i : PyInst := iEnd;
      s.pyReady n .endS r i ∧ r.preset = true ∧ r.late = false ∧ (s.port r.port).loop.limp = false) ∧
    (let s : State := wPy iEnd fLate; let n : Pump := 0; let r : PumpRun := wRun fLate; let i : PyInst := iEnd;
      s.pyReady n .endS r i ∧ r.late = true) ∧
    (let s : State := wPy iStg fBusy; let n : Pump := 0; let r : PumpRun := wRun fBusy; let i : PyInst := iStg;
      let c : Instr := .stg 0; s.pump n = some r ∧ s.prog.fetch r.pc = .ok i ∧ mustWait i r = true ∧ onPump c = some n ∧
      c ≠ .runawayTrap n ∧ c ≠ .stageUnitCommit n) ∧
    (let s : State := { wPy iEnd with prog := ⟨true, []⟩ }; let n : Pump := 0; let r : PumpRun := wRun;
      s.pump n = some r ∧ s.prog.fetch r.pc = .rom ∧
      PyM.romBad ⟨r, s.trough⟩ (s.port r.port).cfg.form = false ∧
      r.preset = false ∧ r.late = false ∧ (s.port r.port).loop.limp = false) ∧
    (let s : State := { ((wPy iEnd fRom).onPort 0 fun x => { x with cfg := { x.cfg with form := true } }) with prog := ⟨true, []⟩ };
      let n : Pump := 0; let r : PumpRun := wRun fRom; s.pump n = some r ∧ s.prog.fetch r.pc = .rom ∧ PyM.romBad ⟨r, s.trough⟩ (s.port r.port).cfg.form = true) := by
  refine ⟨?_, ?_, ?_, ?_, ?_, ?_, ?_, ?_, ?_, ?_, ?_⟩ <;> decide +kernel

theorem wit_PyrogWriteFrame :
    (let m : PyM := wM iNop; let m' : PyM := okM (wM iNop) ((wM iNop).write .f32 5#32 (.reg 3)); let ty : PyTy := .f32;
      let w : Word := 5#32; let p : PyPlace := .reg 3; m.write ty w p = .ok m') := by
  decide +kernel

theorem wit_SamplesOnPumps :
    (let s : State := wSel; let n : Pump := 0; let p : Port := 0; let tie : Bool := false; let c : FreeCycle := ⟨100, []⟩;
      (s.port p).loop.ready = true ∧ s.pump n = none ∧ s.pickFor n c.ahead = some (p, tie) ∧ (s.port p).loop.preset = false ∧
      s.beaten p n c.others = false ∧ (s.port p).loop.limp = false ∧ ((s.port p).loop.running = true ∧
      (∀ n r, s.pump n = some r → r.port = p → r.late = false) ∨ (s.port p).loop.ready = true ∧ (s.port p).loop.running = false) ∧
      (s.port p).loop.orun < 7) ∧
    (let s : State := wLoop fun l => { l with trig := true, auto := true }; let p : Port := 0; (s.port p).loop.trig = true ∧
      (s.port p).loop.manPend = false ∧ (s.port p).loop.auto = true) ∧
    (let s : State := wLoop fun l => { l with trig := true, manPend := true, auto := true }; let p : Port := 0;
      (s.port p).loop.trig = true ∧ (s.port p).loop.manPend = true) ∧
    (let s : State := wPre true; let n : Pump := 0; let p : Port := 0; let tie : Bool := false; let c : FreeCycle := ⟨100, []⟩;
      s.beaten p n c.others = false ∧ s.pump n = none ∧ s.pickFor n c.ahead = some (p, tie) ∧ (s.port p).loop.preset = true ∧
      (s.pmp.coefQ.any fun e => e.1 = p) = false ∧ s.headerOk p = true) ∧
    (let s : State := wPre false; let n : Pump := 0; let p : Port := 0; let tie : Bool := false; let c : FreeCycle := ⟨100, []⟩;
      s.beaten p n c.others = false ∧ s.pump n = none ∧ s.pickFor n c.ahead = some (p, tie) ∧ (s.port p).loop.preset = true ∧
      (s.pmp.coefQ.any fun e => e.1 = p) = false ∧ s.headerOk p = false) ∧
    (let s : State := wRunn fun l => { l with orun := 7 }; let p : Port := 0; (s.port p).loop.limp = false ∧
      ((s.port p).loop.running = true ∧ (∀ n r, s.pump n = some r → r.port = p → r.late = false) ∨ (s.port p).loop.ready = true ∧
      (s.port p).loop.running = false) ∧ 7 ≤ (s.port p).loop.orun) ∧
    (let s : State := wSteal; let n : Pump := 1; let p : Port := 0; let tie : Bool := false; let c : FreeCycle := ⟨100, [0]⟩;
      s.pickFor n c.ahead = some (p, tie) ∧ s.beaten p n c.others = true) := by
  refine ⟨?_, ?_, ?_, ?_, ?_, ?_, ?_⟩ <;> decide +kernel

theorem wit_LoopSlotWrites :
    (let s : State := wCoef; let p : Port := 0; let i : Fin 256 := 3; let v : Word := 9#32;
      let l : List (Port × Fin 256 × Word) := []; s.served = true ∧ s.dev.unlock = true ∧ s.twi.commits = [] ∧
      (s.port p).loop.limp = false ∧ (s.port p).loop.auto = false ∧ (s.port p).loop.held = false ∧ s.trough.wf = true ∧
      s.pmp.coefQ = (p, i, v) :: l) ∧
    (let s : State := wUn (fun l => { l with auto := true }) (fun x => { x with den := true }); let p : Port := 0;
      s.served = true ∧ s.dev.unlock = true ∧ s.twi.commits = [] ∧ (s.port p).loop.auto = true) := by
  refine ⟨?_, ?_⟩ <;> decide +kernel

theorem wit_PacketsAndTransmission :
    (let s : State := wProt fun x => { x with cur := some 200 }; let p : Port := 0; let amp : Nat := 400; let a : Nat := 200;
      let k : Packet := wPkt 4 .sop true; s.bmcRuns p = true ∧ (s.port p).prot.cur = some a ∧ 3 * a ≤ 2 * amp ∧
      packetVerdict k (s.port p).vconnOn = .good ∧ (∀ id, k.msg ≠ .goodCrc id) ∧
      idOf (s.port p).prot.lastId k.sop ≠ some k.msgId ∧ (s.port p).prot.rx.length < 2 ∧
      (s.port p).prot.onLine s.dev.aon = false ∧ k.sop ≠ .hardReset) ∧
    (let s : State := wProt fun x => { x with inProg := true, await := some wTx }; let p : Port := 0; s.bmcRuns p = true ∧
      (s.port p).prot.onLine s.dev.aon = true ∧
      ((s.port p).prot.inProg = true ∨ (s.port p).prot.hrProg = true ∨ (s.port p).prot.goodCrc ≠ [] ∧
      (s.port p).prot.cur = none) ∧ (s.port p).prot.hrLate = false) ∧
    (let s : State := wProt id; let p : Port := 0; let kbps : Nat := 300; s.bmcRuns p = true ∧ (s.port p).prot.cur = none ∧
      (s.port p).prot.onLine s.dev.aon = false ∧ 270 ≤ kbps ∧ kbps ≤ 330) ∧
    (let s : State := wProt fun x => { x with hrWait := true }; let p : Port := 0; s.bmcRuns p = true ∧
      (s.port p).prot.driving = false ∧ (s.port p).prot.cur = none ∧ (s.port p).prot.hrWait = true) ∧
    (let s : State := wProt fun x => { x with txq := [wTx] }; let p : Port := 0; let m : TxMsg := wTx; let l : List TxMsg := [];
      s.bmcRuns p = true ∧ (s.port p).prot.driving = false ∧ (s.port p).prot.cur = none ∧ (s.port p).prot.hrWait = false ∧
      (s.port p).prot.await = none ∧ (s.port p).prot.txq = m :: l) ∧
    (let s : State := wProt fun x => { x with await := some wTx, tries := 1 }; let p : Port := 0; let m : TxMsg := wTx;
      (s.port p).prot.await = some m ∧ (s.port p).prot.inProg = false ∧ (s.port p).prot.tries < 3) ∧
    (let s : State := wProt fun x => { x with await := some wTx, tries := 3 }; let p : Port := 0; let m : TxMsg := wTx;
      (s.port p).prot.await = some m ∧ (s.port p).prot.inProg = false ∧ 3 ≤ (s.port p).prot.tries) ∧
    (∃ amp : Nat, Config.preambleMv.val ≤ amp) := by
  refine ⟨?_, ?_, ?_, ?_, ?_, ?_, ?_, ⟨_, Nat.le_refl _⟩⟩ <;> decide +kernel

theorem wit_AnswersGiven :
    (let s : State := wMsg .getRevision; let h : Hand := 0; let p : Port := 0; s.msgOn h p ⟨.sop, .getRevision⟩) ∧
    (let s : State := wMsg .getSinkCap; let h : Hand := 0; let p : Port := 0; s.msgOn h p ⟨.sop, .getSinkCap⟩) ∧
    (let s : State := wMsg .getSourceCap (fRole 1) .attSnk; let h : Hand := 0; let p : Port := 0;
      s.msgOn h p ⟨.sop, .getSourceCap⟩ ∧ (s.port p).tc.isSrc = false) ∧
    (let s : State := wMsg .getSourceCap (wPd fun x => { x with src := .ready }); let h : Hand := 0; let p : Port := 0;
      s.msgOn h p ⟨.sop, .getSourceCap⟩ ∧ (s.port p).tc.isSrc = true) ∧
    (let s : State := wMsg .getPpsStatus; let h : Hand := 0; let p : Port := 0; s.msgOn h p ⟨.sop, .getPpsStatus⟩ ∧
      (s.port p).tc.isSrc = true) ∧
    (let s : State := wMsg .getStatus; let h : Hand := 0; let p : Port := 0; s.msgOn h p ⟨.sop, .getStatus⟩) ∧
    (let s : State := wMsg (.other 5); let h : Hand := 0; let p : Port := 0; let n : Nat := 5; s.msgOn h p ⟨.sop, .other n⟩) ∧
    (let s : State := wMsg .prSwap; let h : Hand := 0; let p : Port := 0; let c : Instr := Instr.prSwap 0 0;
      let m : PdMsg := .prSwap;
      ((c, m) ∈ [(Instr.prSwap h p, PdMsg.prSwap), (.drSwap h p, .drSwap), (.frSwap h p, .frSwap), (.dataReset h p, .dataReset)] ∨ (c, m) = (.vconnSwap h p, .vconnSwap) ∧
      s.alm.cfg.feat.testBit 4 = false) ∧ s.msgOn h p ⟨.sop, m⟩) ∧
    (let s : State := wFeat (wMsg .vconnSwap (wPd fun x => { x with vconnSrc := true })); let h : Hand := 0; let p : Port := 0;
      s.msgOn h p ⟨.sop, .vconnSwap⟩ ∧ s.alm.cfg.feat.testBit 4 = true ∧ (s.port p).pd.vconnSrc = true) := by
  refine ⟨?_, ?_, ?_, ?_, ?_, ?_, ?_, ?_, ?_⟩ <;> decide +kernel

theorem wit_RequestsAdmitted :
    (let s : State := wReq 1 3000; let h : Hand := 0; let p : Port := 0; let r : Rdo := wRdo 1 3000;
      let c : Contract := wC 1 3000; let i : Instr := Instr.request 0 0; let m : PdMsg := .request (wRdo 1 3000);
      ((i, m) = (.request h p, .request r) ∧ (s.port p).pd.eprMsgs = false ∨ (i, m) = (.eprRequest h p, .eprRequest r) ∧
      (s.port p).pd.eprMsgs = true) ∧ s.msgOn h p ⟨.sop, m⟩ ∧ (s.port p).tc.isSrc = true ∧ (s.port p).pd.src.takesRequest = true ∧
      requestOf (s.port p).pd.offer r (s.port p).pd.eprMsgs = some c ∧
      s.sibAttached p = true → c.mv = (s.port (s.stageOf p)).stg.target ∧
      (s.cis.ahead : Int) + (c.credits - (s.port p).pd.charge : Nat) ≤ s.free) ∧
    (let s : State := wPoor (wReq 1 3000); let h : Hand := 0; let p : Port := 0; let r : Rdo := wRdo 1 3000;
      let c : Contract := wC 1 3000; let i : Instr := Instr.request 0 0; let m : PdMsg := .request (wRdo 1 3000);
      ((i, m) = (.request h p, .request r) ∧ (s.port p).pd.eprMsgs = false ∨ (i, m) = (.eprRequest h p, .eprRequest r) ∧
      (s.port p).pd.eprMsgs = true) ∧ s.msgOn h p ⟨.sop, m⟩ ∧ (s.port p).tc.isSrc = true ∧ (s.port p).pd.src.takesRequest = true ∧
      requestOf (s.port p).pd.offer r (s.port p).pd.eprMsgs = some c ∧
      s.sibAttached p = true → c.mv = (s.port (s.stageOf p)).stg.target ∧ s.free < (c.credits : Int) - (s.port p).pd.charge ∧
      (s.port p).pd.charge < c.credits ∧ (s.port p).pd.waits < 2) ∧
    (let s : State := wReq 3 3000; let h : Hand := 0; let p : Port := 0; let r : Rdo := wRdo 3 3000;
      let i : Instr := Instr.request 0 0; let m : PdMsg := .request (wRdo 3 3000); ((i, m) = (.request h p, .request r) ∧
      (s.port p).pd.eprMsgs = false ∨ (i, m) = (.eprRequest h p, .eprRequest r) ∧ (s.port p).pd.eprMsgs = true) ∧
      s.msgOn h p ⟨.sop, m⟩ ∧ (s.port p).tc.isSrc = true ∧ (s.port p).pd.src.takesRequest = true ∧
      requestOf (s.port p).pd.offer r (s.port p).pd.eprMsgs = none ∧ (s.port p).pd.contract = none) ∧
    (let s : State := wTwin (fun x => { x with tc := { x.tc with st := .attSrc } }) (wReq 1 3000); let h : Hand := 0;
      let p : Port := 0; let r : Rdo := wRdo 1 3000; let c : Contract := wC 1 3000; let i : Instr := Instr.request 0 0;
      let m : PdMsg := .request (wRdo 1 3000); ((i, m) = (.request h p, .request r) ∧
      (s.port p).pd.eprMsgs = false ∨ (i, m) = (.eprRequest h p, .eprRequest r) ∧ (s.port p).pd.eprMsgs = true) ∧
      s.msgOn h p ⟨.sop, m⟩ ∧ (s.port p).tc.isSrc = true ∧ (s.port p).pd.src.takesRequest = true ∧
      requestOf (s.port p).pd.offer r (s.port p).pd.eprMsgs = some c ∧ s.sibAttached p = true ∧
      c.mv ≠ (s.port (s.stageOf p)).stg.target ∧ (s.port p).pd.twinWaits < 2) ∧
    (let s : State := wTwin (fun x => { x with tc := { x.tc with st := .attSrc } }) (wReq 1 3000 fun x => { x with twinWaits := 2 });
      let h : Hand := 0; let p : Port := 0; let r : Rdo := wRdo 1 3000; let c : Contract := wC 1 3000;
      let i : Instr := Instr.request 0 0; let m : PdMsg := .request (wRdo 1 3000); ((i, m) = (.request h p, .request r) ∧
      (s.port p).pd.eprMsgs = false ∨ (i, m) = (.eprRequest h p, .eprRequest r) ∧ (s.port p).pd.eprMsgs = true) ∧
      s.msgOn h p ⟨.sop, m⟩ ∧ (s.port p).tc.isSrc = true ∧ (s.port p).pd.src.takesRequest = true ∧
      requestOf (s.port p).pd.offer r (s.port p).pd.eprMsgs = some c ∧ s.sibAttached p = true ∧
      c.mv ≠ (s.port (s.stageOf p)).stg.target ∧ (s.port p).pd.twinWaits = 2) ∧
    (let s : State := wReq 1 3000 fun x => { x with epr := .epr }; let h : Hand := 0; let p : Port := 0;
      let r : Rdo := wRdo 1 3000; let i : Instr := Instr.request 0 0; let m : PdMsg := .request (wRdo 1 3000);
      ((i, m) = (.request h p, .request r) ∧ (s.port p).pd.eprMsgs = true ∨ (i, m) = (.eprRequest h p, .eprRequest r) ∧
      (s.port p).pd.eprMsgs = false) ∧ s.msgOn h p ⟨.sop, m⟩ ∧ (s.port p).tc.isSrc = true ∧ (s.port p).pd.src.takesRequest = true) := by
  refine ⟨?_, ?_, ?_, ?_, ?_, ?_⟩ <;> decide +kernel

theorem wit_ResetsReceived :
    (let s : State := wMsg .softReset (wPd fun x => { x with src := .ready, pledge := 4 }); let h : Hand := 0;
      let p : Port := 0; s.msgOn h p ⟨.sop, .softReset⟩ ∧ (s.port p).tc.isSrc = true ∧ (s.port p).pd.src.takesSoftReset = true ∧
      s.calm) ∧
    (let s : State := wHr .hardReset; let h : Hand := 0; let p : Port := 0; s.handOn h p .hardReset ∧
      (s.port p).tc.isSrc = true) ∧
    (let s : State := wHr .hardReset id .attSnk; let h : Hand := 0; let p : Port := 0; s.handOn h p .hardReset ∧
      (s.port p).tc.isSnk = true) := by
  refine ⟨?_, ?_, ?_⟩ <;> decide +kernel

theorem wit_AnswersTaken :
    (let s : State := wMsg .accept (wPd fun x => { x with src := .softReset }); let h : Hand := 0; let p : Port := 0;
      s.msgOn h p ⟨.sop, .accept⟩ ∧ (s.port p).tc.isSrc = true ∧ (s.port p).pd.src = .softReset) ∧
    (let s : State := wMsg .accept (wPd fun x => { x with snk := .select, want := some wCon }) .attSnk; let h : Hand := 0;
      let p : Port := 0; let c : Contract := wCon; s.msgOn h p ⟨.sop, .accept⟩ ∧ (s.port p).tc.isSnk = true ∧
      (s.port p).pd.snk = .select ∧ (s.port p).pd.want = some c) ∧
    (let s : State := wMsg .reject (wPd fun x => { x with snk := .select, srcCaps := wCaps.pdos }) .attSnk; let h : Hand := 0;
      let p : Port := 0; s.msgOn h p ⟨.sop, .reject⟩ ∧ (s.port p).tc.isSnk = true ∧ (s.port p).pd.snk = .select ∧
      (s.port p).pd.vcsPend = false ∧ (s.port p).pd.sinkDue = false) ∧
    (let s : State := wMsg .wait (wPd fun x => { x with snk := .select }) .attSnk; let h : Hand := 0; let p : Port := 0;
      s.msgOn h p ⟨.sop, .wait⟩ ∧ (s.port p).tc.isSnk = true ∧ (s.port p).pd.snk = .select ∧ (s.port p).pd.vcsPend = false) ∧
    (let s : State := wMsg .psRdy (wPd fun x => { x with snk := .transition, want := some wCon }) .attSnk; let h : Hand := 0;
      let p : Port := 0; let c : Contract := wCon; s.msgOn h p ⟨.sop, .psRdy⟩ ∧ (s.port p).tc.isSnk = true ∧
      (s.port p).pd.snk = .transition ∧ (s.port p).pd.vcs ≠ 1 ∧ (s.port p).pd.want = some c ∧ (s.port p).pd.sinkDue = false) ∧
    (let s : State := wMsg .notSupported (wPd fun x => { x with epr := .entry }) .attSnk; let h : Hand := 0; let p : Port := 0;
      s.msgOn h p ⟨.sop, .notSupported⟩ ∧ (s.port p).tc.isSnk = true ∧ (s.port p).pd.epr = .entry ∧
      (s.port p).pd.vcsPend = false) ∧
    (let s : State := wMsg (.sourceCap wCaps) (wPd fun x => { x with snk := .startup }) .attSnk; let h : Hand := 0;
      let p : Port := 0; let c : SrcCaps := wCaps; (s.port p).tc.isSnk = true ∧ (s.port p).pd.snk.takesCaps = true ∧
      s.msgOn h p ⟨.sop, .sourceCap c⟩ ∧ (s.port p).pd.contract = none ∧ (s.port p).pd.epr = .spr) ∧
    (let s : State := wMsg (.eprSourceCap wCaps) (wPd fun x => { x with snk := .ready, epr := .epr }) .attSnk;
      let h : Hand := 0; let p : Port := 0; let c : SrcCaps := wCaps; (s.port p).tc.isSnk = true ∧
      (s.port p).pd.snk.takesCaps = true ∧ s.msgOn h p ⟨.sop, .eprSourceCap c⟩ ∧ (s.port p).pd.epr = .epr) := by
  refine ⟨?_, ?_, ?_, ?_, ?_, ?_, ?_, ?_⟩ <;> decide +kernel

theorem wit_EprMode :
    (let s : State := wEprS; let h : Hand := 0; let p : Port := 0; s.msgOn h p ⟨.sop, .eprMode .enter⟩ ∧
      (s.port p).tc.isSrc = true ∧ (s.port p).pd.epr = .spr ∧ (s.port p).pd.eprPend = false ∧
      ((s.port p).pd.gaveVconn = false ∨ (s.port p).pd.vconnSrc = true) ∧ s.eprClass p = true ∧ s.eprOffered p = true ∧
      (s.cableNow p).epr = true ∧ (s.port p).pd.sprContract = true) ∧
    (let s : State := wMsg (.eprMode .enter) (wPd fun x => { x with vconnSrc := true, contract := some wCon, cable := { x.cable with epr := true }});
      let h : Hand := 0; let p : Port := 0; s.msgOn h p ⟨.sop, .eprMode .enter⟩ ∧ (s.port p).tc.isSrc = true ∧
      (s.port p).pd.epr = .spr ∧ (s.port p).pd.eprPend = false ∧
      ((s.port p).pd.gaveVconn = false ∨ (s.port p).pd.vconnSrc = true) ∧ s.eprClass p = false) ∧
    (let s : State := wMsg (.eprMode .exit) (fE .epr) .attSnk; let h : Hand := 0; let p : Port := 0;
      s.msgOn h p ⟨.sop, .eprMode .exit⟩ ∧ (s.port p).tc.isSnk = true ∧ (s.port p).pd.epr = .epr) ∧
    (let s : State := wMsg (.eprMode .enterSucceeded) (fE .entry) .attSnk; let h : Hand := 0; let p : Port := 0;
      s.msgOn h p ⟨.sop, .eprMode .enterSucceeded⟩ ∧ (s.port p).tc.isSnk = true ∧ (s.port p).pd.epr = .entry) ∧
    (let s : State := wMsg (.eprMode (.enterFailed 1)) (fE .entry) .attSnk; let h : Hand := 0; let p : Port := 0;
      let n : Nat := 1; s.msgOn h p ⟨.sop, .eprMode (.enterFailed n)⟩ ∧ (s.port p).tc.isSnk = true ∧ (s.port p).pd.epr = .entry) ∧
    (let s : State := wMsg .eprKeepAlive (fE .epr); let h : Hand := 0; let p : Port := 0; s.msgOn h p ⟨.sop, .eprKeepAlive⟩ ∧
      (s.port p).tc.isSrc = true ∧ (s.port p).pd.epr = .epr) ∧
    (let s : State := wMsg (.eprMode .exit) (wPd fun x => { x with epr := .epr, src := .ready }); let h : Hand := 0;
      let p : Port := 0; s.msgOn h p ⟨.sop, .eprMode .exit⟩ ∧ (s.port p).tc.isSrc = true ∧ (s.port p).pd.epr = .epr ∧
      (s.port p).pd.contract = none ∧ (s.port p).pd.src = .ready) ∧
    (let s : State := wEprS.onPort 0 fun x => { x with pd := { x.pd with contract := some { wCon with kind := .eprFixed }, epr := .epr } };
      let h : Hand := 0; let p : Port := 0; s.msgOn h p ⟨.sop, .eprMode .enter⟩ ∧ (s.port p).tc.isSrc = true ∧
      (s.port p).pd.eprPend = false ∧ ((s.port p).pd.gaveVconn = false ∨ (s.port p).pd.vconnSrc = true) ∧ s.eprClass p = true ∧
      s.eprOffered p = true ∧ (s.cableNow p).epr = true ∧ (s.port p).pd.sprContract = false) := by
  refine ⟨?_, ?_, ?_, ?_, ?_, ?_, ?_, ?_⟩ <;> decide +kernel

theorem wit_TransmissionResults :
    (let s : State := wHr (.txOk .caps) (wPd fun x => { x with src := .sendCaps }); let h : Hand := 0; let p : Port := 0;
      (s.port p).tc.isSrc = true ∧ s.handOn h p (.txOk .caps) ∧ (s.port p).pd.src = .sendCaps) ∧
    (let s : State := wHr (.txOk .accept) (wPd fun x => { x with src := .admission, want := some wCon, pledge := 9 });
      let h : Hand := 0; let p : Port := 0; let c : Contract := wCon; (s.port p).tc.isSrc = true ∧ s.handOn h p (.txOk .accept) ∧
      (s.port p).pd.want = some c ∧ s.calm) ∧
    (let s : State := wHr (.txOk .psRdy) (wPd fun x => { x with src := .transition, want := some wCon }); let h : Hand := 0;
      let p : Port := 0; let c : Contract := wCon; (s.port p).tc.isSrc = true ∧ s.handOn h p (.txOk .psRdy) ∧
      (s.port p).pd.want = some c ∧ (s.cis.ahead : Int) + c.credits ≤ s.free + (s.port p).pd.charge + (s.port p).pd.pledge) ∧
    (let s : State := wHr (.txFail .accept) (wPd fun x => { x with src := .admission }); let h : Hand := 0; let p : Port := 0;
      (s.port p).tc.isSrc = true ∧ s.handOn h p (.txFail .accept) ∧ s.calm) ∧
    (let s : State := wHr (.txFail .psRdy) (wPd fun x => { x with src := .transition }); let h : Hand := 0; let p : Port := 0;
      (s.port p).tc.isSrc = true ∧ s.handOn h p (.txFail .psRdy)) ∧
    (let s : State := wHr (.txFail .caps) (wPd fun x => { x with src := .sendCaps, capsTry := 50 }); let h : Hand := 0;
      let p : Port := 0; (s.port p).tc.isSrc = true ∧ s.handOn h p (.txFail .caps) ∧ (s.port p).pd.src = .sendCaps) := by
  refine ⟨?_, ?_, ?_, ?_, ?_, ?_⟩ <;> decide +kernel

theorem wit_OffersAndAlerts :
    (let s : State := wT .waitWindow (wSrc .waitReq); let h : Hand := 0; let p : Port := 0;
      let c : Instr := Instr.waitWindowExpiry 0 0; (s.port p).tc.isSrc = true ∧ c = .waitWindowExpiry h p ∧
      s.timerOn h p .waitWindow ∧ (s.port p).pd.src = .waitReq) ∧
    (let s : State := wT .rejectResend (wSrc .admission); let h : Hand := 0; let p : Port := 0;
      let c : Instr := Instr.rejectResendCaps 0 0; (s.port p).tc.isSrc = true ∧ c = .rejectResendCaps h p ∧
      s.timerOn h p .rejectResend ∧ (s.port p).pd.src = .admission) ∧
    (let s : State := wT .reofferSpacing (wSrc .ready fun x => { x with due := true }); let h : Hand := 0; let p : Port := 0;
      let c : Instr := Instr.reofferSpacingExpiry 0 0; (s.port p).tc.isSrc = true ∧ c = .reofferSpacingExpiry h p ∧
      s.timerOn h p .reofferSpacing ∧ (s.port p).pd.src = .ready ∧ (s.port p).pd.due = true) ∧
    (let s : State := wHr .shed (wSrc .ready fun x => { x with shed := true }); let h : Hand := 0; let p : Port := 0;
      let c : Instr := Instr.shedNotice 0 0; (s.port p).tc.isSrc = true ∧ c = .shedNotice h p ∧ s.handOn h p .shed ∧
      ((s.port p).pd.shed || (s.port p).pd.trigger) = true ∧ (s.port p).pd.holdTwin = false ∧
      (s.port p).pd.src = .ready) ∧
    (let s : State := tSrc (wSrc .startup fun x => { x with cabled := true }); let p : Port := 0; let vbc : Nat := 5000;
      let c : Instr := Instr.vsafe5vInBand 0 5000; (s.port p).tc.isSrc = true ∧ c = .vsafe5vInBand p vbc ∧ s.works p = true ∧
      in5V vbc = true ∧ (s.port p).pd.src = .startup ∧ (s.port p).pd.cabled = true) ∧
    (let s : State := wRise; let p : Port := 0; let c : Instr := Instr.freeRise 0; (s.port p).tc.isSrc = true ∧
      c = .freeRise p ∧ s.works p = true ∧ s.freeRose p = true ∧ (s.port p).pd.src = .ready ∧ (s.port p).pd.spacing = true) ∧
    (let s : State := wT .typeCSendSourceCap (wSrc .sendCaps); let h : Hand := 0; let p : Port := 0;
      (s.port p).tc.isSrc = true ∧ s.timerOn h p .typeCSendSourceCap ∧ (s.port p).pd.src = .sendCaps) ∧
    (let s : State := wEvR (.crier .dip) (tPd .ready fun x => { x with contract := some wCon }); let h : Hand := 0;
      let p : Port := 0; let r : YardRec := ⟨none, 1, .crier .dip, false, 0, false⟩; s.dev.stop = none ∧ s.running = true ∧
      s.hnd.choose h = some r ∧ r.port = none ∧ r.ev = .crier .dip ∧ r.dead = false ∧ s.bmcRuns p = true ∧ (s.port p).tc.isSrc = true ∧
      (s.port p).pd.alerts = [] ∧ (s.port p).inputDue = false ∧ (s.port 5).tc.isSrc = false) ∧
    (let s : State := wEvR (.crier .dip) (tPd .ready fun x => { x with contract := some wCon, alerts := [.sourceInputChange] });
      let h : Hand := 0; let p : Port := 0; let r : YardRec := ⟨none, 1, .crier .dip, false, 0, false⟩; s.dev.stop = none ∧
      s.running = true ∧ s.hnd.choose h = some r ∧ r.port = none ∧ r.ev = .crier .dip ∧ r.dead = false ∧ s.bmcRuns p = true ∧
      (s.port p).tc.isSrc = true ∧ (s.port p).inputDue = true) ∧
    (let s : State := wT .alertWait; let h : Hand := 0; let p : Port := 0; s.dev.stop = none ∧ s.timerOn h p .alertWait ∧
      (s.port p).pd.alerts = []) ∧
    (let s : State := wT .alertWait (wSrc .ready fun x => { x with contract := some wCon, alerts := [.sourceInputChange] });
      let h : Hand := 0; let p : Port := 0; let k : AlertKind := .sourceInputChange; let l : List AlertKind := [];
      s.dev.stop = none ∧ s.timerOn h p .alertWait ∧ (s.port p).pd.alerts = k :: l ∧ (s.port p).tc.isSrc = true ∧
      (s.port p).pd.src = .ready ∧ (s.port p).pd.contract ≠ none) := by
  refine ⟨?_, ?_, ?_, ?_, ?_, ?_, ?_, ?_, ?_, ?_, ?_⟩ <;> decide +kernel

theorem wit_TimersReset :
    (let s : State := wT .senderResponse (wSrc .softReset) .attSrc; let h : Hand := 0; let p : Port := 0;
      let i : Instr := Instr.senderResponseTimerExpiry 0 0; i = .senderResponseTimerExpiry h p ∧ s.timerOn h p .senderResponse ∧
      (s.port p).tc.isSrc = true ∧ (s.port p).pd.src = .softReset) ∧
    (let s : State := wT .transitionLimit (wSrc .transition) .attSrc; let h : Hand := 0; let p : Port := 0;
      let i : Instr := Instr.transitionLimitExpiry 0 0; i = .transitionLimitExpiry h p ∧ s.timerOn h p .transitionLimit ∧
      (s.port p).pd.src = .transition) ∧
    (let s : State := wT .sinkWaitCap (wSnk .startup) .attSnk; let h : Hand := 0; let p : Port := 0;
      let i : Instr := Instr.sinkWaitCapTimerExpiry 0 0; i = .sinkWaitCapTimerExpiry h p ∧ s.timerOn h p .sinkWaitCap ∧
      (s.port p).tc.isSnk = true ∧ (s.port p).pd.snk = .startup) ∧
    (let s : State := wT .psTransition (wSnk .transition) .attSnk; let h : Hand := 0; let p : Port := 0;
      let i : Instr := Instr.psTransitionTimerExpiry 0 0; i = .psTransitionTimerExpiry h p ∧ s.timerOn h p .psTransition ∧
      (s.port p).tc.isSnk = true ∧ (s.port p).pd.snk = .transition) ∧
    (let s : State := wT .ppsTimeout (wSrc .ready fun x => { x with contract := some { wCon with kind := .pps } }) .attSrc;
      let h : Hand := 0; let p : Port := 0; let i : Instr := Instr.tppstimeoutExpiry 0 0;
      let k : Contract := { wCon with kind := .pps }; i = .tppstimeoutExpiry h p ∧ s.timerOn h p .ppsTimeout ∧
      (s.port p).pd.contract = some k ∧ k.kind = .pps) ∧
    (let s : State := wT .sourceEprKeepAlive (wSrc .ready fun x => { x with epr := .epr }) .attSrc; let h : Hand := 0;
      let p : Port := 0; let i : Instr := Instr.tsourceeprkeepaliveExpiry 0 0; i = .tsourceeprkeepaliveExpiry h p ∧
      s.timerOn h p .sourceEprKeepAlive ∧ (s.port p).pd.epr = .epr) ∧
    (let s : State := wT .vconnSourceOn (wSrc .ready fun x => { x with vcs := 1 }) .attSrc; let h : Hand := 0;
      let p : Port := 0; let i : Instr := Instr.tvconnsourceonExpiry 0 0; i = .tvconnsourceonExpiry h p ∧
      s.timerOn h p .vconnSourceOn ∧ (s.port p).pd.vcs = 1) ∧
    (let s : State := wT .shedLimit (wSrc .ready fun x => { x with shed := true }) .attSrc; let h : Hand := 0;
      let p : Port := 0; let i : Instr := Instr.shedLimitExpiry 0 0; i = .shedLimitExpiry h p ∧ s.timerOn h p .shedLimit ∧
      (s.port p).pd.shed = true) := by
  refine ⟨?_, ?_, ?_, ?_, ?_, ?_, ?_, ?_⟩ <;> decide +kernel

theorem wit_HardResetSequence :
    (let s : State := wT .psHardReset (fun x => { x with pd := { x.pd with hr := .off }, slc := { x.slc with st := .on } });
      let h : Hand := 0; let p : Port := 0; s.timerOn h p .psHardReset ∧ (s.port p).tc.isSrc = true ∧ (s.port p).pd.hr = .off ∧
      ((s.port p).slc.st ≠ .off ∨ (s.port p).slc.low0 = false)) ∧
    (let s : State := wT .srcRecover (wPd fun x => { x with hr := .recover }); let h : Hand := 0; let p : Port := 0;
      s.timerOn h p .srcRecover ∧ (s.port p).pd.hr = .recover) ∧
    (let s : State := tSrc (wSrc .hardReset fun x => { x with hr := .restore }); let p : Port := 0; let vbc : Nat := 5000;
      s.works p = true ∧ in5V vbc = true ∧ (s.port p).tc.isSrc = true ∧ (s.port p).pd.src = .hardReset ∧
      (s.port p).pd.hr = .restore ∧ (s.port p).pd.cabled = false) ∧
    (let s : State := tSnk (wPd fun x => { x with snkHr := true }); let p : Port := 0; let vbc : Nat := 5000; s.works p = true ∧
      (s.port p).tc.isSnk = true ∧ (s.port p).pd.snkHr = true ∧ 4000 < vbc ∧ s.sibAttached p = false) ∧
    (let s : State := wT .sinkHardReset (wPd fun x => { x with snkHr := true }) .attSnk; let h : Hand := 0; let p : Port := 0;
      s.timerOn h p .sinkHardReset ∧ (s.port p).tc.isSnk = true ∧ (s.port p).pd.snkHr = true) ∧
    (let s : State := wHr .sluice fun x => { x with pd := { x.pd with hr := .discharge }, slc := { x.slc with low0 := true } };
      let h : Hand := 0; let p : Port := 0; s.handOn h p .sluice ∧ (s.port p).tc.isSrc = true ∧ (s.port p).pd.hr = .discharge ∧
      (s.port p).slc.st = .off ∧ (s.port p).slc.low0 = true ∧ s.calm) ∧
    (let s : State := wT .psHardReset (wPd fun x => { x with snkHr := true }) .attSnk; let h : Hand := 0; let p : Port := 0;
      s.timerOn h p .psHardReset ∧ (s.port p).tc.isSnk = true ∧ (s.port p).pd.snkHr = true) := by
  refine ⟨?_, ?_, ?_, ?_, ?_, ?_, ?_⟩ <;> decide +kernel

theorem wit_TransitionSteps :
    (let s : State := wT .srcTransition (wSrc .transition fun x => { x with want := some wCon }); let h : Hand := 0;
      let p : Port := 0; let c : Contract := wCon; s.timerOn h p .srcTransition ∧ (s.port p).pd.want = some c ∧
      (s.port p).pd.src = .transition) ∧
    (let s : State := wT .sinkRequest (wSnk .waited fun x => { x with epr := .epr }) .attSnk; let h : Hand := 0;
      let p : Port := 0; s.timerOn h p .sinkRequest ∧ (s.port p).tc.isSnk = true ∧ (s.port p).pd.snk = .waited ∧
      (s.port p).pd.epr = .epr) ∧
    (let s : State := wT .sinkEprKeepAlive (wSnk .ready fun x => { x with epr := .epr }) .attSnk; let h : Hand := 0;
      let p : Port := 0; s.timerOn h p .sinkEprKeepAlive ∧ (s.port p).pd.epr = .epr) ∧
    (let s : State := wSet.onPort 0 fun x => { x with loop := { x.loop with auto := true } }; let p : Port := 0;
      let c : Contract := { wCon with mv := 9000 }; let mv : Nat := 9000; s.works p = true ∧ s.dev.stop = none ∧
      (s.port p).cfg.twin = false ∧ (s.port p).stg.den = true ∧ (s.port p).loop.auto = true ∧
      (s.port p).stg.ref = 1000 * ((s.port p).stg.target : Int) ∧ inBand (s.port p).stg.kind (s.port p).stg.target mv = true ∧
      (s.port p).pd.want = some c ∧ (s.port p).tc.isSrc = true ∧ (s.port p).pd.src = .transition ∧
      s.live p .transitionLimit = true ∧ s.live p .srcTransition = false ∧ c.mv = (s.port p).stg.target ∧
      (s.port p).pd.stgq = [] ∧ (s.port p).pd.holdTwin = false ∧ (s.port p).pd.psRdyOut = false) := by
  refine ⟨?_, ?_, ?_, ?_⟩ <;> decide +kernel

theorem wit_CableDiscovery :
    (let s : State := wT .vconnStable; let h : Hand := 0; let p : Port := 0; s.timerOn h p .vconnStable ∧
      (s.port p).tc.isSrc = true ∧ (s.port p).pd.cabled = false) ∧
    (let s : State := wT .discoverIdentity (fV fun x => { x with cab := .cableSop1 }); let h : Hand := 0; let p : Port := 0;
      s.timerOn h p .discoverIdentity ∧ (s.port p).vdm.cab = .cableSop1) ∧
    (let s : State := wV (wA .discIdentity (.identity (wId .passiveCable))) (fun x => { x with cab := .cableSop1, cabOut := some (wReqV .discIdentity) }) .sop1;
      let h : Hand := 0; let p : Port := 0; let v : Vdm := wA .discIdentity (.identity (wId .passiveCable));
      let i : Identity := wId .passiveCable; s.msgOn h p ⟨.sop1, .vdm v⟩ ∧ (s.port p).vdm.cabAnswers .cableSop1 v = true ∧
      (s.port p).prot.unsent .cable = false ∧ v.typ = .ack ∧ v.body = .identity i ∧ verOk v.ver = true ∧
      i.product = .passiveCable) ∧
    (let s : State := wV (wA .discIdentity (.identity (wId .passiveCable))) (fun x => { x with cab := .cableSop2, cabOut := some (wReqV .discIdentity) }) .sop2;
      let h : Hand := 0; let p : Port := 0; let v : Vdm := wA .discIdentity (.identity (wId .passiveCable));
      s.msgOn h p ⟨.sop2, .vdm v⟩ ∧ v.typ ≠ .req ∧ (s.port p).vdm.cabAnswers .cableSop2 v = true ∧
      (s.port p).prot.unsent .cable = false) ∧
    (let s : State := wT .cableLimit (fV fun x => { x with cab := .cableSop1 }); let h : Hand := 0; let p : Port := 0;
      s.timerOn h p .cableLimit ∧ (s.port p).pd.cabled = false ∧ (s.port p).vdm.cab = .cableSop1) := by
  refine ⟨?_, ?_, ?_, ?_, ?_⟩ <;> decide +kernel

theorem wit_PartnerDiscovery :
    (let s : State := wT .partnerDiscovery (wSrc .ready); let h : Hand := 0; let p : Port := 0;
      s.timerOn h p .partnerDiscovery ∧ (s.port p).tc.isSrc = true ∧ (s.port p).pd.src = .ready) ∧
    (let s : State := wV (wA .discIdentity (.identity (wId .passiveCable)) .ack 0xFF00#16 0) (fun x => { x with st := .discId, out := some (wReqV .discIdentity 0xFF00#16) });
      let h : Hand := 0; let p : Port := 0; let v : Vdm := (wA .discIdentity (.identity (wId .passiveCable)) .ack 0xFF00#16 0);
      let i : Identity := wId .passiveCable; s.msgOn h p ⟨.sop, .vdm v⟩ ∧ v.typ = .ack ∧ verOk v.ver = true ∧
      (s.port p).vdm.answers v = true ∧ (s.port p).prot.unsent .vdm = false ∧ v.cmd = .discIdentity ∧ v.body = .identity i ∧
      (s.port p).vdm.awaits .discId = true) ∧
    (let s : State := wV (wA .discSvids (.svids []) .ack 0xFF00#16 0) (fun x => { x with st := .discSvid, out := some (wReqV .discSvids 0xFF00#16) });
      let h : Hand := 0; let p : Port := 0; let v : Vdm := (wA .discSvids (.svids []) .ack 0xFF00#16 0);
      let l : List (BitVec 16) := []; s.msgOn h p ⟨.sop, .vdm v⟩ ∧ v.typ = .ack ∧ verOk v.ver = true ∧
      (s.port p).vdm.answers v = true ∧ (s.port p).prot.unsent .vdm = false ∧ v.cmd = .discSvids ∧
      (s.port p).vdm.awaits .discSvid = true ∧ v.body = .svids l ∧
      (l.length < 12 ∨ l.getLast? = some 0#16 ∨ 4 ≤ (s.port p).vdm.rounds) ∧
      (∀ x ∈ (s.port p).vdm.left, s.listed p l x = false)) ∧
    (let s : State := wAlt (wV (wA .discModes (.modes [⟨1#32, true⟩]) .ack 0xFF01#16 0) (fun x => { x with st := .discModes, out := some (wReqV .discModes 0xFF01#16) })) 2;
      let h : Hand := 0; let p : Port := 0; let v : Vdm := (wA .discModes (.modes [⟨1#32, true⟩]) .ack 0xFF01#16 0);
      let q : ModeVdo := ⟨1#32, true⟩; let k : List ModeVdo := []; s.msgOn h p ⟨.sop, .vdm v⟩ ∧ v.typ = .ack ∧
      verOk v.ver = true ∧ (s.port p).vdm.answers v = true ∧ (s.port p).prot.unsent .vdm = false ∧ v.cmd = .discModes ∧
      (s.port p).vdm.awaits .discModes = true ∧ (s.entryOfVdm p).kind ≠ 1 ∧ (s.entryOfVdm p).objPos = 1 ∧
      v.body = .modes (q :: k)) ∧
    (let s : State := wAlt (wV (wA .enterMode .none .ack 0xFF01#16 0) (fun x => { x with st := .enter, out := some (wReqV .enterMode 0xFF01#16) })) 1;
      let h : Hand := 0; let p : Port := 0; let v : Vdm := (wA .enterMode .none .ack 0xFF01#16 0); s.msgOn h p ⟨.sop, .vdm v⟩ ∧
      v.typ = .ack ∧ verOk v.ver = true ∧ (s.port p).vdm.answers v = true ∧ (s.port p).prot.unsent .vdm = false ∧
      v.cmd = .enterMode ∧ (s.port p).vdm.awaits .enter = true) ∧
    (let s : State := wAlt (wV (wA .dpStatus (.vdo 5#32) .ack 0xFF01#16 0) (fun x => { x with st := .dpStatus, out := some (wReqV .dpStatus 0xFF01#16) })) 1;
      let h : Hand := 0; let p : Port := 0; let v : Vdm := (wA .dpStatus (.vdo 5#32) .ack 0xFF01#16 0); let w : Word := 5#32;
      s.msgOn h p ⟨.sop, .vdm v⟩ ∧ v.typ = .ack ∧ verOk v.ver = true ∧ (s.port p).vdm.answers v = true ∧
      (s.port p).prot.unsent .vdm = false ∧ v.cmd = .dpStatus ∧ v.body = .vdo w ∧ (s.port p).vdm.awaits .dpStatus = true) ∧
    (let s : State := wAlt (wV (wA .dpConfigure .none .ack 0xFF01#16 0) (fun x => { x with st := .dpConfig, out := some (wReqV .dpConfigure 0xFF01#16) })) 1;
      let h : Hand := 0; let p : Port := 0; let v : Vdm := (wA .dpConfigure .none .ack 0xFF01#16 0); s.msgOn h p ⟨.sop, .vdm v⟩ ∧
      v.typ = .ack ∧ verOk v.ver = true ∧ (s.port p).vdm.answers v = true ∧ (s.port p).prot.unsent .vdm = false ∧
      v.cmd = .dpConfigure ∧ (s.port p).vdm.awaits .dpConfig = true ∧ s.alm.cfg.altmode = true) ∧
    (let s : State := wV (wA .discSvids (.svids [0xFF21#16, 0xFF22#16, 0xFF23#16, 0xFF24#16, 0xFF25#16, 0xFF26#16, 0xFF27#16, 0xFF28#16, 0xFF29#16, 0xFF2A#16, 0xFF2B#16, 0xFF2C#16]) .ack 0xFF00#16 0) (fun x => { x with st := .discSvid, left := [0], out := some (wReqV .discSvids 0xFF00#16) });
      let h : Hand := 0; let p : Port := 0;
      let v : Vdm := (wA .discSvids (.svids [0xFF21#16, 0xFF22#16, 0xFF23#16, 0xFF24#16, 0xFF25#16, 0xFF26#16, 0xFF27#16, 0xFF28#16, 0xFF29#16, 0xFF2A#16, 0xFF2B#16, 0xFF2C#16]) .ack 0xFF00#16 0);
      let l : List (BitVec 16) := [0xFF21#16, 0xFF22#16, 0xFF23#16, 0xFF24#16, 0xFF25#16, 0xFF26#16, 0xFF27#16, 0xFF28#16, 0xFF29#16, 0xFF2A#16, 0xFF2B#16, 0xFF2C#16];
      s.msgOn h p ⟨.sop, .vdm v⟩ ∧ v.typ = .ack ∧ verOk v.ver = true ∧ (s.port p).vdm.answers v = true ∧
      (s.port p).prot.unsent .vdm = false ∧ v.cmd = .discSvids ∧ (s.port p).vdm.awaits .discSvid = true ∧ v.body = .svids l ∧
      l.length = 12 ∧ l.getLast? ≠ some 0#16 ∧ (s.port p).vdm.rounds < 4) ∧
    (let s : State := wAlt (wV (wA .discSvids (.svids [0xFF01#16]) .ack 0xFF00#16 0) (fun x => { x with st := .discSvid, left := [3, 0, 0], out := some (wReqV .discSvids 0xFF00#16) })) 1;
      let h : Hand := 0; let p : Port := 0; let v : Vdm := (wA .discSvids (.svids [0xFF01#16]) .ack 0xFF00#16 0);
      let l : List (BitVec 16) := [0xFF01#16]; let a : List Nat := [3]; let b : List Nat := [0]; let e : Nat := 0;
      s.msgOn h p ⟨.sop, .vdm v⟩ ∧ v.typ = .ack ∧ verOk v.ver = true ∧ (s.port p).vdm.answers v = true ∧
      (s.port p).prot.unsent .vdm = false ∧ v.cmd = .discSvids ∧ (s.port p).vdm.awaits .discSvid = true ∧ v.body = .svids l ∧
      (l.length < 12 ∨ l.getLast? = some 0#16 ∨ 4 ≤ (s.port p).vdm.rounds) ∧ (s.port p).vdm.left = a ++ e :: b ∧
      (∀ x ∈ a, s.listed p l x = false) ∧ s.listed p l e = true) := by
  refine ⟨?_, ?_, ?_, ?_, ?_, ?_, ?_, ?_, ?_⟩ <;> decide +kernel

theorem wit_VdmFailuresAndCommands :
    (let s : State := wV (wA .discIdentity .none .nak) (fun x => { x with st := .discId, out := some (wReqV .discIdentity) });
      let h : Hand := 0; let p : Port := 0; let v : Vdm := (wA .discIdentity .none .nak); s.msgOn h p ⟨.sop, .vdm v⟩ ∧
      v.typ = .nak ∧ (s.port p).vdm.heeds v = true ∧ (s.port p).prot.unsent .vdm = false ∧ (s.port p).vdm.st = .discId) ∧
    (let s : State := wV (wA .discIdentity .none .busy) (fun x => { x with st := .discId, out := some (wReqV .discIdentity) });
      let h : Hand := 0; let p : Port := 0; let v : Vdm := (wA .discIdentity .none .busy); s.msgOn h p ⟨.sop, .vdm v⟩ ∧
      v.typ = .busy ∧ (s.port p).vdm.heeds v = true ∧ (s.port p).prot.unsent .vdm = false ∧ (s.port p).vdm.busies < 3) ∧
    (let s : State := wT .vdmBusy (fV fun x => { x with st := .discId, waiting := true, out := some (wReqV .discIdentity) });
      let h : Hand := 0; let p : Port := 0; let c : Vdm := (wReqV .discIdentity); s.timerOn h p .vdmBusy ∧
      (s.port p).vdm.waiting = true ∧ (s.port p).vdm.out = some c) ∧
    (let s : State := wT .vdmSenderResponse (fV fun x => { x with st := .discId, out := some (wReqV .discIdentity) });
      let h : Hand := 0; let p : Port := 0; let c : Vdm := (wReqV .discIdentity); s.timerOn h p .vdmSenderResponse ∧
      (s.port p).vdm.out = some c ∧ (s.port p).vdm.intr = false ∧ (s.port p).vdm.st = .discId) ∧
    (let s : State := wT .vdmWaitModeEntry (fV fun x => { x with st := .enter, out := some (wReqV .enterMode) });
      let h : Hand := 0; let p : Port := 0; s.timerOn h p .vdmWaitModeEntry ∧ (s.port p).vdm.awaits .enter = true ∧
      (s.port p).vdm.left = []) ∧
    (let s : State := wAlt (wV (wA .attention (.vdo 5#32) .req 0xFF01#16 1) (fun x => { x with st := .mode, entered := true })) 2;
      let h : Hand := 0; let p : Port := 0; let v : Vdm := (wA .attention (.vdo 5#32) .req 0xFF01#16 1); let w : Word := 5#32;
      s.msgOn h p ⟨.sop, .vdm v⟩ ∧ v.typ = .req ∧ v.cmd = .attention ∧ verOk v.ver = true ∧ (s.port p).vdm.entered = true ∧
      v.svid = (s.entryOfVdm p).svid ∧ v.objPos = (s.entryOfVdm p).objPos ∧ v.body = .vdo w ∧ (s.entryOfVdm p).kind = 2) ∧
    (let s : State := wV (wA .attention (.vdo 5#32) .req 0xFF01#16 1) id; let h : Hand := 0; let p : Port := 0;
      let v : Vdm := (wA .attention (.vdo 5#32) .req 0xFF01#16 1); s.msgOn h p ⟨.sop, .vdm v⟩ ∧ v.typ = .req ∧
      v.cmd = .attention ∧ verOk v.ver = true ∧ (s.port p).vdm.entered = false) ∧
    (let s : State := wT .irqHpdLow (fV fun x => { x with lowTime := true, lowHpd := true }); let h : Hand := 0;
      let p : Port := 0; s.timerOn h p .irqHpdLow ∧ (s.port p).vdm.lowTime = true ∧ (s.port p).vdm.lowIrq = false) ∧
    (let s : State := wV (wA .discIdentity .none .req) id; let h : Hand := 0; let p : Port := 0;
      let v : Vdm := wA .discIdentity .none .req; s.msgOn h p ⟨.sop, .vdm v⟩ ∧ v.typ = .req ∧ v.cmd ≠ .attention ∧
      verOk v.ver = true) ∧
    (let s : State := wMsg .unstructuredVdm; let h : Hand := 0; let p : Port := 0; s.msgOn h p ⟨.sop, .unstructuredVdm⟩) ∧
    (let s : State := wT .cableResponse (fV fun x => { x with cab := .cableSop1, cabOut := some (wReqV .discIdentity), tries := 1 });
      let h : Hand := 0; let p : Port := 0; s.timerOn h p .cableResponse ∧ (s.port p).vdm.cabOut.isSome = true ∧
      (s.port p).vdm.cabIntr = false ∧ (s.port p).vdm.cab = .cableSop1 ∧ (s.port p).vdm.tries < 3) := by
  refine ⟨?_, ?_, ?_, ?_, ?_, ?_, ?_, ?_, ?_, ?_, ?_⟩ <;> decide +kernel

theorem wit_MuxFrames :
    (let s : State := wMux false; let r : MuxReq := ⟨3, 5, 9#4⟩; s.dev.phase = .run ∧ s.mux.busy = false ∧ s.mux.zero = false ∧
      s.mux.reqs = [r] ∧ r.hand < 16) ∧
    (let s : State := wMux true; s.dev.phase = .run ∧ s.mux.busy = false ∧ s.mux.zero = true ∧ s.dev.stop = none) := by
  refine ⟨?_, ?_⟩ <;> decide +kernel

theorem wit_GuardReadingsAndCuts :
    (let s : State := wG (fWarm ∘ wNtc); let p : Port := 0; let ohm : Nat := 0; s.works p = true ∧ (s.port p).quiet = false ∧
      (s.port p).cfg.ntc = true ∧ ntcInBounds (s.port p).cfg.therm ohm = false ∧ (s.port p).grd.ntcf = false ∧
      0 < (s.port p).cfg.therm.pMin ∧ 0 < s.fDie p ∧ (s.port p).grd.zeroF = false ∧ (s.port p).tc.attached = true ∧
      (s.port p).grd.hot = false ∧ 1000 * ((s.port p).cfg.therm.tCut : Int) ≤ (s.port p).grd.temp ∧
      ((s.port p).grd.lastSecond s.dev.aon).any (·.2.isSome) = true) ∧
    (let s : State := wG fun x => { x with cfg := { x.cfg with dowser := true }, grd := { x.grd with frame := 1 } };
      let p : Port := 0; s.works p = true ∧ (s.port p).quiet = false ∧ (s.port p).cfg.dowser = true ∧ (s.port p).grd.frame ≠ 0 ∧
      (s.port p).grd.ccFrame = none) ∧
    (let s : State := wG wNtc; let p : Port := 0; let ohm : Nat := 10000; s.works p = true ∧ (s.port p).quiet = false ∧
      (s.port p).cfg.ntc = true ∧ ntcInBounds (s.port p).cfg.therm ohm = true ∧ (s.port p).grd.ntcf = false ∧
      (s.port p).grd.readings = [] ∧
      (s.port p).grd.zeroF = (decide (s.factor p = 0) && !(s.port p).grd.hot && !(s.port p).grd.dieHot)) ∧
    (let s : State := tSrc; let d : Die := .w0; let temp : Int := 1500; s.running = true ∧
      10 * (s.alm.cfg.dieCut : Int) ≤ temp ∧ s.grd.dies[Die.idx d].cut = false) ∧
    (let s : State := wG (fHot ∘ wNtc) .guardOff; let p : Port := 0; (s.port p).grd.hot = true ∧ (s.port p).grd.ntcf = false ∧
      (s.port p).grd.hotBelow ≠ none ∧ (s.port p).tc.st = .guardOff ∧ (s.port p).grd.wet = false ∧ (s.port p).grd.flood = false ∧
      (s.port p).grd.dieHot = false ∧ (s.port p).grd.zeroF = false ∧ (s.port p).grd.fNtc ≠ 0 ∧ s.fDie p ≠ 0) ∧
    (let s : State := wHr .guard (fun x => { wSrc .ready id x with grd := { x.grd with notice := true } }); let p : Port := 0;
      let h : Hand := 0; s.handOn h p .guard ∧ (s.port p).grd.notice = true ∧ (s.port p).tc.isSrc = true ∧
      (s.port p).pd.src = .ready) ∧
    (let s : State := { tSrc with grd := { tSrc.grd with dies := tSrc.grd.dies.set 1 { tSrc.grd.dies[(1 : Fin 3)] with cut := true, below := some 0 } } };
      let d : Die := .w0; s.grd.dies[Die.idx d].cut = true ∧ s.grd.dies[Die.idx d].below ≠ none) ∧
    (let s : State := wG fun x => { wNtc x with cfg := { (wNtc x).cfg with therm := { (wNtc x).cfg.therm with tD1 := 60, tD2 := 80, pMin := 0 } }, grd := { x.grd with temp := 85000 } };
      let p : Port := 0; s.works p = true ∧ (s.port p).quiet = false ∧ (s.port p).tc.attached = true ∧ (s.port p).cfg.ntc = true ∧
      (s.port p).grd.ntcf = false ∧ (s.port p).grd.hot = false ∧ (s.port p).grd.dieHot = false ∧ (s.port p).grd.zeroF = false ∧
      (s.port p).grd.temp < 1000 * ((s.port p).cfg.therm.tCut : Int) ∧ fNtcOf (s.port p).cfg.therm (s.port p).grd.temp = 0) := by
  refine ⟨?_, ?_, ?_, ?_, ?_, ?_, ?_, ?_⟩ <;> decide +kernel

theorem wit_YardAndHands :
    (let s : State := wChoose; let h : Hand := 0; let y : YardRec := wYr; let z : YardRec := wYr; s.hnd.choose h = some y ∧
      z ∈ s.hnd.ready ∧ y.cls ≠ 0 ∧ (∃ q, z.port = some q ∧ homeHand q = h.val)) ∧
    (let s : State := wYd [wR] []; let p : Port := 0; let r : YardReq := wR; let h : Hand := 0; let y : YardRec := wYr;
      s.running = true ∧ s.hnd.reqs = [r] ∧ r.from' < 64 ∧ r.port = some p ∧
      (match r.ev with | .timer _ _ => false | _ => true) = true ∧ s.hnd.ownUsed p < 128 ∧ (∀ y ∈ s.hnd.timers, y.place ≠ none) ∧
      s.hnd.choose h = none) ∧
    (let s : State := wYd [] [wTr]; let x : TimerRec := wTr; s.running = true ∧ s.hnd.timers = [x] ∧ x.place ≠ none ∧
      s.hnd.reqs = []) ∧
    (let s : State := { tSrc with hnd := { tSrc.hnd with ready := [{ wYr with cls := 0 }] } }; let h : Hand := 0;
      let y : YardRec := { wYr with cls := 0 }; let z : YardRec := { wYr with cls := 0 }; s.hnd.choose h = some y ∧
      z ∈ s.hnd.ready ∧ z.cls = 0) := by
  refine ⟨?_, ?_, ?_, ?_⟩ <;> decide +kernel

theorem wit_MeteringSample :
    (let s : State := wClr [] 3; let p : Port := 0; let m : List MetSample := wSamp;
      let x : MetSample := ⟨500000, 500000, 1000, 5000⟩;
      let r : Reading := readSample ⟨500000, 500000, 1000, 5000⟩ ((wClr [] 3).port 0).cfg.shunt ((wClr [] 3).prefOf 0);
      s.running = true ∧ s.lost p = false ∧ m[p.val]? = some x ∧ r = readSample x (s.port p).cfg.shunt (s.prefOf p)) := by
  decide +kernel

theorem wit_Calibration :
    (let s : State := { wGrp (fun y => { y with standIn := true }) (fun x => { x with met := { x.met with mods := x.met.mods.map fun z => { z with rej := some (9999990, 0) } } }) with clk := tRun.clk };
      let g : Group := 0; let o : Int := 10000000; let k : Int := 0; let p : Port := 0; let i : Fin 3 := 0;
      let r : Int × Int := (9999990, 0); s.calRuns g = true ∧ s.mtr.grp[g].beside = false ∧ s.mtr.grp[g].slot < 24 ∧
      p = slotPort g s.mtr.grp[g].slot ∧ i = slotMod s.mtr.grp[g].slot ∧ s.mtr.grp[g].standIn = true ∧
      calNear (o, k) ((s.port p).met.mods[i].off, (s.port p).met.mods[i].gain) = false ∧ (s.port p).met.mods[i].rej = some r ∧
      calNear (o, k) r = true ∧ s.heard = true ∧ s.mtr.holdMv.length < 11) ∧
    (let s : State := wPref; let g : Group := 0; let uv : Nat := 2400000; s.calRuns g = true ∧ s.mtr.grp[g].beside = true ∧
      s.mtr.grp[g].slot = 24 ∧ s.calRuns (prefGroup .w0) = true ∧ s.alm.cfg.pref = true ∧ s.mtr.grp[prefGroup .w0].beside = true ∧
      s.mtr.grp[prefGroup .w0].slot = 24 ∧ s.mtr.grp[prefGroup .w0].cycles % 10 = 9 ∧ (uv < 2487500 ∨ 2512500 < uv)) ∧
    (let s : State := wGrp fun g => { g with beside := true }; let g : Group := 0;
      let p : Port := slotPort 0 (wGrp fun g => { g with beside := true }).mtr.grp[(0:Fin 6)].slot;
      let i : Fin 3 := slotMod (wGrp fun g => { g with beside := true }).mtr.grp[(0:Fin 6)].slot; s.calRuns g = true ∧
      p = slotPort g s.mtr.grp[g].slot ∧ i = slotMod s.mtr.grp[g].slot ∧ s.mtr.grp[g].beside = true ∧
      s.mtr.grp[g].standIn = false ∧ s.mtr.grp[g].slot < 24) ∧
    (let s : State := wGrp fun g => { g with beside := true, standIn := true }; let g : Group := 0; let o : Int := 0;
      let k : Int := 0;
      let p : Port := slotPort 0 (wGrp fun g => { g with beside := true, standIn := true }).mtr.grp[(0:Fin 6)].slot;
      let i : Fin 3 := slotMod (wGrp fun g => { g with beside := true, standIn := true }).mtr.grp[(0:Fin 6)].slot;
      s.calRuns g = true ∧ p = slotPort g s.mtr.grp[g].slot ∧ i = slotMod s.mtr.grp[g].slot ∧ s.mtr.grp[g].standIn = true ∧
      calNear (o, k) ((s.port p).met.mods[i].off, (s.port p).met.mods[i].gain) = true) ∧
    (let s : State := wGrp fun g => { g with beside := true, standIn := true }; let g : Group := 0; let o : Int := 10000000;
      let k : Int := 0;
      let p : Port := slotPort 0 (wGrp fun g => { g with beside := true, standIn := true }).mtr.grp[(0:Fin 6)].slot;
      let i : Fin 3 := slotMod (wGrp fun g => { g with beside := true, standIn := true }).mtr.grp[(0:Fin 6)].slot;
      s.calRuns g = true ∧ p = slotPort g s.mtr.grp[g].slot ∧ i = slotMod s.mtr.grp[g].slot ∧ s.mtr.grp[g].standIn = true ∧
      calNear (o, k) ((s.port p).met.mods[i].off, (s.port p).met.mods[i].gain) = false ∧ (s.port p).met.mods[i].rej = none) ∧
    (let s : State := wPref; let uv : Nat := 2500000; s.calRuns (prefGroup .w0) = true ∧ s.alm.cfg.pref = true ∧
      s.mtr.grp[prefGroup .w0].beside = true ∧ s.mtr.grp[prefGroup .w0].slot = 24 ∧ s.mtr.grp[prefGroup .w0].cycles % 10 = 9 ∧
      2487500 ≤ uv ∧ uv ≤ 2512500 ∧ s.mtr.pref0.bad = false ∧ s.mtr.pref0.first = false) ∧
    (let s : State := { wGrp (fun y => { y with standIn := true }) (fun x => { x with met := { x.met with mods := x.met.mods.map fun z => { z with rej := some (3, 4) } } }) with clk := tRun.clk };
      let g : Group := 0; let o : Int := 10000000; let k : Int := 0; let p : Port := 0; let i : Fin 3 := 0;
      let r : Int × Int := (3, 4); s.calRuns g = true ∧ p = slotPort g s.mtr.grp[g].slot ∧ i = slotMod s.mtr.grp[g].slot ∧
      s.mtr.grp[g].standIn = true ∧ calNear (o, k) ((s.port p).met.mods[i].off, (s.port p).met.mods[i].gain) = false ∧
      (s.port p).met.mods[i].rej = some r ∧ calNear (o, k) r = false) := by
  refine ⟨?_, ?_, ?_, ?_, ?_, ?_, ?_⟩ <;> decide +kernel

theorem wit_Tallies :
    (let s : State := wTal fun m => { m with job := some (wJob 8) }; let j : TallyJob := wJob 8; s.running = true ∧
      0 < s.alm.cfg.interval ∧ s.alm.cfg.tallyEn = true ∧ s.mtr.reqs = [] ∧ s.mtr.job = some j ∧ j.pages = 8) ∧
    (let s : State := wTal fun m => { m with reqs := [.interval] }; let k : TallyKind := .interval; s.writerFree = true ∧
      urgent s.mtr.reqs = some k ∧ s.holdOk = true ∧ s.mtr.recheck = false) ∧
    (let s : State := wTal fun m => { m with reqs := [.interval], recheck := true }; let k : TallyKind := .interval;
      s.writerFree = true ∧ urgent s.mtr.reqs = some k ∧ s.holdOk = true ∧ s.mtr.recheck = true) ∧
    (let s : State := wTal (fun m => { m with reqs := [.interval], holdMv := [1] }) false; let k : TallyKind := .interval;
      s.writerFree = true ∧ urgent s.mtr.reqs = some k ∧ s.holdOk = false ∧ s.mtr.recheck = false) ∧
    (let s : State := wTal fun m => { m with job := some (wJob 3) }; let j : TallyJob := wJob 3; s.mtr.job = some j ∧
      j.snap = true ∧ j.pages < 8) ∧
    (let s : State := wTal fun m => { m with erase := some 2 }; let b : Nat := 2; s.mtr.erase = some b ∧
      s.mtr.suspended = false) ∧
    (let s : State := wTal; let p : Port := 7; let w : Word := 0xC1000007#32; slice w 24 8 = 0xC1 ∧ slice w 0 6 = p.val ∧
      s.served = true ∧ s.twi.commits = [] ∧ s.alm.cfg.tallyEn = true ∧ s.mtr.reqs = []) := by
  refine ⟨?_, ?_, ?_, ?_, ?_, ?_, ?_⟩ <;> decide +kernel

theorem wit_InputSupervisor :
    (let s : State := wSup fun s => { s with wrn := true }; let v : Nat := 0; v < s.sup.cfg.vWrn ∧ v < s.sup.cfg.vbMin ∧
      v ≤ s.sup.cfg.vRtn ∧ s.sup.bow = false ∧ s.sup.st = .normal ∧ s.sup.hoReq = false ∧ s.sup.cfg.fitted = true ∧
      s.sup.rsvLow = false ∧ v < s.sup.cfg.vHo) ∧
    (let s : State := wSup fun s => { s with wrn := true }; let v : Nat := 5000; s.sup.wrn = true ∧ s.sup.st = .normal ∧
      s.sup.cfg.vWrn + s.sup.cfg.vWrnHys < v ∧ s.sup.cfg.vbMin + 100 < v ∧ s.sup.cfg.vHo < v ∧ s.sup.dipSent = false ∧
      s.sup.cfg.alert = true ∧ s.heard = true ∧ s.running = true) ∧
    (let s : State := wSup fun s => { s with st := .reserve }; let v : Nat := 5000; s.sup.st = .reserve ∧ s.sup.qual = none ∧
      s.sup.rsvLow = false ∧ s.sup.cfg.vRtn < v) ∧
    (let s : State := wSup fun s => { s with rsvLow := true }; let v : Nat := 3000; s.sup.st = .normal ∧ s.sup.hoReq = false ∧
      (s.sup.cfg.fitted = false ∨ s.sup.rsvLow = true) ∧ v < s.sup.cfg.vHo) ∧
    (let s : State := wSup fun s => { s with st := .hoRun, ga := true }; s.sup.st = .hoRun ∧ s.sup.ga = true) ∧
    (let s : State := wSup fun s => { s with st := .hoRun, ga := false }; s.sup.st = .hoRun ∧ s.sup.ga = false ∧
      s.sup.rsvLow = false) ∧
    (let s : State := wSup fun s => { s with st := .reserve, qual := some 0 }; s.sup.st = .reserve ∧ s.sup.qual ≠ none) ∧
    (let s : State := wSup fun s => { s with st := .reserve, rsvLow := true }; let v : Nat := 5000; s.sup.st = .reserve ∧
      s.sup.rsvLow = true ∧ s.sup.cfg.vHo < v) ∧
    (let s : State := wSup fun s => { s with st := .rtnRun, gb := true }; s.sup.st = .rtnRun ∧ s.sup.gb = true) ∧
    (let s : State := wSup fun s => { s with st := .rtnRun, gb := false }; s.sup.st = .rtnRun ∧ s.sup.gb = false ∧
      s.sup.hoReq = false) ∧
    (let s : State := wRep [true] false; let l : List Bool := []; s.running = true ∧ s.heard = true ∧
      s.sup.reports = true :: l ∧ s.cis.reserve = false) ∧
    (let s : State := wRep [false] true; let l : List Bool := []; s.running = true ∧ s.heard = true ∧
      s.sup.reports = false :: l ∧ s.cis.reserve = true) := by
  refine ⟨?_, ?_, ?_, ?_, ?_, ?_, ?_, ?_, ?_, ?_, ?_, ?_⟩ <;> decide +kernel

theorem wit_LinkPorts :
    (let s : State := wUp fun l => { l with w := { l.w with txq := [.refuse 1#16, .refuse 2#16], att := 1 } };
      let d : LinkSide := .west; let k : LinkHdr := wK; s.linkRuns = true ∧ (s.side (LinkSide.isEast d)).isLinked = true ∧
      s.frameOn d k ∧ (s.side (LinkSide.isEast d)).st ≠ .isolated ∧ (s.side (LinkSide.isEast d)).st ≠ .asleep ∧ s.served = true ∧
      s.dev.unlock = true ∧ s.twi.commits = [] ∧ s.inUse (LinkSide.isEast d) = true ∧ (s.side (LinkSide.isEast d)).st = .up) ∧
    (let s : State := wUp fun l => { l with w := { l.w with txq := [.refuse 1#16, .refuse 2#16], att := 1 } };
      let d : LinkSide := .west; let f : LinkFrame := .refuse 1#16; let q : List LinkFrame := [.refuse 2#16]; s.linkRuns = true ∧
      (s.side (LinkSide.isEast d)).txq = f :: q ∧ 0 < (s.side (LinkSide.isEast d)).att ∧
      (match f with | .sleep _ => false | _ => true) = true ∧ (s.side (LinkSide.isEast d)).att < 4) ∧
    (let s : State := wL fun l => { l with w := lp .seek l.w }; let d : LinkSide := .west; let f : Hello := wHel true;
      let v : Nat := 2; s.linkRuns = true ∧ (s.side (LinkSide.isEast d)).st = .seek ∧ f.sideEast ≠ LinkSide.isEast d ∧
      (s.side (LinkSide.isEast d)).partner = none ∧ commonVer s.alm.cfg.protoMax f = some v) ∧
    (let s : State := wL fun l => { l with w := lp .seek l.w }; let d : LinkSide := .west; let f : Hello := wHel true 5;
      s.linkRuns = true ∧ (s.side (LinkSide.isEast d)).st = .seek ∧ f.sideEast ≠ LinkSide.isEast d ∧
      (s.side (LinkSide.isEast d)).partner = none ∧ commonVer s.alm.cfg.protoMax f = none) ∧
    (let s : State := wL fun l => { l with w := lp .seek l.w }; let d : LinkSide := .west; let f : Hello := wHel false;
      s.linkRuns = true ∧ (s.side (LinkSide.isEast d)).st = .seek ∧ f.sideEast = LinkSide.isEast d) ∧
    (let s : State := wUp fun l => { l with e := { l.e with txq := [.refuse 1#16, .refuse 2#16], att := 4 } };
      let d : LinkSide := .east; let f : LinkFrame := .refuse 1#16; let q : List LinkFrame := [.refuse 2#16]; s.linkRuns = true ∧
      (s.side (LinkSide.isEast d)).txq = f :: q ∧ 0 < (s.side (LinkSide.isEast d)).att ∧
      (match f with | .sleep _ => false | _ => true) = true ∧ 4 ≤ (s.side (LinkSide.isEast d)).att ∧
      ((match f with | .audit _ => false | _ => true) = true ∨ (s.side (LinkSide.isEast d)).tokAgain = true)) ∧
    (let s : State := wUp fun l => { l with w := { l.w with rxSeq := some 3#4 } }; let d : LinkSide := .west;
      let k : LinkHdr := wK; s.linkRuns = true ∧ (s.side (LinkSide.isEast d)).isLinked = true ∧
      (s.side (LinkSide.isEast d)).rxSeq = some k.seq) ∧
    (let s : State := wUp fun l => { l with w := { l.w with burst := true, txq := [.refuse 1#16] } }; let d : LinkSide := .west;
      let f : LinkFrame := .refuse 1#16; s.linkRuns = true ∧ (s.side (LinkSide.isEast d)).burst = true ∧
      (s.side (LinkSide.isEast d)).txq = [f]) ∧
    (let s : State := wUp fun l => { l with w := { l.w with st := .asleep, partnerSleep := some 5, partner := some (7#48, 9#32) } };
      let d : LinkSide := .west; let f : Hello := wHel true; let v : Nat := 2; s.linkRuns = true ∧
      (s.side (LinkSide.isEast d)).st = .asleep ∧ (s.side (LinkSide.isEast d)).closed = false ∧
      (s.side (LinkSide.isEast d)).partner = some (f.uid, f.tag) ∧ f.sideEast ≠ LinkSide.isEast d ∧
      commonVer s.alm.cfg.protoMax f = some v) ∧
    (let s : State := wUp fun l => { l with e := { l.e with txq := [LinkFrame.audit (wTok false)], att := 4 } };
      let d : LinkSide := .east; let f : LinkFrame := LinkFrame.audit (wTok false); let q : List LinkFrame := [];
      s.linkRuns = true ∧ (s.side (LinkSide.isEast d)).txq = f :: q ∧ 0 < (s.side (LinkSide.isEast d)).att ∧
      (match f with | .sleep _ => false | _ => true) = true ∧ 4 ≤ (s.side (LinkSide.isEast d)).att ∧
      (match f with | .audit _ => true | _ => false) = true ∧ (s.side (LinkSide.isEast d)).tokAgain = false) := by
  refine ⟨?_, ?_, ?_, ?_, ?_, ?_, ?_, ?_, ?_, ?_⟩ <;> decide +kernel

theorem wit_LoansMade :
    (let s : State := wUp id fun c => { c with reqW := some (wRq false) }; let d : LinkSide := .west; let k : LinkHdr := wK;
      let i : Fin 32 := 0; let r : LoanReq := wRq false; let reqId : BitVec 16 := 5#16; let amount : Nat := 100; s.loanOn d k ∧
      s.freeLoan = some i ∧ s.cis.reserve = false ∧ 0 < amount ∧ amount ≤ s.spare ∧ s.openReq (LinkSide.isEast d) = some r ∧
      r.reqId = reqId ∧ r.up = none ∧ r.amount ≤ r.got + amount ∧ s.cis.short = 0 ∧
      (∀ x ∈ s.cis.relays, x.east ≠ LinkSide.isEast d)) ∧
    (let s : State := wUp id fun c => { c with reqE := some (wRq true) }; let d : LinkSide := .east; let k : LinkHdr := wK;
      let r : LoanReq := wRq true; let reqId : BitVec 16 := 5#16; s.openReq (LinkSide.isEast d) = some r ∧ r.up = none ∧
      r.second = true ∧ r.got = 0 ∧ r.any = false ∧ s.cis.short = 0 ∧ s.cis.rest = none ∧
      (∀ x ∈ s.cis.relays, x.east ≠ LinkSide.isEast d) ∧ s.loanOn d k ∧ r.reqId = reqId ∧ s.linkRuns = true) ∧
    (let s : State := wUp id fun c => { c with reserve := true }; let d : LinkSide := .west; let k : LinkHdr := wK;
      s.loanOn d k ∧ s.cis.reserve = true) ∧
    (let s : State := { wUp with alm := { wUp.alm with cfg := { wUp.alm.cfg with hops := 4 } } }; let d : LinkSide := .west;
      let k : LinkHdr := wK; let i : Fin 32 := 0; let amount : Nat := 2000; let hops : Nat := 1; s.loanOn d k ∧
      s.freeLoan = some i ∧ s.cis.reserve = false ∧ s.spare < amount ∧ hops < s.alm.cfg.hops ∧
      s.sideUp (!LinkSide.isEast d) = true) := by
  refine ⟨?_, ?_, ?_, ?_⟩ <;> decide +kernel

theorem wit_LoansRenewedAndEnded :
    (let s : State := wLn fun l => { l with lent := false }; let d : LinkSide := .west; let k : LinkHdr := wK;
      let i : Fin 32 := 4; let loanId : BitVec 16 := 8#16; let amount : Nat := 60; let kept : Nat := 0; (s.loan i).relay = false ∧
      s.linkRuns = true ∧ s.carries (s.loan i).east = true ∧ (s.loan i).valid = true ∧ (s.loan i).lent = false ∧
      (s.loan i).kept = 0 ∧ s.loanOn d k ∧ s.findLoan false (LinkSide.isEast d) loanId = some i ∧
      kept = min (min amount (s.loan i).amount) (s.needOf (s.loan i).amount) ∧ (s.loan i).renewed = false ∧ (s.loan i).led = 0) ∧
    (let s : State := { (wLn fun l => { l with lent := true }) with alm := { (wLn id).alm with cfg := { (wLn id).alm.cfg with home := 60 } } };
      let d : LinkSide := .west; let k : LinkHdr := wK; let i : Fin 32 := 4; let loanId : BitVec 16 := 8#16;
      let amount : Nat := 60; (s.loan i).relay = false ∧ s.loanOn d k ∧ s.findLoan true (LinkSide.isEast d) loanId = some i ∧
      (s.loan i).amount ≤ amount ∧ s.linkRuns = true ∧ (s.loan i).valid = true ∧ (s.loan i).lent = true ∧ (s.loan i).kept = 0) ∧
    (let s : State := wLn fun l => { l with lent := true, renewed := true }; let d : LinkSide := .west; let k : LinkHdr := wK;
      let i : Fin 32 := 4; let loanId : BitVec 16 := 8#16; (s.loan i).relay = false ∧ s.loanOn d k ∧
      s.findLoan true (LinkSide.isEast d) loanId = some i ∧ (s.loan i).renewed = true) ∧
    (let s : State := { (wLn fun l => { l with lent := true }) with alm := { (wLn id).alm with cfg := { (wLn id).alm.cfg with home := 60 } } };
      let i : Fin 32 := 4; let amount : Nat := 60; (s.loan i).relay = false ∧ s.linkRuns = true ∧ (s.loan i).valid = true ∧
      (s.loan i).lent = true ∧ s.cis.reserve = false ∧ s.carries (s.loan i).east = true ∧ 0 ≤ s.free ∧
      ((s.loan i).amount : Int) + s.free - s.alm.cfg.lendKeep - s.waitingShort = amount ∧ 0 < amount ∧
      amount ≤ (s.loan i).amount) ∧
    (let s : State := wLn (fun l => { l with lent := true, relay := true, linked := 5, east := false }) fun c => { c with loans := c.loans.set 5 { c.loans[5] with valid := true, lent := false, amount := 60, east := true, id := 9#16, ends := 5000, next := 6000 } };
      let i : Fin 32 := 4; let j : Fin 32 := 5; s.linkRuns = true ∧ i ≠ j ∧ (s.loan i).valid = true ∧ (s.loan i).lent = true ∧
      (s.loan i).relay = true ∧ (s.loan i).linked = j.val ∧ (s.loan i).kept = 0 ∧ (s.loan j).valid = true ∧
      (s.loan j).lent = false ∧ (s.loan j).amount = (s.loan i).amount ∧ s.carries (s.loan j).east = true) := by
  refine ⟨?_, ?_, ?_, ?_, ?_⟩ <;> decide +kernel

theorem wit_EnumerationAndAudits :
    (let s : State := wUp fun l => { l with auditOut := true, slotUs := some 0 }; let k : LinkHdr := wK;
      let t0 : AuditTok := wTok false; s.frameOn .west k ∧ s.linkRuns = true ∧ s.lnk.w.isLinked = true ∧ s.lnk.west = false ∧
      s.lnk.e.st = .up ∧ s.lnk.overId = false ∧ t0.returnLeg = false ∧ s.lnk.e.isLinked = true ∧ s.lnk.auditOut = true ∧
      s.lnk.slotUs ≠ none ∧ s.lnk.w.reached = true ∧ s.lnk.e.reached = true) ∧
    (let s : State := wUp; let k : LinkHdr := wK; let n : BitVec 16 := 5#16; let nodes : BitVec 16 := 7#16; s.frameOn .west k ∧
      n.toNat < 16384 ∧ s.lnk.e.st = .up ∧ s.frameOn .east k ∧ nodes ≠ 0#16 ∧ s.lnk.west = false ∧ s.lnk.overId = false ∧
      s.lnk.w.isLinked = true) ∧
    (let s : State := wUp fun l => { l with auditOn := true, west := true }; s.linkRuns = true ∧ s.lnk.auditOn = true ∧
      s.lnk.west = true ∧ s.lnk.e.isLinked = true ∧ s.lnk.auditOut = false ∧ s.lnk.overId = false ∧ 0 < s.alm.cfg.audit) ∧
    (let s : State := wUp; let k : LinkHdr := wK; let n : BitVec 16 := 16384#16; s.frameOn .west k ∧ 16384 ≤ n.toNat) ∧
    (Config.uid + 1#48 ≠ Config.uid) := by
  refine ⟨?_, ?_, ?_, ?_, by bv_omega⟩ <;> decide +kernel

theorem wit_DeviceResets :
    (let s : State := tRun; let w : MainSupply := .vddC; let c : Instr := Instr.supplyBelowThreshold .vddC; let n : Nat := 1;
      (c = .supplyBelowThreshold w ∧ n = 1 ∨ c = .rstNLow ∧ n = 2 ∨ c = .pllLockLost ∧ n = 5 ∧ s.clk.pllS = true ∧
      s.clk.pllH = true ∧ s.clocked = true ∨ c = .stopPhaseEnd ∧ (n = 3 ∧ s.dev.stop = some .soft ∨ n = 4 ∧
      s.dev.stop = some .reload))) ∧
    (let s : State := wUl; let w : Word := 0xD5#32; s.served = true ∧ s.dev.stop = none ∧ s.twi.commits = [] ∧
      s.dev.unlock = true ∧ slice w 0 8 = 0xD5) ∧
    (let s : State := wUl; let w : Word := 0xA7#32; s.served = true ∧ s.dev.stop = none ∧ s.twi.commits = [] ∧
      s.dev.unlock = true ∧ slice w 0 8 = 0xA7 ∧ w.getLsbD 31 = false) ∧
    (let s : State := tSrc; let w : Word := 0xD5#32; s.served = true ∧ s.dev.stop = none ∧ s.twi.commits = [] ∧
      s.dev.unlock = false ∧ slice w 0 8 ≠ 0) := by
  refine ⟨?_, ?_, ?_, ?_⟩ <;> decide +kernel

theorem wit_StartUp :
    (let s : State := { (wPh .restore) with alm := { tRun.alm with cfg := { tRun.alm.cfg with tallyEn := true, size := 2 } } };
      let l : List TallySlot := [⟨0, tMag⟩]; let n : Nat := 0; s.dev.phase = .restore ∧ s.alm.cfg.tallyEn = true ∧
      newestSlot l s.alm.cfg.size = some n) ∧
    (let s : State := State.reset; s.dev.phase = .reset) ∧
    (let s : State := { wD (fun d => { d with trained := false }) with dev := { tRun.dev with phase := .links } };
      let d : WDie := .w0; s.dev.phase = .links ∧ (s.d2 d).trained = false ∧ (s.d2 d).d2df = false) ∧
    (let s : State := wPh .clock; s.dev.phase = .clock) ∧
    (let s : State := wPh .pll; s.dev.phase = .pll ∧ s.twi.commits = [] ∧ s.twi.stretched.length ≤ 1) ∧
    (let s : State := wPh .read; s.dev.phase = .read) ∧
    (let s : State := wPh .apply fun s => { s with alm := { s.alm with chosen := some wImg } }; let m : Image := wImg;
      s.dev.phase = .apply ∧ s.alm.chosen = some m) ∧
    (let s : State := wPh .restore fun s => { s with alm := { s.alm with cfg := { s.alm.cfg with tallyEn := false } } };
      s.dev.phase = .restore ∧ s.alm.cfg.tallyEn = false) ∧
    (let s : State := wPh .cal fun s => { s with mtr := { s.mtr with calibrated := false } }; s.dev.phase = .cal ∧
      s.mtr.calibrated = false ∧ s.alm.cfg.pref = false) ∧
    (let s : State := wPh .cal fun s => { s with mtr := { s.mtr with calibrated := true } }; s.dev.phase = .cal ∧
      s.mtr.calibrated = true ∧ (∀ q, s.dieCut q = false) ∧ (∀ q, s.factor q ≠ 0)) := by
  refine ⟨?_, ?_, ?_, ?_, ?_, ?_, ?_, ?_, ?_, ?_⟩ <;> decide +kernel

theorem wit_ClocksDiesAndRest :
    (let s : State := { wRest with lnk := { wRest.lnk with e := { (lp .up wRest.lnk.e) with txq := [LinkFrame.sleep 5], att := 4 } } };
      let d : WDie := .w0; let e : LinkSide := .east; let m : Nat := 5; s.clocked = true ∧ s.clk.xrefOk = true ∧
      (s.d2 d).trained = true ∧ (s.d2 d).d2df = false ∧ s.served = true ∧ (s.side (LinkSide.isEast e)).txq = [.sleep m] ∧
      0 < (s.side (LinkSide.isEast e)).att ∧ (s.onSide (LinkSide.isEast e) fun l => { l with txq := [] }).mayRest = true ∧
      4 ≤ (s.side (LinkSide.isEast e)).att) ∧
    (let s : State := wD id fun c => { c with suo := true, xrefOk := false }; s.clocked = true ∧ s.clk.suo = true) ∧
    (let s : State := wD fun d => { d with d2df := true }; let d : WDie := .w0; (s.d2 d).d2df = true ∧ s.cisOn = true) ∧
    (let s : State := wRest; s.mayRest = true ∧ s.lnk.w.isLinked = false ∧ s.lnk.e.isLinked = false) ∧
    (let s : State := wPh .rest; let src : WakeSource := .twm; s.dev.phase = .rest ∧ s.canWake src = true) ∧
    (let s : State := wPh .wakePll; s.dev.phase = .wakePll ∧ s.twi.commits = [] ∧ s.twi.stretched.length ≤ 1) ∧
    (let s : State := wPh .wakeLinks; s.dev.phase = .wakeLinks) ∧
    (let s : State := wPh .wakeCal; s.dev.phase = .wakeCal) ∧
    (let s : State := wPh .rest; let src : WakeSource := .twb; s.dev.phase = .rest ∧ s.canWake src = false) ∧
    (let s : State := { wRest with lnk := { wRest.lnk with e := lp .up wRest.lnk.e } }; let e : LinkSide := .east;
      s.mayRest = true ∧ (s.side (LinkSide.isEast e)).isLinked = true) := by
  refine ⟨?_, ?_, ?_, ?_, ?_, ?_, ?_, ?_, ?_, ?_⟩ <;> decide +kernel

theorem wit_PortResetAndEnable :
    (let s : State := wUl (fun x => { x with cnt := { x.cnt with busy := true } }) .disabled; let p : Port := 0;
      s.twi.commits = [] ∧ s.served = true ∧ (s.port p).cnt.busy = true ∧ s.dev.unlock = true ∧ (s.port p).cnt.limpWait = false ∧
      (s.port p).slc.open' = false ∧ (s.portsOn = true ∨ s.canEnable p = false) ∧ s.portsOn = true ∧ (s.port p).tc.admEn = true) ∧
    (let s : State := wUl (fun x => { x with tc := { x.tc with admEn := false }, cfg := { x.cfg with enabled := true } }) .disabled;
      let p : Port := 0; s.twi.commits = [] ∧ s.served = true ∧ s.dev.unlock = true ∧ s.lost p = false ∧
      (s.port p).cnt.busy = false ∧ (s.port p).tc.st ≠ .fault ∧ ((s.port p).cnt.limp = false ∨ (s.port p).stg.den = false)) ∧
    (let s : State := wUl (fun x => { x with tc := { x.tc with admEn := false }, cfg := { x.cfg with enabled := true } }) .disabled;
      let p : Port := 0; s.twi.commits = [] ∧ s.portsOn = true ∧ s.dev.unlock = true ∧ (s.port p).tc.admEn = false ∧
      (s.port p).tc.st = .disabled ∧ (s.port p).cfg.enabled = true ∧ s.lost p = false ∧ (s.d2 (dieOf p)).ucode = false ∧
      (s.port p).cnt.any = false ∧ (s.port p).cnt.busy = false) ∧
    (let s : State := wUl fun x => { x with cnt := { x.cnt with limp := true }, stg := { x.stg with den := true } };
      let p : Port := 0; s.twi.commits = [] ∧ s.served = true ∧ s.dev.unlock = true ∧ s.lost p = false ∧
      (s.port p).cnt.busy = false ∧ (s.port p).cnt.limp = true ∧ (s.port p).stg.den = true) ∧
    (let s : State := { wUl (fun x => { x with cfg := { x.cfg with enabled := true }, cnt := { x.cnt with busy := true } }) .disabled with dev := { tRun.dev with phase := .cal } };
      let p : Port := 0; s.twi.commits = [] ∧ s.served = true ∧ (s.port p).cnt.busy = true ∧ (s.port p).cnt.limpWait = false ∧
      (s.port p).slc.open' = false ∧ s.portsOn = false ∧ s.canEnable p = true) ∧
    (let s : State := wUl (fun x => { x with cnt := { x.cnt with fetg := true }, slc := { x.slc with st := .fault } }) .fault;
      let p : Port := 0; s.twi.commits = [] ∧ s.served = true ∧ s.dev.unlock = true ∧ s.lost p = false ∧
      (s.port p).cnt.busy = false ∧ (s.port p).tc.st = .fault ∧ (s.port p).cnt.since = [] ∧
      ((s.port p).cnt.limp = false ∨ (s.port p).stg.den = false)) := by
  refine ⟨?_, ?_, ?_, ?_, ?_, ?_⟩ <;> decide +kernel

theorem wit_TwmTransactions :
    (let s : State := { tRun with twi := { tRun.twi with index := 0x12#16 } }; let i : Index := 0x12#16;
      let b : List Byte := wB; let c : Byte := 0; let q : Byte := 0;
      let w : Word := tRun.regRead .twm ((0x12#16 : BitVec 16)).toNat;
      let v : Word := (tRun.afterRead .twm ((0x12#16 : BitVec 16)).toNat).regRead .twm ((((0x12#16 : BitVec 16)).toNat + 1) % 65536);
      s.served = true ∧ s.twi.commits = [] ∧ b.length ≤ 64 ∧ b.length % 4 = 0 ∧ s.pecNeeded .twm = false ∧
      q ≠ pec (addrByte s.twmAddr false :: i.extractLsb' 8 8 :: i.extractLsb' 0 8 :: b) ∧ w = s.regRead .twm i.toNat ∧
      v = (s.afterRead .twm i.toNat).regRead .twm ((i.toNat + 1) % 65536) ∧ s.twi.index = i ∧ (c = 0#8 ∨ 32 < c.toNat)) ∧
    (let s : State := tRun; let i : Index := 0x12#16; let b : List Byte := wB; let c : Byte := 1#8; let q : Byte := wPec;
      let w : Word := tRun.regRead .twm ((0x12#16 : BitVec 16)).toNat; s.served = true ∧ s.twi.commits = [] ∧ b.length ≤ 64 ∧
      b.length % 4 = 0 ∧ q = pec (addrByte s.twmAddr false :: i.extractLsb' 8 8 :: i.extractLsb' 0 8 :: b) ∧
      w = s.regRead .twm i.toNat ∧ c = 1#8) ∧
    (let s : State := tRun; let b : List Byte := [1#8,2#8]; s.served = true ∧ s.twi.commits = [] ∧ b.length ≤ 64 ∧
      2 ≤ b.length % 4) ∧
    (let s : State := wPh .clock; (s.dev.phase = .clock ∨ s.dev.phase = .pll ∨ s.dev.phase = .wakePll)) ∧
    (let s : State := wPh .rest; s.dev.phase = .rest) ∧
    (let s : State := wPh .reset; s.dev.phase = .reset) ∧
    (let s : State := { tSrc with alm := { tSrc.alm with cfg := { tSrc.alm.cfg with timing := tSrc.alm.cfg.timing.map fun t => { t with pec := true } } } };
      let b : List Byte := wB; s.served = true ∧ s.twi.commits = [] ∧ b.length ≤ 64 ∧ b.length % 4 = 0 ∧ b ≠ [] ∧
      s.pecNeeded .twm = true) := by
  refine ⟨?_, ?_, ?_, ?_, ?_, ?_, ?_⟩ <;> decide +kernel

theorem wit_MeteringTargets :
    (let s : State := wAux; let a : AuxTarget := .twa; let adr : BitVec 7 := 0x22#7; let p : Port := 2; let o : Byte := 4#8;
      let c : Byte := 1#8; let b : List Byte := wB; let w : Word := wAux.regRead (AuxTarget.target .twa) (0x10A0 + 0x100 * 2 + 4);
      s.auxPort a adr = some p ∧ o.toNat < 32 ∧ w = s.regRead (AuxTarget.target a) (0x10A0 + 0x100 * p.val + o.toNat) ∧
      s.pecNeeded (AuxTarget.target a) = false ∧ c = 1#8 ∧ b ≠ [] ∧ s.served = true) ∧
    (let s : State := { wAux with twi := { wAux.twi with offsets := wAux.twi.offsets.set 2 4 } }; let a : AuxTarget := .twa;
      let adr : BitVec 7 := 0x22#7; let p : Port := 2; let o : Byte := 4#8;
      let w : Word := wAux.regRead (AuxTarget.target .twa) (0x10A0 + 0x100 * 2 + 4); s.auxPort a adr = some p ∧ o.toNat < 32 ∧
      w = s.regRead (AuxTarget.target a) (0x10A0 + 0x100 * p.val + o.toNat) ∧ s.pecNeeded (AuxTarget.target a) = false ∧
      s.twi.offsets[p] = o.toNat) ∧
    (let s : State := tRun; let a : AuxTarget := .twa; let adr : BitVec 7 := 0x22#7; s.auxPort a adr = none ∧
      s.dev.phase ≠ .rest) ∧
    (let s : State := { wAux with dev := { wAux.dev with phase := .rest } }; let adr : BitVec 7 := 0x22#7; s.dev.phase = .rest ∧
      s.alm.cfg.auxEn.testBit 0 = true ∧ s.alm.cfg.baseA ≤ adr.toNat ∧ adr.toNat < s.alm.cfg.baseA + 16) := by
  refine ⟨?_, ?_, ?_, ?_⟩ <;> decide +kernel

theorem wit_RegisterWrites :
    (let s : State := tSrc; s.served = true ∧ s.twi.commits = []) ∧
    (let s : State := { tSrc with twi := { tSrc.twi with commits := [(0x000#16, 5#32), (0x001#16, 6#32)] } };
      let i : Index := 0x000#16; let j : Index := 0x001#16; let w : Word := 5#32; let v : Word := 6#32;
      let l : List (Index × Word) := [(0x001#16, 6#32)]; s.served = true ∧ s.twi.commits = (i, w) :: l ∧ i = 0x000#16 ∧
      (j, v) ≠ (i, w)) := by
  refine ⟨?_, ?_⟩ <;> decide +kernel

theorem wit_Unlock :
    (let s : State := { tRun with dev := { tRun.dev with keyPend := true } }; let k : BitVec 16 := 7#16; s.served = true ∧
      s.twi.commits = [] ∧ k ≠ 0x00A5#16 ∧ k ≠ 0x005A#16 ∧ s.dev.unlock = false ∧ s.clk.pllS = true ∧ s.clk.pllH = true ∧
      s.clocked = true) ∧
    (let s : State := { tRun with dev := { tRun.dev with stop := some .soft } }; s.dev.stop ≠ none) := by
  refine ⟨?_, ?_⟩ <;> decide +kernel

theorem wit_SclTimeout :
    (let s : State := tRun; let k : Target := .twm; let j : Fin 20 := 3; s.clocked = true ∧ j.val = 5 * (Target.idx k).val + 3) := by
  decide +kernel

theorem wit_DeviceIdentity :
    (let s : State := tRun; s.dev.code = .e) ∧
    (let s : State := { tRun with dev := { tRun.dev with code := .c } }; s.dev.code = .c) := by
  refine ⟨?_, ?_⟩ <;> decide +kernel

theorem wit_StepRunsFront :
    (let s : State := tRun; s.pending = [] ∧ s.twi.commits = []) ∧
    (let s : State := { tRun with pending := [.x32CrystalFail] }; let c : Instr := .x32CrystalFail; let l : List Instr := [];
      s.pending = c :: l) := by
  refine ⟨?_, ?_⟩ <;> decide +kernel

theorem wit_MemoryFrame :
    (mayStore .vauxLow = false ∧ storesLate tRun .vauxLow = false ∧ onPump (.add 0) = some 0 ∧
      (wPy (iTwo .add)).pump 0 = some wRun ∧ wRun.stLn.length = 256) ∧
    (∃ t, exec .vauxLow tRun = .next t) ∧ (∃ t, exec (.add 0) (wPy (iTwo .add)) = .next t) ∧
    ∃ t, exec (.portReset 0) tRun = .next t := by
  refine ⟨by decide +kernel, ⟨_, rfl⟩, ⟨_, rfl⟩, ⟨_, rfl⟩⟩

/-- The invariants of the tier 3 statements hold in the state after reset and in a running state, which differ. -/
theorem wit_invariants :
    State.reset.memOk = true ∧ State.reset.safe = true ∧ State.reset.sup.gatesRight = true ∧
    tRun.memOk = true ∧ tRun.safe = true ∧ tRun.sup.gatesRight = true ∧ tRun ≠ State.reset := by
  refine ⟨?_, ?_, ?_, ?_, ?_, ?_, ?_⟩ <;> decide +kernel

theorem wit_StartUpChoice :
    (headerCode tFlash 0x100000 (tImg 5 true) = 0 ∧ headerCode tFlash 0x200000 (tImg 5 true) = 0 ∧ fullCode (tImg 5 true) = 0 ∧
      (headerOf (tImg 5 true)).seq ≤ (headerOf (tImg 5 true)).seq) ∧
    (headerCode tFlash 0x200000 (tImg 6 true) = 0 ∧ fullCode (tImg 6 true) = 0 ∧
      (headerOf (tImg 5 true)).seq < (headerOf (tImg 6 true)).seq) ∧
    (headerCode tFlash 0x100000 (tImg 6 false) = 0 ∧ (headerOf (tImg 5 true)).seq ≤ (headerOf (tImg 6 false)).seq ∧
      fullCode (tImg 6 false) ≠ 0) ∧
    (headerCode tFlash 0x200000 (tImg 6 false) = 0 ∧ (headerOf (tImg 5 true)).seq < (headerOf (tImg 6 false)).seq) ∧
    headerCode tFlash 0x100000 [] ≠ 0 := by
  refine ⟨?_, ?_, ?_, ?_, ?_⟩ <;> decide +kernel

theorem wit_StartUpRecord :
    lastGood [⟨0, tRecord⟩, ⟨1, tMag⟩] 64 64 1 = some 0 ∧ lastGood [⟨0, tMag⟩] 64 64 0 = none := by
  refine ⟨?_, ?_⟩ <;> decide +kernel

end Sys2Proof.Tests
end

section
/-! SUPPORT. What an operation of the machine leaves of the two-wire unit: all of it, for everything that a register write can start on a
port, at the guard, in the ledger, on the commons link or in the stop phase. A register write itself, the refusal of one included, changes
events, enables and counters of that unit and never the words that wait for their registers (R383, R387). -/

namespace Sys2Proof.Machine

variable (s : State) (p : Port)

@[simp] theorem State.ite_twi (c : Prop) [Decidable c] (a b : State) : (if c then a else b).twi = if c then a.twi else b.twi :=
  apply_ite ..

/-- A fold of an operation that leaves the two-wire unit alone leaves it alone. -/
theorem foldl_twi {α : Type} {f : State → α → State} (hf : ∀ s a, (f s a).twi = s.twi) (l : List α) : (l.foldl f s).twi = s.twi := by
  induction l generalizing s with
  | nil => rfl
  | cons a l ih => exact (ih (f s a)).trans (hf s a)

/-! ## Events, counters, requests, timers and messages of a port -/

@[simp] theorem State.tcEvt_twi (i : Nat) : (s.tcEvt p i).twi = s.twi := rfl
@[simp] theorem State.tcCnt_twi (i : Fin 12) : (s.tcCnt p i).twi = s.twi := rfl
@[simp] theorem State.pdEvt_twi (i : Nat) : (s.pdEvt p i).twi = s.twi := rfl
@[simp] theorem State.pdCnt_twi (i : Fin 13) : (s.pdCnt p i).twi = s.twi := rfl
@[simp] theorem State.vdmEvt_twi (i : Nat) : (s.vdmEvt p i).twi = s.twi := rfl
@[simp] theorem State.vdmCnt_twi (i : Fin 7) : (s.vdmCnt p i).twi = s.twi := rfl
@[simp] theorem State.loopEvt_twi (i : Nat) : (s.loopEvt p i).twi = s.twi := rfl
@[simp] theorem State.loopCnt_twi (i : Fin 4) : (s.loopCnt p i).twi = s.twi := rfl
@[simp] theorem State.grdEvt_twi (i : Nat) : (s.grdEvt p i).twi = s.twi := rfl
@[simp] theorem State.post_twi (n : Nat) (o : Option Port) (c : Nat) (e : EvCode) : (s.post n o c e).twi = s.twi := rfl
@[simp] theorem State.postPort_twi (c : Nat) (e : EvCode) : (s.postPort p c e).twi = s.twi := rfl
@[simp] theorem State.note_twi (n : Nat) (o : Option Port) (c : Nat) (e : Note) : (s.note n o c e).twi = s.twi := rfl
@[simp] theorem State.noteConn_twi : (s.noteConn p).twi = s.twi := rfl
@[simp] theorem State.adminNote_twi : (s.adminNote p).twi = s.twi := rfl
@[simp] theorem State.noteFrom_twi (c : ConnState) : (s.noteFrom p c).twi = s.twi := by simp [State.noteFrom]
@[simp] theorem State.arm_twi (t : TimerId) : (s.arm p t).twi = s.twi := rfl
@[simp] theorem State.disarm_twi (t : TimerId) : (s.disarm p t).twi = s.twi := rfl
@[simp] theorem State.disarmAll_twi : (s.disarmAll p).twi = s.twi := rfl
@[simp] theorem State.yardDrop_twi : (s.yardDrop p).twi = s.twi := rfl
@[simp] theorem State.send_twi (a : Sop) (k : TxKind) (m : PdMsg) : (s.send p a k m).twi = s.twi := by simp [State.send]
@[simp] theorem State.dropMsgs_twi : (s.dropMsgs p).twi = s.twi := rfl
@[simp] theorem State.protReset_twi : (s.protReset p).twi = s.twi := rfl
@[simp] theorem State.slcCmd_twi (c : SlcCmd) : (s.slcCmd p c).twi = s.twi := rfl
@[simp] theorem State.stgCmd_twi (c : StgCmd) : (s.stgCmd p c).twi = s.twi := rfl
@[simp] theorem State.muxUpdate_twi : (s.muxUpdate p).twi = s.twi := by simp [State.muxUpdate]

/-! ## Vendor-defined messages and offers -/

@[simp] theorem State.vdmTimersOff_twi : (s.vdmTimersOff p).twi = s.twi := by simp [State.vdmTimersOff]
@[simp] theorem State.cableTimersOff_twi : (s.cableTimersOff p).twi = s.twi := by simp [State.cableTimersOff]
@[simp] theorem State.vdmInterrupt_twi : (s.vdmInterrupt p).twi = s.twi := by simp [State.vdmInterrupt]
@[simp] theorem State.vdmQuiet_twi : (s.vdmQuiet p).twi = s.twi := by simp [State.vdmQuiet]
@[simp] theorem State.endMode_twi : (s.endMode p).twi = s.twi := by simp [State.endMode]
@[simp] theorem State.offerTry_twi (n : Nat) : (s.offerTry p n).twi = s.twi := by simp [State.offerTry]
@[simp] theorem State.offer_twi : (s.offer p).twi = s.twi := by simp [State.offer]
@[simp] theorem State.offerDue_twi : (s.offerDue p).twi = s.twi := by simp [State.offerDue]
@[simp] theorem State.evaluate_twi : (s.evaluate p).twi = s.twi := by simp [State.evaluate]

/-! ## The commons link -/

@[simp] theorem State.onSide_twi (e : Bool) (f : LinkPort → LinkPort) : (s.onSide e f).twi = s.twi := by simp [State.onSide]
@[simp] theorem State.sendFrame_twi (e : Bool) (f : LinkFrame) : (s.sendFrame e f).twi = s.twi := by simp [State.sendFrame]
@[simp] theorem State.sendWest_twi (f : LinkFrame) : (s.sendWest f).twi = s.twi := by simp [State.sendWest]
@[simp] theorem State.setLink_twi (e : Bool) (l : LinkState) : (s.setLink e l).twi = s.twi := by simp [State.setLink]
@[simp] theorem State.reopen_twi : s.reopen.twi = s.twi := by simp [State.reopen]
@[simp] theorem State.takeId_twi (n : Nat) : (s.takeId n).twi = s.twi := rfl
@[simp] theorem State.chainWave_twi : s.chainWave.twi = s.twi := by simp [State.chainWave]
@[simp] theorem State.portChanged_twi (b : Bool) : (s.portChanged b).twi = s.twi := by simp [State.portChanged]
@[simp] theorem State.linkChanged_twi : s.linkChanged.twi = s.twi := by simp [State.linkChanged]
@[simp] theorem State.linkReset_twi (e : Bool) : (s.linkReset e).twi = s.twi := by simp [State.linkReset]
@[simp] theorem State.setReq_twi (e : Bool) (r : Option LoanReq) : (s.setReq e r).twi = s.twi := by simp [State.setReq]
@[simp] theorem State.askSide_twi (e : Bool) (m n : Nat) (x y : Bool) (o : Option (BitVec 16)) : (s.askSide e m n x y o).twi = s.twi := by
  simp [State.askSide]
@[simp] theorem State.seek_twi (n : Nat) : (s.seek n).twi = s.twi := by simp [State.seek]

/-! ## The sluice and the stage -/

@[simp] theorem State.slcTo_twi (f : Slc → Slc) : (s.slcTo p f).twi = s.twi := rfl
@[simp] theorem State.slcOff_twi : (s.slcOff p).twi = s.twi := by unfold State.slcOff; dsimp only; split <;> simp
@[simp] theorem State.stageHalt_twi : (s.stageHalt p).twi = s.twi := by simp [State.stageHalt]
@[simp] theorem State.abortSamples_twi : (s.abortSamples p).twi = s.twi := by simp [State.abortSamples]
@[simp] theorem State.slotClear_twi : (s.slotClear p).twi = s.twi := rfl
@[simp] theorem State.isetFirst_twi : (s.isetFirst p).twi = s.twi := by simp [State.isetFirst]
@[simp] theorem State.hostAuto_twi : (s.hostAuto p).twi = s.twi := by simp [State.hostAuto, State.startWait, State.drawIn]

/-! ## Attach and detach -/

@[simp] theorem State.vconnOn_twi : (s.vconnOn p).twi = s.twi := by simp [State.vconnOn]
@[simp] theorem State.vconnTry_twi : (s.vconnTry p).twi = s.twi := by simp [State.vconnTry]
@[simp] theorem State.limitsFor_twi (c : Option Contract) (b : Bool) : (s.limitsFor p c b).twi = s.twi := by simp [State.limitsFor]
@[simp] theorem State.limitsNow_twi : (s.limitsNow p).twi = s.twi := by simp [State.limitsNow]
@[simp] theorem State.attachSrc_twi : (s.attachSrc p).twi = s.twi := by simp [State.attachSrc]
@[simp] theorem State.attachSnk_twi : (s.attachSnk p).twi = s.twi := by simp [State.attachSnk]
@[simp] theorem State.release_twi : (s.release p).twi = s.twi := rfl
@[simp] theorem State.leave_twi (c : ConnState) : (s.leave p c).twi = s.twi := by simp [State.leave]
@[simp] theorem State.errRecov_twi : (s.errRecov p).twi = s.twi := by simp [State.errRecov]
@[simp] theorem State.toUnatt_twi : (s.toUnatt p).twi = s.twi := by simp [State.toUnatt]

/-! ## The ledger and the shed (R156, R166) -/

@[simp] theorem State.cisEvt_twi (i : Nat) : (s.cisEvt i).twi = s.twi := rfl
@[simp] theorem State.cisCnt_twi (i : Fin 6) : (s.cisCnt i).twi = s.twi := rfl
@[simp] theorem State.cisGrant_twi (n : Nat) : (s.cisGrant n).twi = s.twi := rfl
@[simp] theorem State.noteFree_twi (i : Int) : (s.noteFree i).twi = s.twi := by simp [State.noteFree]
@[simp] theorem State.shedPort_twi : (s.shedPort p).twi = s.twi := rfl
@[simp] theorem State.twinNotice_twi : (s.twinNotice p).twi = s.twi := by simp [State.twinNotice]
@[simp] theorem State.shedEnd_twi : s.shedEnd.twi = s.twi := by simp [State.shedEnd]

@[simp] theorem State.shedCuts_twi (n : Nat) : (State.shedCuts n s).twi = s.twi := by
  induction n generalizing s with
  | zero => rfl
  | succ n ih => unfold State.shedCuts; split <;> [rfl; split] <;> simp [ih]

@[simp] theorem State.shedErr_twi (n : Nat) : (State.shedErr n s).twi = s.twi := by
  induction n generalizing s with
  | zero => rfl
  | succ n ih => unfold State.shedErr; split <;> [rfl; split] <;> simp [ih]

@[simp] theorem State.shed_twi : s.shed.twi = s.twi := by simp [State.shed]

@[simp] theorem State.ledger_twi {f : State → State} (hf : ∀ s, (f s).twi = s.twi) : (s.ledger f).twi = s.twi := by
  simp [State.ledger, hf]

@[simp] theorem State.ledgerOf_twi {f : State → State} (hf : ∀ s, (f s).twi = s.twi) : (s.ledgerOf p f).twi = s.twi := by
  simp [State.ledgerOf, hf]

/-! ## Twins, the guard and the resets -/

@[simp] theorem State.tryAttach_twi : (s.tryAttach p).twi = s.twi := by
  simp [State.tryAttach, State.ledgerOf_twi _ _ fun _ => State.onPort_twi ..]
@[simp] theorem State.twinStart_twi : (s.twinStart p).twi = s.twi := by simp [State.twinStart]
@[simp] theorem State.twinRetry_twi : (s.twinRetry p).twi = s.twi := by
  unfold State.twinRetry; dsimp only; split <;> [rfl; split] <;> simp
@[simp] theorem State.twinFreed_twi : (s.twinFreed p).twi = s.twi := by simp [State.twinFreed]
@[simp] theorem State.onGrd_twi (f : GrdP → GrdP) : (s.onGrd p f).twi = s.twi := rfl
@[simp] theorem State.guardPost_twi (b : Bool) : (s.guardPost p b).twi = s.twi := rfl
@[simp] theorem State.guardOff_twi : (s.guardOff p).twi = s.twi := by unfold State.guardOff; split <;> simp
@[simp] theorem State.guardCut_twi : (s.guardCut p).twi = s.twi := by simp [State.guardCut]
@[simp] theorem State.guardFree_twi : (s.guardFree p).twi = s.twi := by simp [State.guardFree]
@[simp] theorem State.judgeZero_twi : (s.judgeZero p).twi = s.twi := by simp [State.judgeZero]
@[simp] theorem State.dieHotOn_twi : (s.dieHotOn p).twi = s.twi := by simp [State.dieHotOn]
@[simp] theorem State.enable_twi : (s.enable p).twi = s.twi := by simp [State.enable]
@[simp] theorem State.adm_twi (b : Bool) : (s.adm p b).twi = s.twi := by simp [State.adm]
@[simp] theorem State.resetRun_twi : (s.resetRun p).twi = s.twi := by simp [State.resetRun]
@[simp] theorem State.portReset_twi : (s.portReset p).twi = s.twi := by simp [State.portReset]
@[simp] theorem State.askTally_twi (k : TallyKind) : (s.askTally k).twi = s.twi := by simp [State.askTally]
@[simp] theorem State.stopPhase_twi (c : StopCause) : (s.stopPhase c).twi = s.twi := by
  simp [State.stopPhase, State.forPorts, foldl_twi]

end Sys2Proof.Machine
end

section
/-! SUPPORT. A word at its register (R383, R387): which words wait behind it, and what the write of a port's register and of a global one
comes to. -/

namespace Sys2Proof.Machine

variable (s : State) (p : Port) (w : Word)

/-! ## The waiting words stay where they are -/

section
variable (i : Nat)

/-- A write that needs the unlock leaves the waiting words to what it does; its refusal leaves them alone. -/
@[simp] theorem State.locked_commits (b : Bool) {f : State → State} (hf : ∀ s, (f s).twi.commits = s.twi.commits) :
    (s.locked b f).twi.commits = s.twi.commits := by
  unfold State.locked
  split
  · exact hf s
  · split <;> rfl

@[simp] theorem State.onD2_twi (d : WDie) (f : D2d → D2d) : (s.onD2 d f).twi = s.twi := by cases d <;> rfl

@[simp] theorem State.clearCounts_commits (b : ClearBlock) : (s.clearCounts b).twi.commits = s.twi.commits := by
  cases b <;> simp [State.clearCounts]

@[simp] theorem State.wrCclr_commits (b : ClearBlock) : (s.wrCclr b w).twi.commits = s.twi.commits := by
  unfold State.wrCclr; split <;> simp

@[simp] theorem State.wrUnlock_twi (k : BitVec 16) : (s.wrUnlock k).twi = s.twi := by simp [State.wrUnlock]
@[simp] theorem State.wrBclr_twi : (s.wrBclr w).twi = s.twi := by
  unfold State.wrBclr; split <;> [split; rfl] <;> simp
@[simp] theorem State.hwmClear_twi : s.hwmClear.twi = s.twi := rfl
@[simp] theorem State.wrDevRst_commits : (s.wrDevRst w).twi.commits = s.twi.commits := by simp [State.wrDevRst]
@[simp] theorem State.wrAlmCtl_commits : (s.wrAlmCtl w).twi.commits = s.twi.commits := by simp [State.wrAlmCtl]
@[simp] theorem State.wrLnkCtl_commits : (s.wrLnkCtl w).twi.commits = s.twi.commits := by simp [State.wrLnkCtl]
@[simp] theorem State.wrTcCtl_commits : (s.wrTcCtl p w).twi.commits = s.twi.commits := by simp [State.wrTcCtl]
@[simp] theorem State.wrLoopCtl_commits : (s.wrLoopCtl p w).twi.commits = s.twi.commits := by simp [State.wrLoopCtl]
@[simp] theorem State.wrLoopMduty_commits : (s.wrLoopMduty p w).twi.commits = s.twi.commits :=
  s.locked_commits _ fun _ => rfl
@[simp] theorem State.wrCntRst_commits : (s.wrCntRst p w).twi.commits = s.twi.commits := by simp [State.wrCntRst]
@[simp] theorem State.wrCoef_commits (k : Fin 256) : (s.wrCoef p k w).twi.commits = s.twi.commits := by simp [State.wrCoef]

@[simp] theorem State.globalCtl_commits : (s.globalCtl i w).twi.commits = s.twi.commits := by
  unfold State.globalCtl; split <;> simp

@[simp] theorem State.portCtl_commits : (s.portCtl p i w).twi.commits = s.twi.commits := by
  unfold State.portCtl; split <;> simp

@[simp] theorem State.control_commits : (s.control i w).twi.commits = s.twi.commits := by
  unfold State.control; (repeat' split) <;> simp

@[simp] theorem State.ack_commits : (s.ack i w).twi.commits = s.twi.commits := by
  unfold State.ack; split <;> [rfl; split] <;> rfl

@[simp] theorem State.enables_commits : (s.enables i w).twi.commits = s.twi.commits := by
  unfold State.enables; split <;> [rfl; split] <;> rfl

/-- Whatever register a word reaches, the words behind it go on waiting. -/
@[simp] theorem State.regWrite_commits : (s.regWrite i w).twi.commits = s.twi.commits := by simp [State.regWrite]

end

/-! ## A register of a port, word offset o -/

section
variable {o : Nat} (ho : o < 256)
include ho

/-- The index of a port's register has 16 bits (R6). -/
theorem portReg_toNat : (BitVec.ofNat 16 (portReg p o)).toNat = portReg p o := by
  have := p.isLt
  simp only [portReg, BitVec.toNat_ofNat]
  omega

/-- A port's registers lie in its window, which is its own (R6). -/
theorem portReg_window :
    (0x1000 ≤ portReg p o ∧ portReg p o < 0x4000) ∧ (portReg p o - 0x1000) / 256 = p.val ∧ portReg p o % 256 = o := by
  have := p.isLt
  simp only [portReg]
  omega

theorem State.ack_portReg : s.ack (portReg p o) w = s.onPort p fun x => x.ack o w := by
  obtain ⟨h, hp, hr⟩ := portReg_window p ho
  simp [State.ack, h, hp, hr]

theorem State.enables_portReg : s.enables (portReg p o) w = s.onPort p fun x => x.enables o w := by
  obtain ⟨h, hp, hr⟩ := portReg_window p ho
  simp [State.enables, h, hp, hr]

theorem State.control_portReg : s.control (portReg p o) w = s.portCtl p o w := by
  obtain ⟨⟨h, h'⟩, hp, hr⟩ := portReg_window p ho
  simp [State.control, Nat.not_lt.2 h, h', hp, hr]

/-- A word at a port's register acts on its W1C bits, its enables and its control fields, in this order. -/
theorem State.regWrite_portReg :
    s.regWrite (portReg p o) w = (s.onPort p fun x => (x.ack o w).enables o w).portCtl p o w := by
  simp [State.regWrite, ack_portReg, enables_portReg, control_portReg, ho]

end

/-! ## The commands of the words (R383) -/

section
variable (i : Index)

theorem exec_registerWrite : exec (.registerWrite i w) s = s.hostWrite i.toNat w fun s => s.regWrite i.toNat w := by rfl
theorem exec_eventAck : exec (.eventAck i w) s = s.hostWrite i.toNat w fun s => s.regWrite i.toNat w := by rfl
theorem exec_counterClear (b : ClearBlock) :
    exec (.counterClear b) s = s.hostWrite (ClearBlock.index b) (s.cclrWord b) fun s => s.clearCounts b := by rfl
theorem exec_hwmclr : exec .hwmclr s = s.hostWrite 0x803 0x40000000#32 State.hwmClear := by rfl

end

variable {s w} {i : Index}

/-- The first word that waits is taken out of the queue and reaches its register. -/
theorem State.hostWrite_first (hs : s.served = true) {l : List (Index × Word)} (hc : s.twi.commits = (i, w) :: l) (f : State → State) :
    s.hostWrite i.toNat w f = .next (f { s with twi.commits := l }) := by
  have h : s.inOrder i.toNat w = true := by simp [State.inOrder, hc]
  rw [State.hostWrite_spec, hs, h, hc]
  rfl

/-- A row of a word other than the first one that waits does nothing. -/
theorem State.hostWrite_waits {j : Index} {v : Word} {l : List (Index × Word)} (hc : s.twi.commits = (i, w) :: l)
    (hne : (j, v) ≠ (i, w)) (f : State → State) : s.hostWrite j.toNat v f = .next s := by
  have h : s.inOrder j.toNat v = false := by
    simp only [State.inOrder, hc, BitVec.toNat_inj, ← Bool.decide_and, decide_eq_false_iff_not]
    rintro ⟨rfl, rfl⟩
    exact hne rfl
  rw [State.hostWrite_spec, h, Bool.and_false]
  rfl

end Sys2Proof.Machine
end

section
/-! SUPPORT. The obligations on words written to registers and on DEV_ID. -/

namespace Sys2Proof.Machine

/-- The words that wait reach their registers in order (R383). -/
theorem committed_words_in_order (s : State) (i j : Index) (w v : Word) (l : List (Index × Word)) (hs : s.served = true)
    (hc : s.twi.commits = (i, w) :: l) :
    (i = 0x000#16 → exec (.registerWrite i w) s = .next { s with twi := { s.twi with commits := l } }) ∧
    (∃ t, exec (.registerWrite i w) s = .next t ∧ t.twi.commits = l) ∧
    ((j, v) ≠ (i, w) → exec (.registerWrite j v) s = .next s ∧ exec (.eventAck j v) s = .next s) := by
  have first : exec (.registerWrite i w) s = .next (State.regWrite { s with twi.commits := l } i.toNat w) :=
    (exec_registerWrite ..).trans (State.hostWrite_first hs hc _)
  refine ⟨?_, ⟨_, first, State.regWrite_commits ..⟩, fun hne => ?_⟩
  · rintro rfl
    exact first
  · rw [exec_registerWrite, exec_eventAck]
    exact ⟨State.hostWrite_waits hc hne _, State.hostWrite_waits hc hne _⟩

/-- Settles O50: each row is the write itself where no word waits, and each write is the fields of its own register; the words that wait
are taken first to last, and no register write touches the ones behind. -/
theorem registerWrites : Obligations.RegisterWrites := by
  unfold Obligations.RegisterWrites
  refine ⟨committed_words_in_order, fun s p w hs hc => ?_⟩
  simp only [exec_eventAck, exec_counterClear, exec_hwmclr, exec_registerWrite, State.hostWrite_alone hc hs,
    portReg_toNat p (show 0x01 < 256 by decide), portReg_toNat p (show 0x22 < 256 by decide)]
  refine ⟨⟨_, rfl, ?_⟩, ⟨_, rfl, rfl⟩, ⟨_, rfl, rfl⟩, ⟨_, rfl, rfl⟩, ⟨_, rfl, rfl⟩, ⟨_, rfl, rfl⟩, ⟨_, rfl, ?_⟩, ⟨_, rfl, rfl⟩⟩
  all_goals exact State.regWrite_portReg s p w (by decide)

/-- Settles O53: word 0 of every target is the identity of the device's own code. -/
theorem deviceIdentity : Obligations.DeviceIdentity := by
  intro s k
  have h : s.regRead k 0x0000 = s.devReg 0 := rfl
  exact ⟨fun hc => by simp [h, State.devReg, hc], fun hc => by simp [h, State.devReg, hc]⟩

end Sys2Proof.Machine
end

section
/-! SUPPORT. The outcome of a command: every one answers a next state but the release of reset with TMODE high (R23). -/

namespace Sys2Proof.Machine

/-- The outcome is a next state. -/
inductive Answers : Res State → Prop where
  | next (t : State) : Answers (.next t)

theorem Answers.exists_next {r : Res State} (h : Answers r) : ∃ t, r = .next t := by
  cases h with | next t => exact ⟨t, rfl⟩

theorem hostWrite_answers (s : State) (i : Nat) (w : Word) (f : State → State) : Answers (s.hostWrite i w f) := by
  rw [State.hostWrite_spec]
  exact .next _

theorem handStep_answers (s : State) (h : Hand) (p : Option Port) (e : EvCode → Bool) (f : EvCode → State → State) :
    Answers (s.handStep h p e f) := by
  obtain k | ⟨c, u, -, -, k⟩ := s.handStep_spec h p e f <;> rw [k] <;> exact .next _

theorem onMsg_answers (s : State) (h : Hand) (p : Port) (r : MsgRow) (f : RxMsg → State → State) : Answers (s.onMsg h p r f) := by
  unfold State.onMsg
  split <;> [skip; split] <;> exact .next _

theorem onFrame_answers (s : State) (d : LinkSide) (k : LinkHdr) (f : State → State) : Answers (s.onFrame d k f) := by
  unfold State.onFrame
  extract_lets
  split <;> [skip; split] <;> exact .next _

theorem onLoanFrame_answers (s : State) (d : LinkSide) (k : LinkHdr) (f : State → State) : Answers (s.onLoanFrame d k f) := by
  unfold State.onLoanFrame
  extract_lets
  split <;> [exact .next _; split] <;> [exact .next _; exact onFrame_answers ..]

theorem onAuditFrame_answers (s : State) (d : LinkSide) (k : LinkHdr) (f : State → State) : Answers (s.onAuditFrame d k f) := by
  unfold State.onAuditFrame
  split <;> [exact .next _; exact onFrame_answers ..]

/-- The release of reset goes on, but in reset with TMODE high (R23). -/
theorem execResetRelease_answers (s : State) (k : BitVec 3) (b : Bool) :
    Answers (execResetRelease k b s) ∨ s.dev.phase = .reset ∧ b = true ∧ execResetRelease k b s = .fault .factoryTestMode := by
  unfold execResetRelease
  split
  · next hp =>
    cases b
    · exact .inl (.next _)
    · exact .inr ⟨hp, rfl, rfl⟩
  · exact .inl (.next _)

/-- Every command but the release of reset goes on: along each of its branches it is a next state, a step of a hand, a frame or a word
at its register. -/
theorem exec_answers (s : State) (c : Instr) (h : ∀ k b, c ≠ .resetRelease k b) : Answers (exec c s) := by
  delta exec
  cases c
  case resetRelease k b => exact absurd rfl (h k b)
  all_goals
    clear h
    dsimp only
    delta execStandbyPor execSupplyBelowThreshold execRstNLow execVauxLow execVauxRecover execVconnInLow
      execStartupOscillatorRunning execPllsLocked execD2dTrainingAttemptEnd execAlmanacReadDone execAlmanacApplyDone
      execCounterRestoreDone execInitialCalibrationDone execPortsEnabled execXrefCrystalQualified execXrefCrystalFail
      execPllLockLost execX32CrystalFail execX32CrystalRecover execFlitCrcFail execD2dLinkLost execD2dfCisternRelease
      execDevRst execAlmanacReload execStopPhaseEnd execPortReset execPortResetComplete execAdmDisable execAdmEnable
      execRestEntry execRestWake execRestExitPllRelock execRestExitLinksRetrained execRestExitComplete execYardEventAccept
      execYardTimerExpiry execCcTerminationSeen execTccdebounceExpiry execBackvRelease execTpddebounceExpiry
      execTsrcdisconnectExpiry execSinkVbusLost execDrpToggle execErrRecovEnd execSelftestResult execVconnOvercurrent
      execPacketReceive execCapture execHardResetOrderedSet execTransmitStart execTreceiveExpiry execTxGoodcrc execTxfail
      execDowserFrame execNtcMeasure execDieTempReport execThermalEvaluation execCutClear execGuardNotice execVsafe5vInBand
      execRequest execEprRequest execSoftReset execHardResetReceived execAccept execReject execWait execPsRdy
      execSourceCapabilities execEprSourceCapabilities execGetSourceCap execGetSinkCap execGetPpsStatus execGetStatus
      execGetRevision execEprModeEnter execEprModeExit execEprModeResponse execEprKeepalive execVconnSwap execPrSwap execDrSwap
      execFrSwap execDataReset execUnsupportedMessage execSenderResponseTimerExpiry execTtypecsendsourcecapExpiry
      execTsrctransitionExpiry execTransitionLimitExpiry execSettleReport execWaitWindowExpiry execRejectResendCaps
      execSinkWaitCapTimerExpiry execPsTransitionTimerExpiry execTsinkrequestExpiry execTpshardresetExpiry
      execTsrcrecoverExpiry execSinkHardResetRecoveryExpiry execSinkHardResetVbusReturn execTppstimeoutExpiry
      execTsourceeprkeepaliveExpiry execTsinkeprkeepaliveExpiry execTvconnsourceonExpiry execShedNotice execShedLimitExpiry
      execFreeRise execReofferSpacingExpiry execSluiceStateChange execCrierAlert execAlertWaitExpiry execTvconnstableExpiry
      execCableDiscoverIdentityResponse execTdiscoveridentityExpiry execCableDiscoveryTimeLimit
      execSop2DiscoverIdentityResponse execPartnerDiscoveryStart execDiscoverIdentityAck execDiscoverSvidsAck
      execDiscoverModesAck execEnterModeAck execDpStatusUpdateAck execDpConfigureAck execVdmNak execVdmBusy execTvdmbusyExpiry
      execTvdmsenderresponseExpiry execTvdmwaitmodeentryExpiry execAttention execIrqHpdLowTimeEnd execStructuredVdmCommand
      execUnstructuredVdm execMuxFrameStart execMuxFrameEnd execSluiceOn execSluiceOff execIlimActChange execPrechargeEnd
      execSlopeEnd execRampOn execGateRiseCheckFail execLimitEntry execLimitExit execFaultTimerTrip execFastTrip
      execReverseCurrentTrip execRampTimeout execTripDischarged execRetryOffTimeEnd execRetryCountReset execDischargeDone
      execDscf execFets execStageStart execStageStop execTargetChange execStopTimeout execPeriodStart execRefTrim execSyncEdge
      execSyncWindowMiss execSampleTrigger execStealThreshold execSampleDispatch execPresetDispatch execCommitDeadline
      execTroughGrant execStageUnitCommit execRunawayTrap execLoopManual execLoopAuto execLoopMdutyWrite execCoefWindowWrite
      execMov execMova execLea execAdd execSub execNeg execAbs execMul execMac execMsu execShl execShr execAsr execRnd execSat
      execMin execMax execClmp execAnd execOr execXor execNot execCeq execCne execClt execCle execCltu execCleu execBz execBnz
      execBra execJmp execCall execRet execStg execStgb execEndSample execTrap execNop execIllegalOpcode execMeteringSample
      execCalSlotStart execReliefSwitchIn execCalResult execReliefSwitchBack execReliefCalibration execCalstale execPrefMeasure
      execBillingClear execMetStatRead execCisStatRead execTallyInterval execTallyRecordStart execHoldupRecheck
      execPageProgramDone execTallyReadback execBlockEraseDone execHoldSnsSample execProfileChange execHello execAck execEnum
      execEnumDone execAudit execAuditRes execSleep execReq execGrant execRefuse execRenew execRenewAck execLapse
      execLinkAckTimeout execHelloTimer execLinkPartnerLost execLinkReset execLoanRequestTimeout execRenewDue execRenewMissing
      execShedLead execBorrowerLeaseEnd execLenderLeaseEnd execCandidateWaveStart execAuditStart execAuditTokenLost
      execAuditSlotGuardEnd execWrnSet execWrnClear execWrnAlert execHoRequest execHoGateCheck execHoComplete execQualComplete
      execEmergencyReturn execRtnGateCheck execRtnComplete execRsvLowSet execRsvLowClear execBrownOutWarning execBrownOutClear
      execTwmWrite execTwmSetIndex execTwmStreamedRead execTwmCountedRead execTwmCurrentRead execMeteringSetOffset
      execMeteringStreamedRead execMeteringCountedRead execMeteringCurrentRead execMeteringWrite execSclTimeout
      execUnlockFirstKey execUnlockSecondKey execUnlockClose execUnlockKeyWindowExpiry execUnlockTimeout execCounterClear
      execHwmclr execEventAck execRegisterWrite execVconnInRecover execSinkVbusDetect execPreambleDetected execTransmitEnd
      execNotSupportedReceived execFrameStart execHoRequestClear execQualStart execQualBreak execLinkFrameDropped
      execWakeBurstEnd State.onTimer State.onAck State.timerStep State.timersStep
    repeat' first | with_reducible exact .next _ | split | extract_lets
    all_goals
      with_reducible simp only [↓hostWrite_answers, ↓handStep_answers, ↓onMsg_answers, ↓onFrame_answers, ↓onLoanFrame_answers,
        ↓onAuditFrame_answers]

/-- Settles O55: the only command with a branch that is no next state is the release of reset. -/
theorem commandsComplete : Obligations.CommandsComplete := by
  unfold Obligations.CommandsComplete
  intro s c
  by_cases h : ∃ k b, c = .resetRelease k b
  · obtain ⟨k, b, rfl⟩ := h
    obtain hn | ⟨hp, rfl, hf⟩ := execResetRelease_answers s k b
    · exact .inl hn.exists_next
    · exact .inr ⟨⟨k, rfl⟩, hp, hf⟩
  · exact .inl (exec_answers s c fun k b hc => h ⟨k, b, hc⟩).exists_next

end Sys2Proof.Machine
end

section
/-! SUPPORT. The reset state: its ports, and the safety of a state from that of its ports. -/

namespace Sys2Proof.Machine

@[simp] theorem State.reset_port (p : Port) : State.reset.port p = PortState.reset p := by simp [State.port, State.reset]

/-- No port passes current in a fault state when each port, by its number, does not. -/
theorem State.safe_of_forall {s : State} (h : ∀ p, (s.port p).cutHolds = true) : s.safe = true := by
  simp only [State.safe, List.all_eq_true, Vector.mem_toList_iff]
  intro x hx
  obtain ⟨i, hi, rfl⟩ := Vector.mem_iff_getElem.1 hx
  exact h ⟨i, hi⟩

/-- Settles O56: each field as `State.reset` gives it, and each port as `PortState.reset` does. -/
theorem resetState : Obligations.ResetState := by
  unfold Obligations.ResetState
  refine ⟨rfl, State.safe_of_forall fun p => ?_, rfl, rfl, rfl, rfl, rfl, rfl, rfl, rfl, fun k => rfl, fun p => ?_⟩
  · simp [PortState.cutHolds, PortState.reset, CntP.reset, CntP.any]
  · simp only [State.reset_port]
    refine ⟨rfl, rfl, rfl, rfl, rfl, ?_⟩
    have hv : State.reset.vsbAbsent = false := rfl
    have hd : State.reset.ccDischarge p = none := by simp [State.ccDischarge, PortState.reset, Tc.reset]
    simp [State.portPins, hv, hd, PortState.reset]
    rfl

end Sys2Proof.Machine
end

section
/-! SUPPORT. The obligation on clock sources, the loss of a die, and rest: rest itself can put a frame on the line. -/

namespace Sys2Proof.Machine

/-- Port 0 tries to attach as source, with Rd on CC1 and tCCDebounce over, while a dowser frame holds CC1. -/
def attachInFrame : PortState :=
  let x := PortState.reset 0
  { x with live := true
           tc := { x.tc with st := .attwaitSrc, cc1 := 1000, cc2 := 3000, pin := some false, ccDone := true }
           slc := { x.slc with low0 := true }
           grd := { x.grd with ccFrame := some false } }

/-- A running device without a free credit: its partner on LKW is about to acknowledge its last SLEEP, and port 0 tries to attach. -/
def sleepInFrame : State :=
  let s := State.reset
  { s with dev := { s.dev with phase := .run }
           alm := { s.alm with cfg := { s.alm.cfg with home := 0, restEn := true, sleepOk := true } }
           lnk := { s.lnk with w := { s.lnk.w with st := .up, ver := 1, txq := [.sleep 0], att := 1 } }
           ports := s.ports.set 0 attachInFrame }

/-- The frames that wait on LKW after an outcome. -/
def txqWest : Res State → List LinkFrame
  | .next t => t.lnk.w.txq
  | _ => []

theorem sleepInFrame_mayRest : (sleepInFrame.onSide false fun l => { l with txq := [] }).mayRest = true := by decide +kernel

/-- On the way into rest the dowser gives the pin back, the connection machine judges it (R113, R141), and the default charge that FREE
does not cover is sought from the partner (R347). -/
theorem sleepInFrame_ack_txq : txqWest (exec (.ack .west 0#4) sleepInFrame) = [.req 0#16 50 1] := by decide +kernel

/-- Refutes O46: the clause on the last SLEEP's ACK says that nothing waits on that side once the device rests. In `sleepInFrame` the stop
of the dowser lets port 0 ask for its default charge, and a REQ waits there instead. An attach attempt does not begin under a dowser
frame (R113), so this state is one that the statement does not exclude, not one that a run is known to reach. -/
theorem not_clocksDiesAndRest : ¬ Obligations.ClocksDiesAndRest := by
  unfold Obligations.ClocksDiesAndRest
  rintro ⟨-, -, h⟩
  obtain ⟨-, hack, -⟩ := h sleepInFrame 0 .twm
  obtain ⟨⟨t, ht, -, hq⟩, -⟩ := hack .west 0 rfl (by decide) sleepInFrame_mayRest
  have hreq : txqWest (.next t) = [.req 0#16 50 1] := ht ▸ sleepInFrame_ack_txq
  exact absurd (hq.symm.trans hreq) (by decide)

end Sys2Proof.Machine
end

section
/-! SUPPORT. Frames: what an operation on one port leaves alone, closed under one operation after another, and a fold over ports that are
each changed on their own. -/

namespace Sys2Proof.Machine

variable {s t u : State} {p q : Port}

/-! ## One port and the yard -/

theorem State.globalsKept_refl (s : State) : s.globalsKept s :=
  ⟨rfl, rfl, rfl, rfl, rfl, rfl, rfl, rfl, rfl, rfl, rfl, rfl, rfl, rfl, rfl⟩

theorem State.globalsKept.trans (h : s.globalsKept t) (k : t.globalsKept u) : s.globalsKept u := by
  simp_all only [State.globalsKept, and_self]

theorem State.onlyPortYard_refl (s : State) (p : Port) : s.onlyPortYard p s := ⟨fun _ _ => rfl, s.globalsKept_refl⟩

theorem State.onlyPortYard.trans (h : s.onlyPortYard p t) (k : t.onlyPortYard p u) : s.onlyPortYard p u :=
  ⟨fun q hq => (k.1 q hq).trans (h.1 q hq), h.2.trans k.2⟩

theorem State.onPort_only (s : State) (p : Port) (f : PortState → PortState) : s.onlyPort p (s.onPort p f) :=
  ⟨⟨fun _ hq => s.onPort_port_ne p _ f hq, s.globalsKept_refl⟩, rfl, rfl⟩

theorem State.onPort_onlyYard (s : State) (p : Port) (f : PortState → PortState) : s.onlyPortYard p (s.onPort p f) :=
  (s.onPort_only p f).1

theorem State.onPort_post_onlyYard (s : State) (p : Port) (f : PortState → PortState) (n : Nat) (o : Option Port) (c : Nat)
    (e : EvCode) : s.onlyPortYard p ((s.onPort p f).post n o c e) :=
  ⟨fun _ hq => s.onPort_port_ne p _ f hq, s.globalsKept_refl⟩

@[simp] theorem State.post_port (s : State) (n : Nat) (o : Option Port) (c : Nat) (e : EvCode) : (s.post n o c e).port q = s.port q := rfl
@[simp] theorem State.postPort_port (s : State) (c : Nat) (e : EvCode) : (s.postPort p c e).port q = s.port q := rfl
@[simp] theorem State.noteConn_port (s : State) : (s.noteConn p).port q = s.port q := rfl

/-! ## A fold over ports -/

/-- A fold of a step that keeps a relation keeps it. -/
theorem State.forPorts_induct {R : State → State → Prop} (hr : ∀ s, R s s) (ht : ∀ {s t u}, R s t → R t u → R s u)
    {f : State → Port → State} (hf : ∀ s p, R s (f s p)) (s : State) (l : List Port) : R s (s.forPorts l f) := by
  induction l generalizing s with
  | nil => exact hr s
  | cons p l ih => exact ht (hf s p) (ih (f s p))

/-- A fold up to a port, the step at it, and the fold over the rest. -/
theorem State.forPorts_at {f : State → Port → State} {l : List Port} (hp : p ∈ l) (s : State) :
    ∃ l₁ l₂, l = l₁ ++ p :: l₂ ∧ s.forPorts l f = (f (s.forPorts l₁ f) p).forPorts l₂ f := by
  obtain ⟨l₁, l₂, rfl⟩ := List.append_of_mem hp
  exact ⟨l₁, l₂, rfl, by simp [State.forPorts]⟩

section
variable {f : State → Port → State} (hf : ∀ s p q, q ≠ p → (f s p).port q = s.port q)
include hf

/-- A port that is not in the list is as it was. -/
theorem State.forPorts_port_of_notMem {l : List Port} (hq : q ∉ l) (s : State) : (s.forPorts l f).port q = s.port q := by
  induction l generalizing s with
  | nil => rfl
  | cons p l ih =>
    obtain ⟨h, hl⟩ := not_or.1 (List.mem_cons.not.1 hq)
    exact (ih hl (f s p)).trans (hf s p q h)

/-- A port in the list is what its own step left, which found it as it was. -/
theorem State.forPorts_port_of_mem {l : List Port} (hl : l.Nodup) (hp : p ∈ l) (s : State) :
    ∃ l₁, p ∉ l₁ ∧ (s.forPorts l₁ f).port p = s.port p ∧ (s.forPorts l f).port p = (f (s.forPorts l₁ f) p).port p := by
  obtain ⟨l₁, l₂, rfl, h⟩ := State.forPorts_at (f := f) hp s
  have h₁ : p ∉ l₁ := fun hm => (List.nodup_append.1 hl).2.2 p hm p (by simp) rfl
  have h₂ : p ∉ l₂ := (List.nodup_cons.1 (List.nodup_append.1 hl).2.1).1
  exact ⟨l₁, h₁, State.forPorts_port_of_notMem hf h₁ s, h ▸ State.forPorts_port_of_notMem hf h₂ _⟩

end

theorem mem_allPorts (p : Port) : p ∈ allPorts := List.mem_finRange p

theorem nodup_filter_allPorts (g : Port → Bool) : (allPorts.filter g).Nodup := (List.nodup_finRange 48).filter g

end Sys2Proof.Machine
end

section
/-! SUPPORT. The moves of the connection machine that touch one port: the comparators, toggling, the way back to the unattached state and
VCONN (R89 to R103). -/

namespace Sys2Proof.Machine

variable {s : State} {p q : Port}

/-! ## The stage's first ISET -/

theorem State.isetFirst_globals (s : State) (p : Port) : s.globalsKept (s.isetFirst p) := by
  unfold State.isetFirst
  dsimp only
  split
  · exact s.globalsKept_refl
  · exact (s.onPort_onlyYard _ _).2

theorem State.isetFirst_port_ne (h : q ≠ s.stageOf p) : (s.isetFirst p).port q = s.port q := by
  unfold State.isetFirst
  dsimp only
  split
  · rfl
  · exact s.onPort_port_ne _ _ _ h

/-- Of the port that it touches the first ISET changes the loop slot alone. -/
theorem State.isetFirst_port (s : State) (p q : Port) : ∃ l, (s.isetFirst p).port q = { s.port q with loop := l } := by
  by_cases h : q = s.stageOf p
  · unfold State.isetFirst
    dsimp only
    split
    · exact ⟨_, rfl⟩
    · rw [← h, State.onPort_port_self]
      exact ⟨_, rfl⟩
  · exact ⟨_, State.isetFirst_port_ne h⟩

/-! ## The comparators (R90, R91) -/

/-- The state with port p's pins as the comparators show them. -/
def State.seen (s : State) (p : Port) (cc1 cc2 : Nat) : State := s.onPort p fun x => { x with tc := x.tc.see cc1 cc2 }

theorem exec_ccTerminationSeen {cc1 cc2 : Nat} (hr : s.ccRuns p = true) (hf : (s.port p).grd.ccFrame = none) :
    exec (.ccTerminationSeen p cc1 cc2) s = .next ((s.seen p cc1 cc2).ccJudge p (s.port p).rdSame) := by
  show execCcTerminationSeen p cc1 cc2 s = _
  simp [execCcTerminationSeen, hr, hf, State.seen]

@[simp] theorem State.seen_port_self (s : State) (p : Port) (cc1 cc2 : Nat) :
    (s.seen p cc1 cc2).port p = { s.port p with tc := (s.port p).tc.see cc1 cc2 } := s.onPort_port_self ..

theorem State.seen_only (s : State) (p : Port) (cc1 cc2 : Nat) : s.onlyPort p (s.seen p cc1 cc2) := s.onPort_only ..

/-- An attach attempt as source begins on a pin. -/
def Tc.waitSrc (t : Tc) (pin : Option Bool) : Tc :=
  { t with st := .attwaitSrc, accSeen := false, backv := false, pin := pin, ccDone := false }

def State.waitSrc (s : State) (p : Port) (pin : Option Bool) : State :=
  (s.onPort p fun x => { x with tc := x.tc.waitSrc pin }).noteConn p

/-- A source that sees Rd on one pin waits for its debounce, and with VBC below vSafe0V its stage is commanded to 5 V (R91, R196). -/
theorem State.ccJudge_unattSrc {had : Bool} (hst : (s.port p).tc.st = .unattSrc)
    (hrd : (rdPin (s.port p).cfg.rp (s.port p).tc.cc1 (s.port p).tc.cc2).isSome = true) :
    s.ccJudge p had =
      (let t := s.waitSrc p (rdPin (s.port p).cfg.rp (s.port p).tc.cc1 (s.port p).tc.cc2)
       if (s.port p).slc.low0 then (t.isetFirst p).stgCmd p (.start 5000) else t) := by
  unfold State.ccJudge
  simp [hst, hrd, State.waitSrc, Tc.waitSrc]

/-- A sink that sees Rp on one pin alone waits for its debounce (R91). -/
theorem State.ccJudge_unattSnk {had : Bool} (hst : (s.port p).tc.st = .unattSnk) (hrp : (s.port p).tc.rpOne = true) :
    s.ccJudge p had = (s.onPort p fun x => { x with tc := { x.tc with
      prp := snkPin (max (s.port p).tc.cc1 (s.port p).tc.cc2), st := .attwaitSnk, accSeen := false } }).noteConn p := by
  unfold State.ccJudge
  simp only [Tc.rpOne, bne_iff_ne] at hrp
  simp [hst]
  split <;> simp_all

/-- An attached sink reads the Rp level and does nothing else (R90). -/
theorem State.ccJudge_attSnk {had : Bool} (hst : (s.port p).tc.st = .attSnk) :
    s.ccJudge p had = s.onPort p fun x => { x with tc := { x.tc with prp := snkPin (max (s.port p).tc.cc1 (s.port p).tc.cc2) } } := by
  unfold State.ccJudge
  simp [hst]

/-- A sink finds Rp on a pin above 200 mV (R90). -/
theorem snkPin_pos (mv : Nat) : 0 < snkPin mv ↔ 200 < mv := by
  unfold snkPin
  split <;> [skip; split <;> [skip; split]] <;> simp <;> omega

theorem Tc.rpOne_see {t : Tc} {cc1 cc2 : Nat} (h : 200 < cc1 ∧ cc2 ≤ 200 ∨ cc1 ≤ 200 ∧ 200 < cc2) :
    (t.see cc1 cc2).rpOne = true := by
  have hne : ¬(200 < cc1 ↔ 200 < cc2) := by omega
  simpa [Tc.rpOne, Tc.see, snkPin_pos, decide_eq_decide] using hne

/-! ## The way back to the unattached state (R91, R116, R128) -/

theorem State.noteFrom_port (s : State) (p q : Port) (c : ConnState) : (s.noteFrom p c).port q = s.port q := by
  unfold State.noteFrom; split <;> rfl

theorem State.noteFrom_only (s : State) (p : Port) (c : ConnState) : s.onlyPortYard p (s.noteFrom p c) := by
  unfold State.noteFrom
  split
  · exact s.onlyPortYard_refl p
  · exact ⟨fun _ _ => rfl, s.globalsKept_refl⟩

theorem State.toUnatt_only (s : State) (p : Port) : s.onlyPortYard p (s.toUnatt p) :=
  (s.onPort_onlyYard p _).trans (State.noteFrom_only ..)

theorem State.toUnatt_st (s : State) (p : Port) :
    ((s.toUnatt p).port p).tc.st = if (s.port p).grd.off then .guardOff else unattOf (s.port p).cfg.role := by
  simp [State.toUnatt, State.noteFrom_port, Tc.fresh]

/-! ## VCONN (R31, R102, R103) -/

/-- A fold of changes of single ports changes nothing but ports. -/
theorem State.forPorts_onPort_eq (s : State) (l : List Port) (g : State → Port → Bool) (f : State → PortState → PortState) :
    ∃ v, s.forPorts l (fun s p => if g s p then s.onPort p (f s) else s) = { s with ports := v } := by
  induction l generalizing s with
  | nil => exact ⟨_, rfl⟩
  | cons p l ih =>
    by_cases h : g s p = true
    · obtain ⟨v, hv⟩ := ih (s.onPort p (f s))
      exact ⟨v, by simpa [State.forPorts, h] using hv⟩
    · obtain ⟨v, hv⟩ := ih s
      exact ⟨v, by simpa [State.forPorts, h] using hv⟩

end Sys2Proof.Machine
end

section
/-! SUPPORT. The power path: what the credits and the connection machine leave alone of it. -/

namespace Sys2Proof.Machine

variable {s t u : State} {p q : Port}

/-- What of a port bears on its power path: its options, its pins' state, sluice, stage, fault states and guard. -/
def PortState.path (x : PortState) : PortCfg × Bool × Slc × Stg × CntP × GrdP := (x.cfg, x.live, x.slc, x.stg, x.cnt, x.grd)

/-- The device and every port's power path are as they were. -/
def State.pathKept (s t : State) : Prop := t.dev = s.dev ∧ ∀ q, (t.port q).path = (s.port q).path

theorem State.pathKept.trans (h : s.pathKept t) (k : t.pathKept u) : s.pathKept u :=
  ⟨k.1.trans h.1, fun q => (k.2 q).trans (h.2 q)⟩

section
variable (h : s.pathKept t) (q : Port)
include h
theorem State.pathKept.cfg : (t.port q).cfg = (s.port q).cfg := congrArg (·.1) (h.2 q)
theorem State.pathKept.live : (t.port q).live = (s.port q).live := congrArg (·.2.1) (h.2 q)
theorem State.pathKept.slc : (t.port q).slc = (s.port q).slc := congrArg (·.2.2.1) (h.2 q)
theorem State.pathKept.stg : (t.port q).stg = (s.port q).stg := congrArg (·.2.2.2.1) (h.2 q)
theorem State.pathKept.cnt : (t.port q).cnt = (s.port q).cnt := congrArg (·.2.2.2.2.1) (h.2 q)
end

/-- A state with the same device and ports keeps the path too. -/
theorem State.pathKept.with (h : s.pathKept t) (hd : u.dev = t.dev) (hp : u.ports = t.ports) : s.pathKept u :=
  h.trans ⟨hd, fun q => by simp [State.port, hp]⟩

theorem State.pathKept_refl (s : State) : s.pathKept s := ⟨rfl, fun _ => rfl⟩

theorem State.onPort_pathKept (s : State) (p : Port) {f : PortState → PortState}
    (hf : ∀ x, (f x).path = x.path := by exact fun _ => rfl) :
    s.pathKept (s.onPort p f) :=
  ⟨rfl, fun q => by
    by_cases h : q = p
    · subst h; simp [hf]
    · rw [s.onPort_port_ne p q f h]⟩

theorem State.pathKept_ite {c : Prop} [Decidable c] (h : s.pathKept t) (k : s.pathKept u) : s.pathKept (if c then t else u) := by
  split <;> assumption

/-! ## The end of an attachment -/

theorem State.post_pathKept (s : State) (n : Nat) (o : Option Port) (c : Nat) (e : EvCode) : s.pathKept (s.post n o c e) :=
  s.pathKept_refl.with rfl rfl

theorem State.disarm_pathKept (s : State) (p : Port) (i : TimerId) : s.pathKept (s.disarm p i) := by
  unfold State.disarm
  exact State.pathKept.with (t := s.onPort p fun x => { x with pd.live := x.pd.live.filter fun e => e.1 ≠ i }) (s.onPort_pathKept p)
    rfl rfl

theorem State.disarmAll_pathKept (s : State) (p : Port) : s.pathKept (s.disarmAll p) := by
  unfold State.disarmAll
  exact State.pathKept.with (t := s.onPort p fun x => { x with pd.live := [] }) (s.onPort_pathKept p) rfl rfl

theorem State.vdmQuiet_pathKept (s : State) (p : Port) : s.pathKept (s.vdmQuiet p) := by
  unfold State.vdmQuiet
  generalize [TimerId.discoverIdentity, .cableLimit, .cableResponse, .partnerDiscovery, .vdmBusy, .vdmSenderResponse, .vdmWaitModeEntry,
    .irqHpdLow] = l
  induction l generalizing s with
  | nil => exact s.pathKept_refl
  | cons i l ih => exact (s.disarm_pathKept p i).trans (ih _)

theorem State.endMode_pathKept (s : State) (p : Port) : s.pathKept (s.endMode p) := by
  unfold State.endMode
  extract_lets was s₁ s₂
  have h : s.pathKept s₂ := (s.vdmQuiet_pathKept p).trans (s₁.onPort_pathKept p)
  exact State.pathKept_ite (h.trans (s₂.onPort_pathKept p)) h

theorem State.protReset_pathKept (s : State) (p : Port) : s.pathKept (s.protReset p) := by
  unfold State.protReset State.dropMsgs
  exact State.pathKept.with (t := s.onPort p fun x => { x with prot := Prot.reset }) (s.onPort_pathKept p) rfl rfl

theorem State.muxUpdate_pathKept (s : State) (p : Port) : s.pathKept (s.muxUpdate p) := by
  unfold State.muxUpdate
  exact State.pathKept_ite (s.pathKept_refl.with rfl rfl) s.pathKept_refl

theorem State.leave_pathKept (s : State) (p : Port) (st : ConnState) : s.pathKept (s.leave p st) := by
  unfold State.leave
  extract_lets was busy s₁ s₂ s₃ s₄ s₅ s₆ s₇
  have h₄ : s.pathKept s₄ := (s.endMode_pathKept p).trans <| (s₁.disarmAll_pathKept p).trans <|
    (s₂.protReset_pathKept p).trans (s₃.onPort_pathKept p)
  have h₅ : s₄.pathKept s₅ := by
    refine State.pathKept.trans (t := s₄.onPort p _) ?_ (State.post_pathKept ..)
    exact s₄.onPort_pathKept p
  have h₆ : s₅.pathKept s₆ :=
    State.pathKept_ite ((s₅.onPort_pathKept p).trans (State.muxUpdate_pathKept _ p)) s₅.pathKept_refl
  have h₇ : s₆.pathKept s₇ := State.pathKept_ite (s₆.onPort_pathKept p) s₆.pathKept_refl
  have h : s.pathKept s₇ := h₄.trans (h₅.trans (h₆.trans h₇))
  exact State.pathKept_ite (h.trans (s₇.onPort_pathKept p)) h

theorem State.errRecov_pathKept (s : State) (p : Port) : s.pathKept (s.errRecov p) :=
  (s.leave_pathKept p .errRecov).trans <| (State.onPort_pathKept _ p).trans (State.onPort_pathKept _ p)

theorem State.othersKept.trans (h : s.othersKept p t) (k : t.othersKept p u) : s.othersKept p u :=
  fun q hq => (k q hq).trans (h q hq)

theorem State.onPort_othersKept (s : State) (p : Port) (f : PortState → PortState) : s.othersKept p (s.onPort p f) :=
  fun q hq => s.onPort_port_ne p q f hq

theorem State.othersKept_ite {c : Prop} [Decidable c] (h : s.othersKept p t) (k : s.othersKept p u) :
    s.othersKept p (if c then t else u) := by
  split <;> assumption

theorem State.disarm_othersKept (s : State) (p : Port) (i : TimerId) : s.othersKept p (s.disarm p i) :=
  s.onPort_othersKept p fun x => { x with pd.live := x.pd.live.filter fun e => e.1 ≠ i }

theorem State.disarmAll_othersKept (s : State) (p : Port) : s.othersKept p (s.disarmAll p) :=
  s.onPort_othersKept p fun x => { x with pd.live := [] }

theorem State.protReset_othersKept (s : State) (p : Port) : s.othersKept p (s.protReset p) :=
  s.onPort_othersKept p fun x => { x with prot := Prot.reset }

theorem State.vdmQuiet_othersKept (s : State) (p : Port) : s.othersKept p (s.vdmQuiet p) := by
  unfold State.vdmQuiet
  generalize [TimerId.discoverIdentity, .cableLimit, .cableResponse, .partnerDiscovery, .vdmBusy, .vdmSenderResponse, .vdmWaitModeEntry,
    .irqHpdLow] = l
  induction l generalizing s with
  | nil => exact fun _ _ => rfl
  | cons i l ih => exact (s.disarm_othersKept p i).trans (ih _)

theorem State.endMode_othersKept (s : State) (p : Port) : s.othersKept p (s.endMode p) := by
  unfold State.endMode
  extract_lets was s₁ s₂
  have h : s.othersKept p s₂ := (s.vdmQuiet_othersKept p).trans (s₁.onPort_othersKept p _)
  exact State.othersKept_ite (h.trans (s₂.onPort_othersKept p _)) h

@[simp] theorem State.muxUpdate_port (s : State) (p q : Port) : (s.muxUpdate p).port q = s.port q := by
  unfold State.muxUpdate; split <;> rfl

theorem State.leave_othersKept (s : State) (p : Port) (st : ConnState) : s.othersKept p (s.leave p st) := by
  unfold State.leave
  extract_lets was busy s₁ s₂ s₃ s₄ s₅ s₆ s₇
  have h₄ : s.othersKept p s₄ := (s.endMode_othersKept p).trans <| (s₁.disarmAll_othersKept p).trans <|
    (s₂.protReset_othersKept p).trans (s₃.onPort_othersKept p _)
  have h₅ : s₄.othersKept p s₅ := fun q hq => by simp [s₅, State.onPort_port_ne _ _ _ _ hq]
  have h₆ : s₅.othersKept p s₆ :=
    State.othersKept_ite (fun q hq => (State.muxUpdate_port ..).trans (s₅.onPort_othersKept p _ q hq)) fun _ _ => rfl
  have h₇ : s₆.othersKept p s₇ := State.othersKept_ite (s₆.onPort_othersKept p _) fun _ _ => rfl
  have h : s.othersKept p s₇ := h₄.trans (h₅.trans (h₆.trans h₇))
  exact State.othersKept_ite (h.trans (s₇.onPort_othersKept p _)) h

theorem State.leave_st (s : State) (p : Port) (st : ConnState) : ((s.leave p st).port p).tc.st = st := by
  unfold State.leave
  extract_lets was busy s₁ s₂ s₃ s₄ s₅ s₆ s₇
  have h₅ : (s₅.port p).tc.st = st := by simp [s₅, Tc.leave]
  have h₆ : (s₆.port p).tc.st = st := by unfold s₆; split <;> simp [State.tcEvt, h₅]
  have h₇ : (s₇.port p).tc.st = st := by unfold s₇; split <;> simp [State.slcCmd, h₆]
  split <;> simp [State.stgCmd, h₇]

theorem State.errRecov_port_ne (s : State) (h : q ≠ p) : (s.errRecov p).port q = s.port q :=
  ((s.leave_othersKept p .errRecov).trans <| State.othersKept.trans (State.onPort_othersKept _ p _) (State.onPort_othersKept _ p _)) q h

/-! ## The shed (R166, R167): it chooses source ports -/

theorem shedFirst_mem {l : List Port} (h : shedFirst s l = some p) : p ∈ l := by
  unfold shedFirst at h
  have main : ∀ (l : List Port) (b : Option Port), l.foldl (fun b p => match b with
      | none => some p
      | some q => if shedBefore s p q then some p else some q) b = some p → p ∈ l ∨ b = some p := by
    intro l
    induction l with
    | nil => exact fun b h => .inr h
    | cons q l ih =>
      intro b h
      rcases ih _ h with h | h
      · exact .inl (List.mem_cons_of_mem q h)
      · cases b with
        | none => simp_all
        | some r =>
          by_cases hb : shedBefore s q r = true <;> simp_all
  simpa using main l none h

/-- Nothing of the power path changes, nor the connection of a port that is no source. -/
def State.shedKept (s t : State) : Prop :=
  s.pathKept t ∧ ∀ q, (s.port q).tc.isSrc = false → (t.port q).tc = (s.port q).tc

theorem State.shedKept.trans (h : s.shedKept t) (k : t.shedKept u) : s.shedKept u :=
  ⟨h.1.trans k.1, fun q hq => by rw [k.2 q (by rw [h.2 q hq, hq]), h.2 q hq]⟩

theorem State.shedKept_refl (s : State) : s.shedKept s := ⟨s.pathKept_refl, fun _ _ => rfl⟩

theorem State.shedKept_of_ports (hd : t.dev = s.dev) (hp : t.ports = s.ports) : s.shedKept t :=
  ⟨s.pathKept_refl.with hd hp, fun q _ => by simp [State.port, hp]⟩

theorem State.onPort_shedKept (s : State) (p : Port) {f : PortState → PortState}
    (hf : ∀ x, (f x).path = x.path ∧ (f x).tc = x.tc := by exact fun _ => ⟨rfl, rfl⟩) : s.shedKept (s.onPort p f) :=
  ⟨s.onPort_pathKept p fun x => (hf x).1, fun q _ => by
    by_cases h : q = p
    · subst h; simp [hf]
    · rw [s.onPort_port_ne p q f h]⟩

theorem State.post_shedKept (s : State) (n : Nat) (o : Option Port) (c : Nat) (e : EvCode) : s.shedKept (s.post n o c e) :=
  State.shedKept_of_ports rfl rfl

theorem State.shedKept_ite {c : Prop} [Decidable c] (h : s.shedKept t) (k : s.shedKept u) : s.shedKept (if c then t else u) := by
  split <;> assumption

theorem State.shedPort_shedKept (s : State) (p : Port) : s.shedKept (s.shedPort p) := by
  unfold State.shedPort
  extract_lets c cut s₁ s₂
  have h₁ : s.shedKept s₁ := s.onPort_shedKept p
  have h₂ : s₁.shedKept s₂ := (s₁.onPort_shedKept p).trans (State.onPort_shedKept _ p)
  exact (h₁.trans h₂).trans (State.shedKept_of_ports rfl rfl)

theorem State.shedCuts_shedKept (n : Nat) (s : State) : s.shedKept (State.shedCuts n s) := by
  induction n generalizing s with
  | zero => exact s.shedKept_refl
  | succ n ih =>
    unfold State.shedCuts
    split
    · exact s.shedKept_refl
    · split
      · exact s.shedKept_refl
      · exact (s.shedPort_shedKept _).trans (ih _)

theorem State.twinNotice_shedKept (s : State) (p : Port) : s.shedKept (s.twinNotice p) := by
  unfold State.twinNotice
  extract_lets q
  refine State.shedKept_ite ?_ (State.shedKept_ite (s.post_shedKept ..) s.shedKept_refl)
  refine State.shedKept.trans (t := s.onPort q _) ?_ (State.post_shedKept ..)
  exact s.onPort_shedKept q

theorem State.shedErr_shedKept (n : Nat) (s : State) : s.shedKept (State.shedErr n s) := by
  induction n generalizing s with
  | zero => exact s.shedKept_refl
  | succ n ih =>
    unfold State.shedErr
    split
    · exact s.shedKept_refl
    · split
      · exact s.shedKept_refl
      next p hp =>
        have hsrc : (s.port p).tc.isSrc = true := (Bool.and_eq_true_iff.1 (List.mem_filter.1 (shedFirst_mem hp)).2).1
        have he : s.shedKept (s.errRecov p) :=
          ⟨s.errRecov_pathKept p, fun q hq => by rw [s.errRecov_port_ne (by rintro rfl; simp [hsrc] at hq)]⟩
        exact (he.trans (State.twinNotice_shedKept _ p)).trans (ih _)

theorem State.onPorts_shedKept (s : State) {f : PortState → PortState} (hf : ∀ x, (f x).path = x.path ∧ (f x).tc = x.tc) :
    s.shedKept (s.onPorts f) :=
  ⟨⟨s.onPorts_dev f, fun q => by rw [State.onPorts_port, (hf _).1]⟩, fun q _ => by rw [State.onPorts_port, (hf _).2]⟩

theorem State.withCis_shedKept (s : State) (c : Cis) : s.shedKept { s with cis := c } := State.shedKept_of_ports rfl rfl

theorem State.shedEnd_shedKept (s : State) : s.shedKept s.shedEnd := by
  have h : s.shedKept (s.onPorts fun x => { x with pd := { x.pd with cut := 0 } }) := s.onPorts_shedKept fun _ => ⟨rfl, rfl⟩
  unfold State.shedEnd
  exact State.shedKept_ite (h.trans (State.withCis_shedKept _ _)) s.shedKept_refl

theorem State.shed_shedKept (s : State) : s.shedKept s.shed := by
  unfold State.shed
  extract_lets t
  have h : s.shedKept t := s.shedCuts_shedKept 48
  exact (State.shedKept_ite (h.trans (t.shedErr_shedKept 48)) h).trans (State.shedEnd_shedKept _)

/-- A change of the ledger does to the power path what the change itself does, and to the connection of a port that it leaves no
source. -/
theorem State.ledgerOf_shedKept (s : State) (p : Port) (f : State → State) : (f s).shedKept (s.ledgerOf p f) := by
  unfold State.ledgerOf State.ledger
  have h : (f s).shedKept ((f s).noteFree s.free) := by
    unfold State.noteFree
    exact State.shedKept_ite (State.shedKept_of_ports rfl rfl) (State.shedKept_refl _)
  exact ((h.trans (State.shed_shedKept _)).trans (State.shedKept_of_ports rfl rfl)).trans (State.shedKept_of_ports rfl rfl)

end Sys2Proof.Machine
end

section
/-! SUPPORT. A port fault state that a port enters which is not attached, and no reset waits for the limp PI. -/

namespace Sys2Proof.Machine

variable {s t u : State} {p q : Port}

theorem State.Same.trans (h : s.Same t) (k : t.Same u) : s.Same u := by simp_all only [State.Same, and_self]

theorem State.Same.memKept (h : s.Same t) : s.memKept t := by
  obtain ⟨ht, hp, hm, -⟩ := h
  exact ⟨fun _ => by rw [ht], fun _ => by rw [hp], fun _ => by rw [hm]⟩

/-! ## The stage is halted (R223) -/

/-- A halted stage changes a port only in its stage, its loop slot and what coincides with them, and no DEN rises. -/
def PortState.halted (x y : PortState) : Prop :=
  ∃ g l r, y = { x with stg := g, loop := l, prior := r } ∧ (g.den = true → x.stg.den = true)

theorem PortState.halted_refl (x : PortState) : x.halted x := ⟨_, _, _, rfl, id⟩

theorem PortState.halted.trans {x y z : PortState} (h : x.halted y) (k : y.halted z) : x.halted z := by
  obtain ⟨g, l, r, rfl, hg⟩ := h
  obtain ⟨g', l', r', rfl, hg'⟩ := k
  exact ⟨g', l', r', rfl, fun h => hg (hg' h)⟩

theorem State.onPort_halted (s : State) (p q : Port) {f : PortState → PortState} (hf : ∀ x : PortState, x.halted (f x)) :
    (s.port q).halted ((s.onPort p f).port q) := by
  rw [State.onPort_port]
  split
  next h => exact h ▸ hf _
  next => exact PortState.halted_refl _

theorem PortState.halted.cfg {x y : PortState} (h : x.halted y) : y.cfg = x.cfg := by
  obtain ⟨_, _, _, rfl, -⟩ := h
  rfl

theorem State.stageOf_congr (h : (t.port p).cfg = (s.port p).cfg) : t.stageOf p = s.stageOf p := by simp [State.stageOf, h]

/-- A port whose hand no longer holds its stage on. -/
def PortState.unhold (x : PortState) : PortState := { x with stg := { x.stg with hold := false } }

/-- The port of a stage that is halted. -/
def PortState.halt (x : PortState) : PortState :=
  { x with
    prior := none
    stg := x.stg.halt
    loop := if x.loop.manPend then { x.loop with auto := false, host := true, manPend := false, preset := false, ready := false
                                                 trig := false, held := false }
            else { x.loop with ready := false, trig := false, held := false } }

/-- No hand holds the stage on any more, and it stops. -/
theorem State.stageHalt_eq (s : State) (p : Port) :
    ∃ t : State, t.dev = s.dev ∧ (∀ q, (s.port q).halted (t.port q)) ∧ s.stageHalt p = t.onPort (s.stageOf p) PortState.halt := by
  have hold (x : PortState) : x.halted x.unhold := ⟨_, _, _, rfl, id⟩
  unfold State.stageHalt
  split
  · have h (q : Port) : (s.port q).halted (((s.onPort p .unhold).onPort (sibOf p) .unhold).port q) :=
      (s.onPort_halted p q hold).trans (State.onPort_halted _ (sibOf p) q hold)
    refine ⟨(s.onPort p .unhold).onPort (sibOf p) .unhold, rfl, h, ?_⟩
    rw [← State.stageOf_congr (h p).cfg]
    rfl
  · exact ⟨s, rfl, fun _ => PortState.halted_refl _, rfl⟩

theorem State.stageHalt_port (s : State) (p q : Port) : (s.port q).halted ((s.stageHalt p).port q) := by
  obtain ⟨t, -, h, e⟩ := s.stageHalt_eq p
  refine e ▸ (h q).trans (State.onPort_halted _ _ q fun x => ⟨x.stg.halt, _, _, rfl, ?_⟩)
  simp [Stg.halt]

theorem State.stageHalt_dev (s : State) (p : Port) : (s.stageHalt p).dev = s.dev := by
  obtain ⟨t, h, -, e⟩ := s.stageHalt_eq p
  exact e ▸ h

theorem State.stageHalt_den (s : State) (p : Port) : ((s.stageHalt p).port (s.stageOf p)).stg.den = false := by
  obtain ⟨t, -, -, e⟩ := s.stageHalt_eq p
  rw [e, State.onPort_port_self]
  rfl

theorem State.resetGo_of_not_limpWait (h : (s.port p).cnt.limpWait = false) : s.resetGo p = s := by simp [State.resetGo, h]

theorem State.stageCut_of_not_limpWait (h : (s.port (s.stageOf p)).cnt.limpWait = false) : s.stageCut p = s.stageHalt p := by
  refine State.resetGo_of_not_limpWait ?_
  obtain ⟨g, l, r, hq, -⟩ := s.stageHalt_port p (s.stageOf p)
  rw [hq, h]

/-! ## PHYX (R99, R219) -/

theorem PortState.undo_eq (n : Nat) (x : PortState) : ∃ c m, x.undo n = { x with slc := c, met := m } := by
  unfold PortState.undo
  split <;> exact ⟨_, _, rfl⟩

/-- The stage of a port in PHYX: it is halted or left alone, and of a port in no other fault state alone. -/
theorem State.faultStage_phyx (hw : (s.port (s.stageOf p)).cnt.limpWait = false) :
    s.Same (s.faultStage p .phyx) ∧ (s.port q).halted ((s.faultStage p .phyx).port q) := by
  unfold State.faultStage
  dsimp only
  split
  · exact ⟨⟨rfl, rfl, rfl, rfl, rfl, rfl, rfl⟩, PortState.halted_refl _⟩
  · rw [State.stageCut_of_not_limpWait hw]
    exact ⟨s.stageHalt_kept p, s.stageHalt_port p q⟩

/-- A port that enters a fault state leaves its attachment; its power path stays as it was but for a held stage. -/
theorem State.faultLeave_port (s : State) (p : Port) (k : FaultKind) :
    ((s.faultLeave p k).port p).tc.st = .fault ∧ ((s.faultLeave p k).port p).slc = (s.port p).slc ∧
      ((s.faultLeave p k).port p).cnt = (s.port p).cnt := by
  unfold State.faultLeave
  extract_lets x keep
  generalize hf : (fun s : State => (s.leave p .fault).onPort p _) = f
  obtain ⟨hpath, htc⟩ := s.ledgerOf_shedKept p f
  have hl := s.leave_pathKept p .fault
  have hst : ((f s).port p).tc.st = .fault := by simp [← hf, s.leave_st]
  have hslc : ((f s).port p).slc = (s.port p).slc := by simp [← hf, hl.slc]
  have hcnt : ((f s).port p).cnt = (s.port p).cnt := by simp [← hf, hl.cnt]
  exact ⟨by rw [htc p (by simp [Tc.isSrc, hst]), hst], (hpath.slc p).trans hslc, (hpath.cnt p).trans hcnt⟩

/-- A port whose CC PHY has failed is in FAULT, and its sluice passes nothing, if none did in an earlier fault state. -/
theorem State.fault_phyx (hx : (s.port p).cnt.phyx = false) (hp : (s.port p).cnt.any = true → (s.port p).slc.passing = false)
    (hw : (s.port (s.stageOf p)).cnt.limpWait = false) :
    ((s.fault p .phyx).port p).tc.st = .fault ∧ ((s.fault p .phyx).port p).cnt.phyx = true ∧
      ((s.fault p .phyx).port p).slc.passing = false ∧ s.Same (s.fault p .phyx) := by
  unfold State.fault
  rw [if_neg (by simp [CntP.has, hx])]
  extract_lets sink first s₁ s₂ s₃ s₄
  have h₁ : s.Same s₁ ∧ ∀ q, ∃ c m, s₁.port q = { s.port q with slc := c, met := m } ∧
      (first = false → c = (s.port q).slc) := by
    unfold s₁
    split
    next hf =>
      refine ⟨s.onPort_kept p _, fun q => ?_⟩
      rw [State.onPort_port]
      split
      · obtain ⟨c, m, e⟩ := (s.port p).undo_eq s.dev.aon
        exact ⟨c, m, by simp_all⟩
      · exact ⟨_, _, rfl, fun _ => rfl⟩
    next => exact ⟨⟨rfl, rfl, rfl, rfl, rfl, rfl, rfl⟩, fun _ => ⟨_, _, rfl, fun _ => rfl⟩⟩
  have hg : s₁.stageOf p = s.stageOf p := by
    obtain ⟨c, m, e, -⟩ := h₁.2 p
    exact State.stageOf_congr (by rw [e])
  have hw₁ : (s₁.port (s₁.stageOf p)).cnt.limpWait = false := by
    obtain ⟨c, m, e, -⟩ := h₁.2 (s.stageOf p)
    rw [hg, e, hw]
  obtain ⟨hs₂, g, l, r, e₂, -⟩ := s₁.faultStage_phyx (q := p) hw₁
  obtain ⟨hst, hslc, hcnt⟩ := s₂.faultLeave_port p .phyx
  obtain ⟨c, m, e₁, hc⟩ := h₁.2 p
  have hk : s.Same s₃ := h₁.1.trans (hs₂.trans (s₂.faultLeave_kept p .phyx))
  refine ⟨?_, ?_, ?_, (hk.trans (s₃.onPort_kept p _)).trans (State.postPort_kept ..)⟩
  · simpa [s₄] using hst
  · simp [s₄, CntP.put]
  · cases hf : first with
    | true => simp [s₄, hf, Slc.fault, Slc.passing, SlcState.passing]
    | false =>
      have hany : (s.port p).cnt.any = true := by simpa [first] using hf
      have hs : (s₃.port p).slc = (s.port p).slc := by rw [hslc, e₂, e₁, hc hf]
      simpa [s₄, hf, hs] using hp hany

end Sys2Proof.Machine
end

section
/-! SUPPORT. The obligation on the moves of the connection states, one theorem for each command. -/

namespace Sys2Proof.Machine

variable {s : State} {p : Port}

/-! ## The comparators -/

theorem ccTerminationSeen_unattSrc {cc1 cc2 : Nat} (hr : s.ccRuns p = true) (hf : (s.port p).grd.ccFrame = none)
    (hst : (s.port p).tc.st = .unattSrc) (hrd : (rdPin (s.port p).cfg.rp cc1 cc2).isSome = true) :
    ∃ t, exec (.ccTerminationSeen p cc1 cc2) s = .next t ∧ s.onlyStageYard p t ∧ (t.port p).tc.st = .attwaitSrc ∧
      (t.port p).tc.cc1 = cc1 ∧ (t.port p).tc.cc2 = cc2 ∧ (t.port p).tc.pin = rdPin (s.port p).cfg.rp cc1 cc2 ∧
      (t.port p).pd.stgq = (s.port p).pd.stgq ++ (if (s.port p).slc.low0 then [.start 5000] else []) := by
  refine ⟨_, exec_ccTerminationSeen hr hf, ?_⟩
  rw [State.ccJudge_unattSrc (by simp [Tc.see, hst]) (by simpa [Tc.see] using hrd)]
  extract_lets t
  have ht : s.onlyPortYard p t := (s.seen_only p cc1 cc2).1.trans (State.onPort_post_onlyYard ..)
  have hp : t.port p = { s.port p with tc := ((s.port p).tc.see cc1 cc2).waitSrc (rdPin (s.port p).cfg.rp cc1 cc2) } := by
    simp [t, State.waitSrc, Tc.see]
  have hg : t.stageOf p = s.stageOf p := State.stageOf_congr (by rw [hp])
  simp only [State.seen_port_self]
  split
  next hlow =>
    obtain ⟨l, hl⟩ := t.isetFirst_port p p
    refine ⟨⟨fun q hq hs => ?_, ht.2.trans ((t.isetFirst_globals p).trans (State.onPort_onlyYard _ p _).2)⟩, ?_⟩
    · rw [State.stgCmd, State.onPort_port_ne _ _ _ _ hq, State.isetFirst_port_ne (hg ▸ hs), ht.1 q hq]
    · simp [State.stgCmd, hl, hp, Tc.see, Tc.waitSrc]
  next => exact ⟨⟨fun q hq _ => ht.1 q hq, ht.2⟩, by simp [hp, Tc.see, Tc.waitSrc]⟩

theorem ccTerminationSeen_unattSnk {cc1 cc2 : Nat} (hr : s.ccRuns p = true) (hf : (s.port p).grd.ccFrame = none)
    (hst : (s.port p).tc.st = .unattSnk) (hrp : 200 < cc1 ∧ cc2 ≤ 200 ∨ cc1 ≤ 200 ∧ 200 < cc2) :
    ∃ t, exec (.ccTerminationSeen p cc1 cc2) s = .next t ∧ s.onlyPortYard p t ∧ (t.port p).tc.st = .attwaitSnk ∧
      (t.port p).tc.prp = snkPin (max cc1 cc2) := by
  refine ⟨_, exec_ccTerminationSeen hr hf, ?_⟩
  rw [State.ccJudge_unattSnk (by simp [Tc.see, hst]) (by simp [Tc.rpOne_see hrp])]
  refine ⟨(s.seen_only p cc1 cc2).1.trans (State.onPort_post_onlyYard ..), by simp, by simp [Tc.see]⟩

theorem ccTerminationSeen_attSnk {cc1 cc2 : Nat} (hr : s.ccRuns p = true) (hf : (s.port p).grd.ccFrame = none)
    (hst : (s.port p).tc.st = .attSnk) :
    ∃ t, exec (.ccTerminationSeen p cc1 cc2) s = .next t ∧ s.onlyPort p t ∧ (t.port p).tc.st = .attSnk ∧
      (t.port p).tc.prp = snkPin (max cc1 cc2) := by
  refine ⟨_, exec_ccTerminationSeen hr hf, ?_⟩
  rw [State.ccJudge_attSnk (by simp [Tc.see, hst])]
  rw [State.seen, State.onPort_onPort]
  exact ⟨s.onPort_only p _, by simp [Tc.see, hst], by simp [Tc.see]⟩

/-! ## Toggling and the way back -/

theorem drpToggle_spec (hr : s.ccRuns p = true) (hrole : (s.port p).cfg.role = 2) (hdrp : (s.port p).cfg.drp = true) :
    ((s.port p).tc.st = .unattSrc → ∃ t, exec (.drpToggle p) s = .next t ∧ s.onlyPortYard p t ∧ (t.port p).tc.st = .unattSnk) ∧
    ((s.port p).tc.st = .unattSnk →
      ∃ t, exec (.drpToggle p) s = .next t ∧ s.onlyPortYard p t ∧ (t.port p).tc.st = .unattSrc) := by
  have he : exec (.drpToggle p) s = execDrpToggle p s := rfl
  constructor <;> intro hst <;> rw [he] <;> unfold execDrpToggle <;> simp only [hr, hrole, hdrp, hst, decide_true, Bool.and_self, if_true]
  · exact ⟨_, rfl, s.onPort_post_onlyYard .., by simp [Tc.fresh]⟩
  · exact ⟨_, rfl, s.onPort_post_onlyYard .., by simp [Tc.fresh]⟩

theorem errRecovEnd_spec (hw : s.works p = true) (hst : (s.port p).tc.st = .errRecov) :
    ∃ t, exec (.errRecovEnd p) s = .next t ∧ s.onlyPortYard p t ∧
      (t.port p).tc.st = (if (s.port p).grd.off then .guardOff else unattOf (s.port p).cfg.role) := by
  refine ⟨s.toUnatt p, ?_, s.toUnatt_only p, s.toUnatt_st p⟩
  show execErrRecovEnd p s = _
  simp [execErrRecovEnd, hw, hst]

theorem selftestResult_pass (hw : s.works p = true) (hst : (s.port p).tc.st = .selftest) :
    ∃ t, exec (.selftestResult p true) s = .next t ∧ s.onlyPortYard p t ∧
      (t.port p).tc.st = (if (s.port p).grd.off then .guardOff else unattOf (s.port p).cfg.role) := by
  refine ⟨s.toUnatt p, ?_, s.toUnatt_only p, s.toUnatt_st p⟩
  show execSelftestResult p true s = _
  simp [execSelftestResult, hw, hst]

theorem selftestResult_fail (hw : s.works p = true) (hst : (s.port p).tc.st = .selftest) (hx : (s.port p).cnt.phyx = false)
    (hp : (s.port p).cnt.any = true → (s.port p).slc.passing = false) (hl : (s.port (s.stageOf p)).cnt.limpWait = false) :
    ∃ t, exec (.selftestResult p false) s = .next t ∧ (t.port p).tc.st = .fault ∧ (t.port p).cnt.phyx = true ∧
      (t.port p).slc.passing = false ∧ s.memKept t := by
  have hk : s.pathKept (s.tcEvt p 4) := s.onPort_pathKept p
  have hg : (s.tcEvt p 4).stageOf p = s.stageOf p := State.stageOf_congr (hk.cfg p)
  obtain ⟨hf, hc, hs, hm⟩ := State.fault_phyx (s := s.tcEvt p 4) (p := p) (by rw [hk.cnt, hx]) (by rwa [hk.cnt, hk.slc])
    (by rw [hg, hk.cnt, hl])
  refine ⟨_, ?_, hf, hc, hs, ((s.tcEvt_kept p 4).trans hm).memKept⟩
  show execSelftestResult p false s = _
  simp [execSelftestResult, hw, hst, State.faultOn, State.tcEvt, Tc.attached, Tc.isSrc, Tc.isSnk]

/-! ## VCONN -/

theorem vconnOvercurrent_spec (hw : s.works p = true) (hv : (s.port p).tc.vconn = true) :
    ∃ t, exec (.vconnOvercurrent p) s = .next t ∧ s.onlyPort p t ∧ (t.port p).tc.vconn = false ∧ (t.port p).tc.vcoc = true ∧
      (t.port p).tc.dis = ((s.port p).tc.vconnOff s.dev.aon).dis ∧ (t.port p).tc.evt = setBit (s.port p).tc.evt 3 := by
  have he : exec (.vconnOvercurrent p) s =
      .next (((s.onPort p fun x => { x with tc := { x.tc.vconnOff s.dev.aon with vcoc := true } }).tcEvt p 3).tcCnt p 3) := by
    show execVconnOvercurrent p s = _
    simp [execVconnOvercurrent, hw, hv]
  refine ⟨_, he, ?_⟩
  simp only [State.tcEvt, State.tcCnt, State.onPort_onPort, State.onPort_port_self]
  exact ⟨s.onPort_only p _, by simp [Tc.vconnOff], by simp, by simp, by simp [Tc.vconnOff]⟩

/-- VCONN_IN of a die is low or stands. -/
def Dev.vconnIn (d : Dev) (w : WDie) (b : Bool) : Dev :=
  match w with
  | .w0 => { d with vconnIn0 := b }
  | .w1 => { d with vconnIn1 := b }

theorem vconnInLow_spec (s : State) (d : WDie) :
    ∃ t, exec (.vconnInLow d) s = .next t ∧ t = { s with dev := t.dev, ports := t.ports } ∧ t.dev = s.dev.vconnIn d false ∧
      ∀ q, t.port q = (if dieOf q = d ∧ (s.port q).tc.vconn = true then { s.port q with tc := (s.port q).tc.vconnOff s.dev.aon }
        else s.port q) := by
  have he : exec (.vconnInLow d) s = .next ({ s with dev := s.dev.vconnIn d false }.forPorts (allPorts.filter fun p => dieOf p = d)
      fun s p => if (s.port p).tc.vconn then s.onPort p fun x => { x with tc := x.tc.vconnOff s.dev.aon } else s) := by
    cases d <;> rfl
  generalize hf : (fun (s : State) (p : Port) => if (s.port p).tc.vconn then _ else s) = f at he
  have hrec (u : State) (l : List Port) : ∃ v, u.forPorts l f = { u with ports := v } := by
    subst hf
    exact u.forPorts_onPort_eq l (fun s p => (s.port p).tc.vconn) fun s x => { x with tc := x.tc.vconnOff s.dev.aon }
  have hne (s : State) (p q : Port) (h : q ≠ p) : (f s p).port q = s.port q := by
    subst hf
    dsimp only
    split
    · exact s.onPort_port_ne p q _ h
    · rfl
  generalize hu : ({ s with dev := s.dev.vconnIn d false } : State) = u at he
  obtain ⟨v, hv⟩ := hrec u (allPorts.filter fun p => dieOf p = d)
  refine ⟨_, he, by rw [hv, ← hu], by rw [hv, ← hu], fun q => ?_⟩
  have hport : u.port q = s.port q := by rw [← hu]; rfl
  by_cases hd : dieOf q = d
  · have hmem : q ∈ allPorts.filter fun p => dieOf p = d := List.mem_filter.2 ⟨mem_allPorts q, decide_eq_true hd⟩
    obtain ⟨l, -, hs, hq⟩ := State.forPorts_port_of_mem hne (nodup_filter_allPorts _) hmem u
    obtain ⟨w, hw⟩ := hrec u l
    have haon : (u.forPorts l f).dev.aon = s.dev.aon := by rw [hw, ← hu]; cases d <;> rfl
    rw [hq, ← hf]
    dsimp only
    rw [hf, hs, hport, haon]
    by_cases hv : (s.port q).tc.vconn = true <;> simp [hd, hv, hs, hport]
  · rw [State.forPorts_port_of_notMem hne (by simp [hd]), hport]
    simp [hd]

/-! ## The obligation -/

/-- Settles O1: each command's theorem above; the two unattached sides of a pin differ in what their comparators look for, and a failed
self-test enters a port fault state that cuts the power path. -/
theorem connectionMoves : Obligations.ConnectionMoves := by
  unfold Obligations.ConnectionMoves
  refine ⟨fun s p cc1 cc2 hr hf =>
      ⟨ccTerminationSeen_unattSrc hr hf, ccTerminationSeen_unattSnk hr hf, ccTerminationSeen_attSnk hr hf⟩,
    fun s p => ⟨drpToggle_spec, errRecovEnd_spec, fun hw hst => ⟨selftestResult_pass hw hst, selftestResult_fail hw hst⟩⟩,
    fun s p d => ⟨vconnOvercurrent_spec, ?_, ?_⟩⟩
  · cases d <;> exact vconnInLow_spec s _
  · cases d <;> rfl

end Sys2Proof.Machine
end

section
/-! SUPPORT. The obligation on the sluice's requests and on VAUX. -/

namespace Sys2Proof.Machine

variable {s t u : State} {p q : Port}

/-! ## A ramp (R196) -/

/-- A change of the sluice alone, or of what a ramp of the same microsecond found. -/
def PortState.sluiced (x y : PortState) : Prop :=
  ∃ c w, y = { x with slc := c, slcWas := w } ∧ c.onReq = x.slc.onReq ∧ c.sink = x.slc.sink

/-- What the start of a ramp asks for (R196, R49). -/
def State.mayRamp (s : State) (p : Port) : Bool :=
  s.works p && decide ((s.port p).slc.st = .off) && (s.port p).slc.onReq && s.dev.vauxOk && !(s.port p).slc.offRun &&
    !(s.port p).cnt.any && ((s.port p).slc.sink || ((s.port (s.stageOf p)).stg.den && in5V (s.port (s.stageOf p)).vbsMv)) &&
    s.dev.stop.isNone

theorem State.slcTo_onlyYard (s : State) (p : Port) (f : Slc → Slc) : s.onlyPortYard p (s.slcTo p f) := s.onPort_post_onlyYard ..

theorem State.slcTo_port (s : State) (p q : Port) (f : Slc → Slc) :
    (s.slcTo p f).port q = (s.onPort p fun x => { x with slc := f x.slc }).port q := rfl

theorem State.tryRamp_of_not (h : s.mayRamp p = false) : s.tryRamp p = s := by
  unfold State.tryRamp
  extract_lets x a b
  split
  next hm => exact absurd (show s.mayRamp p = true from hm) (by simp [h])
  next => rfl

/-- A ramp begins in its first phase; nothing outside port p and the yard changes. -/
theorem State.tryRamp_of (h : s.mayRamp p = true) :
    s.onlyPortYard p (s.tryRamp p) ∧ (s.port p).sluiced ((s.tryRamp p).port p) ∧
      ((s.tryRamp p).port p).slc.st = .ramp ∧ ((s.tryRamp p).port p).slc.phase = .precharge := by
  have ho (t : State) (f : PortState → PortState) : t.onlyPortYard p (t.onPort p f) := t.onPort_onlyYard p f
  unfold State.tryRamp
  extract_lets x a b
  have ha : s.onlyPortYard p b := ((ho s _).trans (State.slcTo_onlyYard _ p _)).trans (ho a _)
  have hb : (s.port p).sluiced (b.port p) ∧ (b.port p).slc.st = .ramp ∧ (b.port p).slc.phase = .precharge := by
    simp [b, a, State.slcCnt, State.slcTo_port, PortState.keepWas, PortState.sluiced]
  split
  next =>
    split
    · obtain ⟨⟨c, w, e, hc⟩, hst⟩ := hb
      rw [e] at hst
      exact ⟨ha.trans ((ho b _).trans (ho _ _)), by simpa [State.slcEvt, State.slcCnt, PortState.sluiced, e] using ⟨hc, hst⟩⟩
    · exact ⟨ha, hb⟩
  next hm => exact absurd h hm

theorem State.tryRamp_onlyYard (s : State) (p : Port) : s.onlyPortYard p (s.tryRamp p) := by
  cases h : s.mayRamp p with
  | true => exact (State.tryRamp_of h).1
  | false => rw [State.tryRamp_of_not h]; exact s.onlyPortYard_refl p

theorem State.tryRamp_port (s : State) (p : Port) : (s.port p).sluiced ((s.tryRamp p).port p) := by
  cases h : s.mayRamp p with
  | true => exact (State.tryRamp_of h).2.1
  | false => rw [State.tryRamp_of_not h]; exact ⟨_, _, rfl, rfl, rfl⟩

/-! ## The requests (R196, R210) -/

theorem State.popSlc_port (s : State) (p : Port) :
    (s.popSlc p).port p = { s.port p with pd := { (s.port p).pd with slcq := (s.port p).pd.slcq.drop 1 } } := s.onPort_port_self ..

/-- The state as an on request leaves it before the ramp. -/
def State.asked (s : State) (p : Port) : State :=
  (s.popSlc p).onPort p fun x => { x with slc := { x.slc with onReq := true, sink := x.sinkRole } }

theorem exec_sluiceOn {l : List SlcCmd} (h : (s.port p).pd.slcq = .on :: l) : exec (.sluiceOn p) s = .next ((s.asked p).tryRamp p) := by
  show execSluiceOn p s = _
  simp [execSluiceOn, h, State.asked]

theorem State.asked_port {l : List SlcCmd} (h : (s.port p).pd.slcq = .on :: l) :
    (s.asked p).port p = { s.port p with
      pd := { (s.port p).pd with slcq := l }
      slc := { (s.port p).slc with onReq := true, sink := (s.port p).sinkRole } } := by
  simp [State.asked, State.popSlc_port, h, PortState.sinkRole]

theorem State.asked_onlyYard (s : State) (p : Port) : s.onlyPortYard p (s.asked p) :=
  (s.onPort_onlyYard p _).trans (State.onPort_onlyYard _ p _)

theorem sluiceOn_spec {l : List SlcCmd} (h : (s.port p).pd.slcq = .on :: l) :
    ∃ t, exec (.sluiceOn p) s = .next t ∧ s.onlyPortYard p t ∧ (t.port p).slc.onReq = true ∧ (t.port p).pd.slcq = l ∧
      (t.port p).slc.sink = (s.port p).sinkRole := by
  obtain ⟨c, w, e, ho, hs⟩ := (s.asked p).tryRamp_port p
  rw [State.asked_port h] at e ho hs
  exact ⟨_, exec_sluiceOn h, (s.asked_onlyYard p).trans (State.tryRamp_onlyYard ..), by rw [e]; exact ho, by rw [e],
    by rw [e]; exact hs⟩

theorem sluiceOn_ramp {l : List SlcCmd} (h : (s.port p).pd.slcq = .on :: l) (hw : s.works p = true) (hst : (s.port p).slc.st = .off)
    (hv : s.dev.vauxOk = true) (ho : (s.port p).slc.offRun = false) (hc : (s.port p).cnt.any = false) (hd : s.dev.stop = none)
    (hup : (s.port p).sinkRole = true ∨ (s.port (s.stageOf p)).stg.den = true ∧ in5V (s.port (s.stageOf p)).vbsMv = true) :
    ∃ t, exec (.sluiceOn p) s = .next t ∧ (t.port p).slc.st = .ramp ∧ (t.port p).slc.phase = .precharge := by
  refine ⟨_, exec_sluiceOn h, (State.tryRamp_of (s := s.asked p) ?_).2.2⟩
  have hp := State.asked_port h
  have hg : (s.asked p).stageOf p = s.stageOf p := State.stageOf_congr (by rw [hp])
  have hstg : ((s.asked p).port (s.stageOf p)).stg = (s.port (s.stageOf p)).stg := by
    by_cases hq : s.stageOf p = p
    · rw [hq, hp]
    · rw [(s.asked_onlyYard p).1 _ hq]
  have hworks : (s.asked p).works p = s.works p := by simp [State.works, State.running, State.lost, State.d2, hp]; rfl
  have hdev : (s.asked p).dev = s.dev := rfl
  simpa [State.mayRamp, hworks, hdev, hp, hg, hstg, hw, hst, hv, ho, hc, hd, PortState.vbsMv] using hup

theorem State.slcOff_onlyYard (s : State) (p : Port) : s.onlyPortYard p (s.slcOff p) := by
  unfold State.slcOff
  extract_lets t
  have h : s.onlyPortYard p t := s.onPort_onlyYard p _
  split
  · exact h.trans (State.slcTo_onlyYard ..)
  · exact h.trans (State.slcTo_onlyYard ..)
  · exact h.trans (State.slcTo_onlyYard ..)
  · exact h.trans (State.onPort_onlyYard ..)
  · exact h.trans (State.slcTo_onlyYard ..)
  · exact h

/-- Where an off request finds the sluice, and where it leaves it. -/
def Slc.offSt (c : Slc) : SlcState := if c.passing then .discharge else if c.st = .retryWait then .off else c.st

/-- An off request changes a port in its sluice alone. -/
theorem State.slcOff_port (s : State) (p : Port) :
    ∃ c, (s.slcOff p).port p = { s.port p with slc := c } ∧ c.onReq = false ∧ c.st = (s.port p).slc.offSt := by
  unfold State.slcOff
  extract_lets t x
  have h : t.port p = { s.port p with slc := { (s.port p).slc with onReq := false, retry := false } } := by simp [t]
  cases hc : (s.port p).slc.st <;>
    simp [x, hc, h, State.slcTo_port, Slc.discharge, Slc.offSt, Slc.passing, SlcState.passing]

theorem sluiceOff_spec {l : List SlcCmd} (h : (s.port p).pd.slcq = .off :: l) :
    ∃ t, exec (.sluiceOff p) s = .next t ∧ s.onlyPortYard p t ∧ (t.port p).slc.onReq = false ∧ (t.port p).pd.slcq = l ∧
      (t.port p).slc.st = (s.port p).slc.offSt := by
  have he : exec (.sluiceOff p) s = .next ((s.popSlc p).slcOff p) := by
    show execSluiceOff p s = _
    simp [execSluiceOff, h]
  obtain ⟨c, e, ho, hc⟩ := (s.popSlc p).slcOff_port p
  rw [State.popSlc_port] at e hc
  refine ⟨_, he, (s.onPort_onlyYard p _).trans (State.slcOff_onlyYard ..), by rw [e]; exact ho, by simp [e, h], by rw [e]; exact hc⟩

theorem ilimActChange_spec {l : List SlcCmd} {n : Nat} (h : (s.port p).pd.slcq = .ilim n :: l) :
    ∃ t, exec (.ilimActChange p) s = .next t ∧ s.onlyPort p t ∧ (t.port p).slc = { (s.port p).slc with ilim := n } ∧
      (t.port p).pd.slcq = l := by
  have he : exec (.ilimActChange p) s =
      .next ((s.popSlc p).onPort p fun x => { x with slc := { x.slc with ilim := n } }) := by
    show execIlimActChange p s = _
    simp [execIlimActChange, h]
  refine ⟨_, he, ?_⟩
  rw [State.popSlc, State.onPort_onPort]
  exact ⟨s.onPort_only p _, by simp, by simp [h]⟩

end Sys2Proof.Machine
end

section
/-! SUPPORT. The loss of VAUX: no sluice begins to pass and no stage begins to run in what it sets off, a port reset that waited for the
limp PI included (R30, R215, R394). -/

namespace Sys2Proof.Machine

variable {s t u : State} {p q : Port} {x y z : PortState}

/-- No more conducts or runs in y than in x, and the options are the same. -/
def PortState.quieter (x y : PortState) : Prop :=
  y.cfg = x.cfg ∧ (y.slc.passing = true → x.slc.passing = true) ∧ (y.stg.den = true → x.stg.den = true)

theorem PortState.quieter_refl (x : PortState) : x.quieter x := ⟨rfl, id, id⟩

theorem PortState.quieter.trans (h : x.quieter y) (k : y.quieter z) : x.quieter z :=
  ⟨k.1.trans h.1, fun n => h.2.1 (k.2.1 n), fun n => h.2.2 (k.2.2 n)⟩

theorem PortState.halted.quieter (h : x.halted y) : x.quieter y := by
  obtain ⟨g, l, r, rfl, hg⟩ := h
  exact ⟨rfl, id, hg⟩

/-- No more conducts or runs in t than in s. -/
def State.quieter (s t : State) : Prop := t.dev = s.dev ∧ ∀ q, (s.port q).quieter (t.port q)

theorem State.quieter_refl (s : State) : s.quieter s := ⟨rfl, fun _ => PortState.quieter_refl _⟩

theorem State.quieter.trans (h : s.quieter t) (k : t.quieter u) : s.quieter u :=
  ⟨k.1.trans h.1, fun q => (h.2 q).trans (k.2 q)⟩

theorem State.pathKept.quieter (h : s.pathKept t) : s.quieter t :=
  ⟨h.1, fun q => ⟨h.cfg q, by rw [h.slc]; exact id, by rw [h.stg]; exact id⟩⟩

theorem State.onPort_quieter (s : State) (p : Port) {f : PortState → PortState} (hf : (s.port p).quieter (f (s.port p))) :
    s.quieter (s.onPort p f) :=
  ⟨rfl, fun q => by
    rw [State.onPort_port]
    split
    next h => exact h ▸ hf
    next => exact PortState.quieter_refl _⟩

theorem State.stageHalt_quieter (s : State) (p : Port) : s.quieter (s.stageHalt p) :=
  ⟨s.stageHalt_dev p, fun q => (s.stageHalt_port p q).quieter⟩

theorem Slc.offSt_passing (c : Slc) : c.offSt.passing = false := by
  unfold Slc.offSt
  split
  · rfl
  next h => split <;> simp_all [Slc.passing, SlcState.passing]

theorem State.slcOff_quieter (s : State) (p : Port) : s.quieter (s.slcOff p) := by
  obtain ⟨h, hd, -⟩ := s.slcOff_onlyYard p
  refine ⟨hd, fun q => ?_⟩
  by_cases hq : q = p
  · obtain ⟨c, e, -, hc⟩ := s.slcOff_port p
    rw [hq, e]
    exact ⟨rfl, by simp [Slc.passing, hc, Slc.offSt_passing], id⟩
  · rw [h q hq]
    exact PortState.quieter_refl _

/-- A sluice in a fault state passes nothing. -/
theorem Slc.fault_passing (c : Slc) (k : FaultKind) (sink : Bool) : (c.fault k sink).passing = false := by
  cases k with
  | limp => cases h : c.st <;> simp [Slc.fault, h, Slc.passing, SlcState.passing]
  | _ => rfl

/-- A port reset lets no sluice pass that did not. -/
theorem PortState.beginReset_passing (x : PortState) (h : x.beginReset.slc.passing = true) : x.slc.passing = true := by
  simp only [PortState.beginReset] at h
  split at h
  · simp [Slc.fault_passing] at h
  · split at h
    · simp [Slc.passing, SlcState.passing] at h
    · exact h

theorem PortState.beginReset_quieter (x : PortState) (n : Nat) :
    x.quieter { x.beginReset with slc := { x.beginReset.slc with gateAt := n } } :=
  ⟨rfl, x.beginReset_passing, id⟩

theorem State.resetRun_quieter (s : State) (p : Port) : s.quieter (s.resetRun p) := by
  unfold State.resetRun
  extract_lets s₁ s₂ kept s₃
  have h₁ : s.quieter s₁ := ((s.leave_pathKept p _).trans (s.ledgerOf_shedKept p _).1).quieter
  have h₂ : s₁.quieter s₂ := by
    have ha : s₁.pathKept (s₁.abortSamples p) := by
      refine State.pathKept.with (t := s₁.onPort p fun x => { x with loop := { x.loop with running := false } }) ?_ rfl rfl
      exact s₁.onPort_pathKept p
    have hd : (s₁.abortSamples p).pathKept ((s₁.abortSamples p).yardDrop p) := (State.disarmAll_pathKept _ p).with rfl rfl
    have hc : ((s₁.abortSamples p).yardDrop p).pathKept (((s₁.abortSamples p).yardDrop p).slotClear p) :=
      (State.pathKept_refl _).with rfl rfl
    exact ((ha.trans hd).trans hc).quieter.trans (State.slcOff_quieter _ p)
  have h₃ : s₂.quieter s₃ := by
    unfold s₃
    split
    · exact s₂.quieter_refl
    · exact s₂.stageHalt_quieter p
  exact ((h₁.trans h₂).trans h₃).trans (s₃.onPort_quieter p (PortState.beginReset_quieter ..))

theorem State.resetGo_quieter (s : State) (p : Port) : s.quieter (s.resetGo p) := by
  unfold State.resetGo
  split
  · exact (s.resetRun_quieter p).trans (State.twinNotice_shedKept _ p).1.quieter
  · exact s.quieter_refl

theorem State.stageCut_quieter (s : State) (p : Port) : s.quieter (s.stageCut p) :=
  (s.stageHalt_quieter p).trans (State.resetGo_quieter _ _)

end Sys2Proof.Machine
end

section
/-! SUPPORT. VAUX low and back, and the obligation on the sluice's requests (R30, R215). -/

namespace Sys2Proof.Machine

variable {s t u : State} {p q : Port}

/-! ## VAUX low -/

/-- What VAUX low does to one port. -/
def State.vauxCut (s : State) (p : Port) : State :=
  let s := (s.slcEvt p 7).slcCnt p 7
  let s := s.stageCut p
  if (s.port p).slc.passing then
    (s.slcTo p (Slc.discharge s.dev.aon)).onPort p fun x => { x with pd := { x.pd with lost := true } }
  else s

theorem exec_vauxLow (s : State) :
    exec .vauxLow s = .next ({ s with dev := { s.dev with vauxOk := false } }.forPorts
      (allPorts.filter fun p => (s.port p).live && !s.lost p) State.vauxCut) := rfl

theorem State.slcTo_quieter (s : State) (p : Port) {f : Slc → Slc} (hf : (f (s.port p).slc).passing = false) :
    s.quieter (s.slcTo p f) := by
  have h : s.quieter (s.onPort p fun x => { x with slc := f x.slc }) := s.onPort_quieter p ⟨rfl, by simp [hf], id⟩
  exact h.trans ⟨rfl, fun _ => PortState.quieter_refl _⟩

theorem State.vauxCut_quieter (s : State) (p : Port) :
    s.quieter (s.vauxCut p) ∧ ((s.vauxCut p).port p).slc.passing = false ∧ ((s.vauxCut p).port (s.stageOf p)).stg.den = false := by
  unfold State.vauxCut
  extract_lets s₁ s₂
  have h₁ : s.quieter s₁ := (s.onPort_quieter p ⟨rfl, id, id⟩).trans (State.onPort_quieter _ p ⟨rfl, id, id⟩)
  have hg : s₁.stageOf p = s.stageOf p := State.stageOf_congr (h₁.2 p).1
  have hden : (s₂.port (s.stageOf p)).stg.den = false := by
    have h := ((s₁.stageHalt p).resetGo_quieter (s₁.stageOf p)).2 (s.stageOf p)
    have hd := s₁.stageHalt_den p
    rw [hg] at hd
    exact Bool.eq_false_iff.2 fun hn => by simpa [hd] using h.2.2 hn
  have h₂ : s.quieter s₂ := h₁.trans (s₁.stageCut_quieter p)
  split
  next hp =>
    have hq : s₂.quieter ((s₂.slcTo p (Slc.discharge s₂.dev.aon)).onPort p fun x => { x with pd := { x.pd with lost := true } }) :=
      (s₂.slcTo_quieter p rfl).trans (State.onPort_quieter _ p ⟨rfl, id, id⟩)
    refine ⟨h₂.trans hq, ?_, Bool.eq_false_iff.2 fun hn => by simpa [hden] using (hq.2 _).2.2 hn⟩
    simp [State.slcTo_port, Slc.discharge, Slc.passing, SlcState.passing]
  next hp => exact ⟨h₂, Bool.eq_false_iff.2 hp, hden⟩

/-- From s to t no memory and no fault state of a port changes. -/
def State.cntKept (s t : State) : Prop := s.Same t ∧ ∀ q, (t.port q).cnt = (s.port q).cnt

theorem State.cntKept.trans (h : s.cntKept t) (k : t.cntKept u) : s.cntKept u :=
  ⟨h.1.trans k.1, fun q => (k.2 q).trans (h.2 q)⟩

theorem State.onPort_cntKept (s : State) (p : Port) {f : PortState → PortState} (hf : (f (s.port p)).cnt = (s.port p).cnt) :
    s.cntKept (s.onPort p f) :=
  ⟨s.onPort_kept p f, fun q => by
    rw [State.onPort_port]
    split
    next h => exact h ▸ hf
    next => rfl⟩

theorem State.slcTo_cntKept (s : State) (p : Port) (f : Slc → Slc) : s.cntKept (s.slcTo p f) :=
  ⟨s.slcTo_kept p f, (s.onPort_cntKept p (f := fun x => { x with slc := f x.slc }) rfl).2⟩

/-- Where no port reset waits for the limp PI, VAUX low changes no memory. -/
theorem State.vauxCut_cntKept (p : Port) (hs : ∀ q, (s.port q).cnt.limpWait = false) : s.cntKept (s.vauxCut p) := by
  unfold State.vauxCut
  extract_lets s₁ s₂
  have h₁ : s.cntKept s₁ := (s.onPort_cntKept p rfl).trans (State.onPort_cntKept _ p rfl)
  have h₂ : s₁.cntKept s₂ := by
    unfold s₂
    rw [State.stageCut_of_not_limpWait (by rw [h₁.2, hs])]
    refine ⟨s₁.stageHalt_kept p, fun q => ?_⟩
    obtain ⟨_, _, _, e, -⟩ := s₁.stageHalt_port p q
    rw [e]
  have h : s.cntKept s₂ := h₁.trans h₂
  split
  · exact (h.trans (s₂.slcTo_cntKept p _)).trans (State.onPort_cntKept _ p rfl)
  · exact h

theorem State.forPorts_vauxCut_cntKept (hs : ∀ q, (s.port q).cnt.limpWait = false) (l : List Port) :
    s.cntKept (s.forPorts l State.vauxCut) := by
  induction l generalizing s with
  | nil => exact ⟨⟨rfl, rfl, rfl, rfl, rfl, rfl, rfl⟩, fun _ => rfl⟩
  | cons p l ih =>
    have h := State.vauxCut_cntKept p hs
    exact h.trans (ih fun q => by rw [h.2, hs])

theorem vauxLow_spec (s : State) (p : Port) :
    ∃ t, exec .vauxLow s = .next t ∧ t.dev = { s.dev with vauxOk := false } ∧
      ((∀ q, (s.port q).cnt.limpWait = false) → s.memKept t) ∧
      ((s.port p).live = true → s.lost p = false →
        (t.port p).slc.passing = false ∧ (t.port (s.stageOf p)).stg.den = false) := by
  refine ⟨_, exec_vauxLow s, ?_⟩
  generalize hu : ({ s with dev := { s.dev with vauxOk := false } } : State) = u
  have hport (q : Port) : u.port q = s.port q := by rw [← hu]; rfl
  have hk (v : State) (l : List Port) : v.quieter (v.forPorts l State.vauxCut) :=
    State.forPorts_induct State.quieter_refl State.quieter.trans (fun s p => (s.vauxCut_quieter p).1) v l
  refine ⟨by rw [(hk u _).1, ← hu], fun hs => ?_, fun hl hd => ?_⟩
  · have hsame : s.Same u := by rw [← hu]; exact ⟨rfl, rfl, rfl, rfl, rfl, rfl, rfl⟩
    exact (hsame.trans (State.forPorts_vauxCut_cntKept (fun q => by rw [hport, hs]) _).1).memKept
  · have hmem : p ∈ allPorts.filter fun p => (s.port p).live && !s.lost p :=
      List.mem_filter.2 ⟨mem_allPorts p, by simp [hl, hd]⟩
    obtain ⟨l₁, l₂, -, e⟩ := State.forPorts_at (f := State.vauxCut) hmem u
    have h₁ := hk u l₁
    have h₂ := hk ((u.forPorts l₁ State.vauxCut).vauxCut p) l₂
    obtain ⟨-, hp, hg⟩ := (u.forPorts l₁ State.vauxCut).vauxCut_quieter p
    rw [State.stageOf_congr ((h₁.2 p).1.trans (congrArg _ (hport p)))] at hg
    rw [e]
    exact ⟨Bool.eq_false_iff.2 fun hn => by simpa [hp] using (h₂.2 _).2.1 hn,
      Bool.eq_false_iff.2 fun hn => by simpa [hg] using (h₂.2 _).2.2 hn⟩

/-! ## VAUX is back -/

/-- The start command of a source port, before the ramp. -/
def State.vauxStart (s : State) (p : Port) : State :=
  if (s.port p).tc.isSrc || (decide ((s.port p).tc.st = .attwaitSrc) && (s.port p).slc.low0) then s.stgCmd p (.start 5000) else s

/-- What the return of VAUX does to one port. -/
def State.vauxBack (s : State) (p : Port) : State := (s.vauxStart p).tryRamp p

theorem exec_vauxRecover (s : State) :
    exec .vauxRecover s = .next ({ s with dev := { s.dev with vauxOk := true } }.forPorts
      (allPorts.filter fun p => s.works p) State.vauxBack) := rfl

/-- A change of a port's requests and sluice alone. -/
def PortState.backed (x y : PortState) : Prop := ∃ c w d, y = { x with slc := c, slcWas := w, pd := d }

/-- From s to t only sluices, requests and the yard changed. -/
def State.backed (s t : State) : Prop := s.globalsKept t ∧ ∀ q, (s.port q).backed (t.port q)

theorem State.backed_refl (s : State) : s.backed s := ⟨s.globalsKept_refl, fun _ => ⟨_, _, _, rfl⟩⟩

theorem State.backed.trans (h : s.backed t) (k : t.backed u) : s.backed u :=
  ⟨h.1.trans k.1, fun q => by
    obtain ⟨_, _, _, e⟩ := h.2 q
    obtain ⟨_, _, _, e'⟩ := k.2 q
    exact ⟨_, _, _, e'.trans (by rw [e])⟩⟩

theorem State.vauxStart_port (s : State) (p : Port) : ∃ d, (s.vauxStart p).port p = { s.port p with pd := d } := by
  unfold State.vauxStart
  split
  · exact ⟨_, s.onPort_port_self ..⟩
  · exact ⟨_, rfl⟩

theorem State.vauxStart_onlyYard (s : State) (p : Port) : s.onlyPortYard p (s.vauxStart p) := by
  unfold State.vauxStart
  split
  · exact s.onPort_onlyYard p _
  · exact s.onlyPortYard_refl p

theorem State.vauxBack_onlyYard (s : State) (p : Port) : s.onlyPortYard p (s.vauxBack p) :=
  (s.vauxStart_onlyYard p).trans (State.tryRamp_onlyYard _ p)

theorem State.vauxBack_backed (s : State) (p : Port) : s.backed (s.vauxBack p) := by
  obtain ⟨ho, hg⟩ := s.vauxBack_onlyYard p
  refine ⟨hg, fun q => ?_⟩
  by_cases hq : q = p
  · obtain ⟨d, e⟩ := s.vauxStart_port p
    obtain ⟨c, w, e', -⟩ := (s.vauxStart p).tryRamp_port p
    rw [hq, State.vauxBack, e', e]
    exact ⟨_, _, _, rfl⟩
  · rw [ho q hq]
    exact ⟨_, _, _, rfl⟩

theorem State.backed.mayRamp (h : s.backed t) (hslc : (t.port p).slc = (s.port p).slc) : t.mayRamp p = s.mayRamp p := by
  obtain ⟨⟨hdev, hclk, -⟩, hp⟩ := h
  obtain ⟨_, _, _, e⟩ := hp p
  obtain ⟨_, _, _, eg⟩ := hp (s.stageOf p)
  have hg : t.stageOf p = s.stageOf p := State.stageOf_congr (by rw [e])
  have hcnt : (t.port p).cnt = (s.port p).cnt := by rw [e]
  have hlive : (t.port p).live = (s.port p).live := by rw [e]
  have hstg : (t.port (s.stageOf p)).stg = (s.port (s.stageOf p)).stg := by rw [eg]
  have hlost : t.lost p = s.lost p := by simp [State.lost, State.d2, hclk]
  simp only [State.mayRamp, State.works, State.running, PortState.vbsMv, hdev, hlost, hg, hcnt, hlive, hstg, hslc]

/-- A port that may ramp once VAUX is back does. -/
theorem State.vauxBack_ramp (h : s.mayRamp p = true) : ((s.vauxBack p).port p).slc.st = .ramp := by
  obtain ⟨d, e⟩ := s.vauxStart_port p
  obtain ⟨ho, hg⟩ := s.vauxStart_onlyYard p
  have hb : s.backed (s.vauxStart p) := ⟨hg, fun q => by
    by_cases hq : q = p
    · rw [hq, e]
      exact ⟨_, _, _, rfl⟩
    · rw [ho q hq]
      exact ⟨_, _, _, rfl⟩⟩
  exact (State.tryRamp_of (by rw [hb.mayRamp (by rw [e]), h])).2.2.1

theorem State.vauxBack_kept (s : State) (p : Port) : s.Same (s.vauxBack p) := by
  have h : s.Same (s.vauxStart p) := by
    unfold State.vauxStart
    split
    · exact s.stgCmd_kept p _
    · exact ⟨rfl, rfl, rfl, rfl, rfl, rfl, rfl⟩
  exact h.trans (State.tryRamp_kept _ p)

theorem vauxRecover_spec (s : State) (p : Port) :
    ∃ t, exec .vauxRecover s = .next t ∧ t.dev = { s.dev with vauxOk := true } ∧ s.memKept t ∧
      (s.works p = true → (s.port p).slc.st = .off → (s.port p).slc.onReq = true → (s.port p).slc.offRun = false →
        (s.port p).cnt.any = false → s.dev.stop = none →
        (s.port p).slc.sink = true ∨ (s.port (s.stageOf p)).stg.den = true ∧ in5V (s.port (s.stageOf p)).vbsMv = true →
        (t.port p).slc.st = .ramp) := by
  refine ⟨_, exec_vauxRecover s, ?_⟩
  generalize hu : ({ s with dev := { s.dev with vauxOk := true } } : State) = u
  have hb (l : List Port) : u.backed (u.forPorts l State.vauxBack) :=
    State.forPorts_induct State.backed_refl State.backed.trans State.vauxBack_backed u l
  obtain ⟨hdev, -⟩ := (hb (allPorts.filter fun p => s.works p)).1
  refine ⟨by rw [hdev, ← hu], ?_, fun hw hst hr ho hc hd hup => ?_⟩
  · have hsame : s.Same u := by rw [← hu]; exact ⟨rfl, rfl, rfl, rfl, rfl, rfl, rfl⟩
    exact (hsame.trans (u.forPorts_kept _ _ State.vauxBack_kept)).memKept
  · have hmem : p ∈ allPorts.filter fun p => s.works p := List.mem_filter.2 ⟨mem_allPorts p, hw⟩
    obtain ⟨l, -, hl, e⟩ := State.forPorts_port_of_mem (f := State.vauxBack) (fun s p => (s.vauxBack_onlyYard p).1)
      (nodup_filter_allPorts _) hmem u
    have hmay : u.mayRamp p = true := by
      have hworks : u.works p = s.works p := by rw [← hu]; rfl
      have hport (q : Port) : u.port q = s.port q := by rw [← hu]; rfl
      have hg : u.stageOf p = s.stageOf p := State.stageOf_congr (by rw [hport])
      have hv : u.dev.vauxOk = true ∧ u.dev.stop = none := by rw [← hu]; exact ⟨rfl, hd⟩
      simpa [State.mayRamp, hworks, hport, hg, hv, hw, hst, hr, ho, hc] using hup
    rw [e]
    exact State.vauxBack_ramp (by rw [(hb l).mayRamp (by rw [hl]), hmay])

/-! ## The obligation -/

/-- Settles O4: each request's theorem; VAUX low by the relation that no more conducts or runs, VAUX back by what each port's own step
finds of it. -/
theorem sluiceRequests : Obligations.SluiceRequests := by
  unfold Obligations.SluiceRequests
  exact ⟨fun s p l n => ⟨fun h => ⟨sluiceOn_spec h, sluiceOn_ramp h⟩, sluiceOff_spec, ilimActChange_spec⟩,
    fun s p => ⟨vauxLow_spec s p, vauxRecover_spec s p⟩⟩

end Sys2Proof.Machine
end

section
/-! SUPPORT. Device resets and the stop phase (R32, R47 to R51, R103, R192, R244, R387). -/

namespace Sys2Proof.Machine

variable {s t u : State} {p q : Port}

/-! ## Ports in reset -/

theorem PortState.discharging_eq (x old : PortState) (n : Nat) :
    x.discharging old n = { x with tc := { x.tc with dis := (x.discharging old n).tc.dis } } := rfl

/-- Nothing is discharged at a port that supplied no VCONN and discharged no pin. -/
theorem PortState.discharging_of_none {x old : PortState} (n : Nat) (hx : x.tc.dis = none) (hv : old.tc.vconn = false)
    (hd : old.tc.dis = none) : x.discharging old n = x := by
  have h : (x.discharging old n).tc.dis = x.tc.dis := by simp [PortState.discharging, Tc.vconnOff, hv, hd, hx]
  rw [PortState.discharging_eq, h]

/-- Every port in its reset state, with the discharge that its former state leaves. -/
theorem portsReset_of_discharging (h : ∀ p, t.port p = (PortState.reset p).discharging (s.port p) s.dev.aon) : s.portsReset t := by
  refine ⟨fun p => ?_, fun p hv hd => ?_⟩
  · rw [h, State.reset_port, ← PortState.discharging_eq]
  · rw [h, State.reset_port, PortState.discharging_of_none _ rfl hv hd]

/-! ## Device resets (R47 to R51) -/

/-- What the supervisor shows is frozen where W0 is heard; nothing else changes. -/
theorem State.supFreeze_eq (s : State) : ∃ h, s.supFreeze = { s with sup := { s.sup with held := h } } := by
  unfold State.supFreeze
  split <;> exact ⟨_, rfl⟩

/-- What a device reset of cause n leaves. -/
structure State.WasReset (s t : State) (n : Nat) : Prop where
  phase : t.dev.phase = .reset
  cause : t.dev.rstCause = setBit s.dev.rstCause n
  stop : t.dev.stop = none
  ports : s.portsReset t
  trough : t.trough = ⟨s.trough.stacks, Vector.replicate 48 none⟩
  prog : t.prog = State.reset.prog
  hnd : t.hnd = State.reset.hnd
  aon : t.dev.aon = 0
  sup : t.sup.st = s.sup.st ∧ t.sup.ga = s.sup.ga ∧ t.sup.gb = s.sup.gb
  pending : t.pending = s.pending

theorem State.deviceReset_wasReset (s : State) (n : Nat) : s.WasReset (s.deviceReset n) n := by
  obtain ⟨h, e⟩ := s.supFreeze_eq
  unfold State.deviceReset
  rw [e]
  exact { phase := rfl, cause := rfl, stop := rfl, trough := rfl, prog := rfl, hnd := rfl, aon := rfl, sup := ⟨rfl, rfl, rfl⟩
          pending := rfl
          ports := portsReset_of_discharging fun p => by simp [State.port] }

/-- The external latches keep their image (R192). -/
theorem State.deviceReset_latched (s : State) (n : Nat) : (s.deviceReset n).mux.latched = s.mux.latched := by
  obtain ⟨h, e⟩ := s.supFreeze_eq
  unfold State.deviceReset
  rw [e]

theorem exec_pllLockLost (hs : s.clk.pllS = true) (hh : s.clk.pllH = true) (hc : s.clocked = true) :
    exec .pllLockLost s = .next (s.deviceReset 5) := by
  show execPllLockLost s = _
  simp [execPllLockLost, hs, hh, hc]

/-- The end of the stop phase resets with the all-zero frame in the latches. -/
theorem exec_stopPhaseEnd {n : Nat} (h : n = 3 ∧ s.dev.stop = some .soft ∨ n = 4 ∧ s.dev.stop = some .reload) :
    exec .stopPhaseEnd s = .next (s.muxZero.deviceReset n) := by
  show execStopPhaseEnd s = _
  rcases h with ⟨rfl, h⟩ | ⟨rfl, h⟩ <;> simp [execStopPhaseEnd, h]

theorem State.muxZero_deviceReset_wasReset (s : State) (n : Nat) : s.WasReset (s.muxZero.deviceReset n) n :=
  let h := s.muxZero.deviceReset_wasReset n
  ⟨h.phase, h.cause, h.stop, h.ports, h.trough, h.prog, h.hnd, h.aon, h.sup, h.pending⟩

theorem deviceReset_spec {w : MainSupply} {c : Instr} {n : Nat}
    (h : c = .supplyBelowThreshold w ∧ n = 1 ∨ c = .rstNLow ∧ n = 2 ∨
      c = .pllLockLost ∧ n = 5 ∧ s.clk.pllS = true ∧ s.clk.pllH = true ∧ s.clocked = true ∨
      c = .stopPhaseEnd ∧ (n = 3 ∧ s.dev.stop = some .soft ∨ n = 4 ∧ s.dev.stop = some .reload)) :
    ∃ t, exec c s = .next t ∧ s.WasReset t n ∧ (c = .stopPhaseEnd → t.mux.latched = Vector.replicate 48 0#4) := by
  rcases h with ⟨rfl, rfl⟩ | ⟨rfl, rfl⟩ | ⟨rfl, rfl, hs, hh, hc⟩ | ⟨rfl, hn⟩
  · exact ⟨_, rfl, s.deviceReset_wasReset 1, nofun⟩
  · exact ⟨_, rfl, s.deviceReset_wasReset 2, nofun⟩
  · exact ⟨_, exec_pllLockLost hs hh hc, s.deviceReset_wasReset 5, nofun⟩
  · exact ⟨_, exec_stopPhaseEnd hn, s.muxZero_deviceReset_wasReset n, fun _ => State.deviceReset_latched ..⟩

theorem State.devPins_of_vsbAbsent (h : s.vsbAbsent = true) : s.devPins = DevPins.unpowered := by
  unfold State.devPins
  dsimp only
  rw [if_pos h]

theorem State.portPins_of_vsbAbsent (h : s.vsbAbsent = true) (p : Port) : s.portPins p = PortPins.unpowered := by
  unfold State.portPins
  dsimp only
  rw [if_pos h]

/-- A port that has not been enabled stands in its reset state (R17). -/
theorem State.portPins_of_not_live (h : s.vsbAbsent = false) (hl : (s.port p).live = false) :
    s.portPins p = { PortPins.reset s.dev.vauxOk with dis := s.ccDischarge p } := by
  unfold State.portPins
  dsimp only
  rw [if_neg (by simp [h]), if_pos (by simp [hl])]

theorem standbyPor_spec (s : State) :
    ∃ t, exec .standbyPor s = .next t ∧ t.dev.phase = .reset ∧ t.dev.rstCause = 1#32 ∧ s.portsReset t ∧
      t.trough = State.reset.trough ∧ t.sup = State.reset.sup ∧ t.pending = s.pending ∧
      (t.vsbAbsent = true → t.devPins = DevPins.unpowered ∧ ∀ p, t.portPins p = PortPins.unpowered) ∧
      (t.vsbAbsent = false → ∀ p, t.portPins p = { PortPins.reset s.dev.vauxOk with dis := t.ccDischarge p }) := by
  have he : exec .standbyPor s = execStandbyPor s := rfl
  unfold execStandbyPor at he
  refine ⟨_, he, rfl, rfl, portsReset_of_discharging fun p => by simp [State.port], rfl, rfl, rfl, fun hv => ⟨?_, fun p => ?_⟩,
    fun hv p => ?_⟩
  · exact State.devPins_of_vsbAbsent hv
  · exact State.portPins_of_vsbAbsent hv p
  · exact State.portPins_of_not_live hv (by simp [State.port, PortState.discharging, PortState.reset])

/-! ## The stop phase (R49) -/

theorem State.askTally_eq (s : State) (k : TallyKind) : ∃ m, s.askTally k = { s with mtr := m } := by
  unfold State.askTally
  extract_lets soon
  split <;> exact ⟨_, rfl⟩

theorem State.slcOff_passing (s : State) (p : Port) : ((s.slcOff p).port p).slc.passing = false := by
  obtain ⟨c, e, -, hc⟩ := s.slcOff_port p
  rw [e]
  exact (congrArg SlcState.passing hc).trans (Slc.offSt_passing _)

theorem State.stopPhase_eq (c : StopCause) (h : s.dev.stop = none) :
    s.stopPhase c =
      ({ s with dev := { s.dev with stop := some c }, mux := { s.mux with zero := true } }.forPorts
        (allPorts.filter fun p => (s.port p).live) State.slcOff).askTally .stop := by
  unfold State.stopPhase
  rw [if_neg (by simp [h])]
  rfl

/-- A stop phase begins: the all-zero frame is due, and no sluice of a live port passes. -/
theorem State.stopPhase_spec (c : StopCause) (h : s.dev.stop = none) (p : Port) :
    (s.stopPhase c).dev.stop = some c ∧ (s.stopPhase c).mux.zero = true ∧
      ((s.port p).live = true → ((s.stopPhase c).port p).slc.passing = false) := by
  rw [State.stopPhase_eq c h]
  generalize hu : ({ s with dev := { s.dev with stop := some c }, mux := { s.mux with zero := true } } : State) = u
  obtain ⟨m, e⟩ := (u.forPorts (allPorts.filter fun p => (s.port p).live) State.slcOff).askTally_eq .stop
  have hg : u.globalsKept (u.forPorts (allPorts.filter fun p => (s.port p).live) State.slcOff) :=
    State.forPorts_induct State.globalsKept_refl State.globalsKept.trans (fun s p => (s.slcOff_onlyYard p).2) u _
  obtain ⟨hdev, -, -, -, -, -, -, -, -, -, -, hmux, -⟩ := hg
  rw [e]
  refine ⟨by rw [hdev, ← hu], by rw [hmux, ← hu], fun hl => ?_⟩
  obtain ⟨l, -, -, ep⟩ := State.forPorts_port_of_mem (f := State.slcOff) (fun s p => (s.slcOff_onlyYard p).1)
    (nodup_filter_allPorts fun p => (s.port p).live) (List.mem_filter.2 ⟨mem_allPorts p, hl⟩) u
  show ((u.forPorts _ State.slcOff).port p).slc.passing = false
  rw [ep]
  exact State.slcOff_passing _ p

theorem State.locked_open (b : Bool) (f : State → State) (h : s.dev.unlock = true) : s.locked b f = f s := by
  simp [State.locked, h]

theorem State.locked_shut (f : State → State) (h : s.dev.unlock = false) :
    s.locked true f = { s with twi := { s.twi with evt := setBit s.twi.evt 0, cnt := bump s.twi.cnt 2 } } := by
  simp [State.locked, h]

section
variable {w : Word} (hv : s.served = true) (hc : s.twi.commits = [])
include hv hc

theorem devRst_spec (hs : s.dev.stop = none) (hu : s.dev.unlock = true) (hw : slice w 0 8 = 0xD5) (p : Port) :
    ∃ t, exec (.devRst w) s = .next t ∧ t.dev.stop = some .soft ∧ t.mux.zero = true ∧
      ((s.port p).live = true → (t.port p).slc.passing = false) := by
  refine ⟨s.stopPhase .soft, ?_, State.stopPhase_spec .soft hs p⟩
  show execDevRst w s = _
  rw [execDevRst, State.hostWrite_alone hc hv, State.wrDevRst, State.locked_open _ _ hu, if_pos hw]

theorem almanacReload_spec (hs : s.dev.stop = none) (hu : s.dev.unlock = true) (hw : slice w 0 8 = 0xA7) (hr : w.getLsbD 31 = false)
    (p : Port) :
    ∃ t, exec (.almanacReload w) s = .next t ∧ t.dev.stop = some .reload ∧ t.mux.zero = true ∧
      ((s.port p).live = true → (t.port p).slc.passing = false) := by
  refine ⟨s.stopPhase .reload, ?_, State.stopPhase_spec .reload hs p⟩
  show execAlmanacReload w s = _
  rw [execAlmanacReload, State.hostWrite_alone hc hv, State.wrAlmCtl, hr]
  exact congrArg _ ((State.locked_open _ _ hu).trans (if_pos hw))

theorem devRst_locked (hu : s.dev.unlock = false) (hw : slice w 0 8 ≠ 0) :
    ∃ t, exec (.devRst w) s = .next t ∧ t.dev = s.dev ∧ t.ports = s.ports ∧ t.twi.evt = setBit s.twi.evt 0 := by
  refine ⟨{ s with twi := { s.twi with evt := setBit s.twi.evt 0, cnt := bump s.twi.cnt 2 } }, ?_, rfl, rfl, rfl⟩
  show execDevRst w s = _
  rw [execDevRst, State.hostWrite_alone hc hv, State.wrDevRst, decide_eq_true hw, State.locked_shut _ hu]

end

/-! ## The obligation -/

/-- Settles O44: a device reset of any cause by what it leaves, the standby power-on reset by its own pins, and the two writes that
begin a stop phase by the lock. -/
theorem deviceResets : Obligations.DeviceResets := by
  unfold Obligations.DeviceResets
  refine ⟨fun s w c n => ⟨fun h => ?_, standbyPor_spec s⟩, fun s p w hv hs hc =>
    ⟨fun hu hw => devRst_spec hv hc hs hu hw p, fun hu hw hr => almanacReload_spec hv hc hs hu hw hr p, devRst_locked hv hc⟩⟩
  obtain ⟨t, he, r, hl⟩ := deviceReset_spec h
  obtain ⟨hst, hga, hgb⟩ := r.sup
  exact ⟨t, he, r.phase, r.cause, r.stop, r.ports, r.trough, r.prog, r.hnd, r.aon, fun _ hc => hl hc, hst, hga, hgb, r.pending⟩

end Sys2Proof.Machine
end

section
/-! SUPPORT. The first steps of start-up: the release of reset, the oscillator, the PLLs and the training of the links (R22, R29, R42 to
R44, R52, R57). -/

namespace Sys2Proof.Machine

variable {s t u : State} {p q : Port}

/-! ## What a transaction of TWM touches (R381 to R384) -/

/-- From s to t nothing but the two-wire targets changed, and no transaction began to wait there or went on. -/
def State.twiOnly (s t : State) : Prop := ∃ w, t = { s with twi := w } ∧ w.stretched = s.twi.stretched

theorem State.twiOnly_refl (s : State) : s.twiOnly s := ⟨_, rfl, rfl⟩

theorem State.twiOnly.trans (h : s.twiOnly t) (k : t.twiOnly u) : s.twiOnly u := by
  obtain ⟨v, rfl, hv⟩ := h
  obtain ⟨w, rfl, hw⟩ := k
  exact ⟨w, rfl, hw.trans hv⟩

theorem State.twiOnly_ite {c : Prop} [Decidable c] (h : s.twiOnly t) (k : s.twiOnly u) : s.twiOnly (if c then t else u) := by
  split <;> assumption

theorem State.answer_twiOnly (s : State) (b : List Byte) (n : Bool) : s.twiOnly (s.answer b n) := ⟨_, rfl, rfl⟩
theorem State.setIndex_twiOnly (s : State) (i : Index) (k : Nat) : s.twiOnly (s.setIndex i k) := ⟨_, rfl, rfl⟩
theorem State.twiEvt_twiOnly (s : State) (i : Nat) : s.twiOnly (s.twiEvt i) := ⟨_, rfl, rfl⟩
theorem State.twiCnt_twiOnly (s : State) (t : Target) (i : Fin 5) : s.twiOnly (s.twiCnt t i) := ⟨_, rfl, rfl⟩

theorem State.afterRead_twiOnly (s : State) (t : Target) (i : Nat) : s.twiOnly (s.afterRead t i) := by
  unfold State.afterRead
  split
  · exact ⟨_, rfl, rfl⟩
  · split
    · split
      · exact ⟨_, rfl, rfl⟩
      · exact s.twiOnly_refl
    · exact s.twiOnly_refl

theorem State.readSeq_twiOnly (s : State) (t : Target) (k : Nat) (f : Nat → Nat) : s.twiOnly (State.readSeq t k f s).2 := by
  induction k generalizing f s with
  | zero => exact s.twiOnly_refl
  | succ k ih => exact (s.afterRead_twiOnly t (f 0)).trans (ih _ _)

theorem State.readBytes_twiOnly (s : State) (t : Target) (n : Nat) (f : Nat → Nat) : s.twiOnly (s.readBytes t n f).2 :=
  s.readSeq_twiOnly t _ f

theorem State.twmStream_twiOnly (s : State) (i : Index) (n : Nat) : s.twiOnly (s.twmStream i n) :=
  (s.readBytes_twiOnly .twm n _).trans ((State.answer_twiOnly ..).trans (State.setIndex_twiOnly ..))

theorem State.twmStreamed_twiOnly (s : State) (i : Index) (n : Nat) : s.twiOnly (s.twmStreamed i n) :=
  State.twiOnly_ite ((s.answer_twiOnly _ _).trans (State.setIndex_twiOnly ..)) (s.twmStream_twiOnly i n)

theorem State.twmCurrent_twiOnly (s : State) (n : Nat) : s.twiOnly (s.twmCurrent n) :=
  State.twiOnly_ite (s.answer_twiOnly _ _) (s.twmStream_twiOnly _ n)

theorem State.twmSetIndex_twiOnly (s : State) (i : Index) : s.twiOnly (s.twmSetIndex i) :=
  (s.answer_twiOnly _ _).trans (State.setIndex_twiOnly ..)

theorem State.twmCounted_twiOnly (s : State) (i : Index) (after : List Byte) (extra : Nat) : s.twiOnly (s.twmCounted i after extra) := by
  have hn : s.twiOnly (s.noAck.setIndex i 0) := (s.answer_twiOnly _ _).trans (State.setIndex_twiOnly ..)
  unfold State.twmCounted
  split
  · exact s.answer_twiOnly _ _
  · refine State.twiOnly_ite hn ?_
    exact (s.readBytes_twiOnly .twm _ _).trans ((State.answer_twiOnly ..).trans (State.setIndex_twiOnly ..))
  · exact hn.trans ((State.twiEvt_twiOnly ..).trans (State.twiCnt_twiOnly ..))

theorem State.twmWrite_twiOnly (s : State) (i : Index) (bytes : List Byte) : s.twiOnly (s.twmWrite i bytes) := by
  unfold State.twmWrite
  extract_lets b s₀ w
  have h₀ : s.twiOnly s₀ := (s.answer_twiOnly _ _).trans (State.setIndex_twiOnly ..)
  split
  next =>
    extract_lets s₁ s₂ s₃
    have h₁ : s.twiOnly s₁ := h₀.trans ⟨s₁.twi, rfl, rfl⟩
    have h₂ : s.twiOnly s₂ := State.twiOnly_ite (h₁.trans (s₁.twiCnt_twiOnly ..)) h₁
    have h₃ : s.twiOnly s₃ := State.twiOnly_ite (h₂.trans (s₂.twiEvt_twiOnly _)) h₂
    exact State.twiOnly_ite (h₃.trans ((s₃.twiEvt_twiOnly _).trans (State.twiCnt_twiOnly ..))) h₃

/-- With no committed word waiting a stretched transaction that goes on touches the two-wire targets alone. -/
theorem State.twmServe_twiOnly (h : s.twi.commits = []) (c : TwmOp) : s.twiOnly (s.twmServe c) := by
  unfold State.twmServe
  rw [State.drain_none h]
  cases c with
  | write i b => exact s.twmWrite_twiOnly i b
  | setIndex i => exact s.twmSetIndex_twiOnly i
  | streamed i n => exact s.twmStreamed_twiOnly i n
  | counted i a e => exact s.twmCounted_twiOnly i a e
  | current n => exact s.twmCurrent_twiOnly n

/-- One stretched transaction at most goes on, and none waits then. -/
theorem State.twmRelease_spec (h : s.twi.commits = []) (hl : s.twi.stretched.length ≤ 1) :
    ∃ w, s.twmRelease = { s with twi := w } ∧ w.stretched = [] := by
  unfold State.twmRelease
  match hs : s.twi.stretched, hl with
  | [], _ => exact ⟨_, rfl, rfl⟩
  | [c], _ =>
    obtain ⟨w, e, hw⟩ := State.twmServe_twiOnly (s := { s with twi := { s.twi with stretched := [] } }) h c
    exact ⟨w, by rw [List.foldl_cons, e]; rfl, hw⟩

/-! ## The steps -/

theorem resetRelease_spec (k : BitVec 3) (h : s.dev.phase = .reset) :
    exec (.resetRelease k true) s = .fault .factoryTestMode ∧
    ∃ t, exec (.resetRelease k false) s = .next t ∧ t.dev.phase = .clock ∧ t.twi.straps = k ∧ t.ports = s.ports ∧
      t.dev.rstCause = s.dev.rstCause ∧ t.dev.vsb = true ∧ t.dev.relUs = s.dev.aon := by
  have he (b : Bool) : exec (.resetRelease k b) s = execResetRelease k b s := rfl
  constructor
  · simp [he, execResetRelease, h]
  · refine ⟨_, (he false).trans ((if_pos h).trans (if_neg Bool.false_ne_true)), rfl, rfl, rfl, rfl, rfl, rfl⟩

theorem startupOscillatorRunning_spec (h : s.dev.phase = .clock) :
    ∃ t, exec .startupOscillatorRunning s = .next t ∧ t.dev.phase = .pll ∧ t.clk.suo = true ∧ t.ports = s.ports := by
  refine ⟨_, (if_pos h : execStartupOscillatorRunning s = _), rfl, rfl, rfl⟩

theorem pllsLocked_spec (h : s.dev.phase = .pll) (hc : s.twi.commits = []) (hl : s.twi.stretched.length ≤ 1) :
    ∃ t, exec .pllsLocked s = .next t ∧ t.dev.phase = .links ∧ t.clk.pllS = true ∧ t.clk.pllH = true ∧ t.ports = s.ports ∧
      t.twi.stretched = [] := by
  obtain ⟨w, e, hw⟩ := State.twmRelease_spec
    (s := { s with dev := { s.dev with phase := .links }, clk := { s.clk with pllS := true, pllH := true } }) hc hl
  exact ⟨_, (if_pos h : execPllsLocked s = _).trans (congrArg _ e), rfl, rfl, rfl, rfl, hw⟩

theorem State.onD2_d2 (s : State) (d : WDie) (f : D2d → D2d) : (s.onD2 d f).d2 d = f (s.d2 d) := by cases d <;> rfl

/-- The end of the link step leaves the links and the ports. -/
theorem State.linksDone_eq (s : State) : s.linksDone.clk = s.clk ∧ s.linksDone.ports = s.ports := by
  unfold State.linksDone
  extract_lets ok
  split <;> exact ⟨rfl, rfl⟩

theorem State.linksDone_d2 (s : State) (d : WDie) : s.linksDone.d2 d = s.d2 d := by
  cases d <;> simp [State.d2, s.linksDone_eq.1]

theorem d2dTraining_spec (d : WDie) (b : Byte) (h : s.dev.phase = .links) (ht : (s.d2 d).trained = false) (hd : (s.d2 d).d2df = false) :
    (∃ t, exec (.d2dTrainingAttemptEnd d true b) s = .next t ∧ (t.d2 d).trained = true ∧ (t.d2 d).ucrev = b ∧
      (t.d2 d).ucode = !Config.ucodeOk b ∧ t.ports = s.ports) ∧
    (∃ t, exec (.d2dTrainingAttemptEnd d false b) s = .next t ∧ (t.d2 d).trained = false ∧
      (t.d2 d).d2df = decide (1 ≤ (s.d2 d).tries) ∧ (t.d2 d).tries = (s.d2 d).tries + 1) := by
  have hc : (decide (s.dev.phase = .links) && !(s.d2 d).trained && !(s.d2 d).d2df) = true := by simp [h, ht, hd]
  have hs (u : State) : (u.supHeard d).d2 d = u.d2 d ∧ (u.supHeard d).ports = u.ports := by cases d <;> exact ⟨rfl, rfl⟩
  have hp (f : D2d → D2d) : (s.onD2 d f).ports = s.ports := by cases d <;> rfl
  constructor
  · refine ⟨_, ((if_pos hc).trans (if_pos rfl) : execD2dTrainingAttemptEnd d true b s = _), ?_⟩
    simp [State.linksDone_d2, hs, State.onD2_d2, (State.linksDone_eq _).2, hp]
  · refine ⟨_, ((if_pos hc).trans (if_neg Bool.false_ne_true) : execD2dTrainingAttemptEnd d false b s = _), ?_⟩
    simp [State.linksDone_d2, State.onD2_d2, ht]

end Sys2Proof.Machine
end

section
/-! SUPPORT. The later steps of start-up: the choice of the image, the apply step and the ports' first enabling (R50, R52 to R56, R67,
R68, R88). -/

namespace Sys2Proof.Machine

variable {s t u : State} {p q : Port}

/-! ## The choice of the image (R67, R68) -/

section
variable {code : Code} {f : Option Sfdp} {a b : List Byte}

theorem choose_a (ha : headerCode f 0x100000 a = 0) (hf : fullCode a = 0)
    (h : headerCode f 0x200000 b ≠ 0 ∨ (headerOf b).seq ≤ (headerOf a).seq) :
    (choose code f a b).image = imageOf code f 0 a ∧ (choose code f a b).second = false := by
  rcases h with h | h <;> simp [choose, ha, hf, h]

theorem choose_b (hb : headerCode f 0x200000 b = 0) (hf : fullCode b = 0)
    (h : headerCode f 0x100000 a ≠ 0 ∨ (headerOf a).seq < (headerOf b).seq) :
    (choose code f a b).image = imageOf code f 1 b ∧ (choose code f a b).second = false := by
  rcases h with h | h
  · simp [choose, hb, hf, h]
  · simp [choose, hb, hf, Nat.not_le.2 h]

theorem choose_second_b (ha : headerCode f 0x100000 a = 0) (hb : headerCode f 0x200000 b = 0)
    (hs : (headerOf b).seq ≤ (headerOf a).seq) (hfa : fullCode a ≠ 0) (hfb : fullCode b = 0) :
    (choose code f a b).image = imageOf code f 1 b ∧ (choose code f a b).second = true := by
  simp [choose, ha, hb, hs, hfa, hfb]

theorem choose_second_a (ha : headerCode f 0x100000 a = 0) (hb : headerCode f 0x200000 b = 0)
    (hs : (headerOf a).seq < (headerOf b).seq) (hfb : fullCode b ≠ 0) (hfa : fullCode a = 0) :
    (choose code f a b).image = imageOf code f 0 a ∧ (choose code f a b).second = true := by
  simp [choose, ha, hb, Nat.not_le.2 hs, hfa, hfb]

/-- No image passes: the ROM factory defaults (R88). -/
theorem choose_factory (ha : headerCode f 0x100000 a ≠ 0 ∨ fullCode a ≠ 0) (hb : headerCode f 0x200000 b ≠ 0 ∨ fullCode b ≠ 0) :
    (choose code f a b).image = factoryImage code := by
  by_cases h : headerCode f 0x100000 a = 0 <;> by_cases k : headerCode f 0x200000 b = 0 <;> simp [choose, h, k] at ha hb ⊢
  · rw [if_neg ha, if_neg hb, if_neg hb, if_neg ha, ite_self]
  · simp [ha]
  · simp [hb]

end

theorem almanacReadDone_spec (f : Option Sfdp) (a b : List Byte) (h : s.dev.phase = .read) :
    ∃ t, exec (.almanacReadDone f a b) s = .next t ∧ t.dev.phase = .apply ∧ t.alm.flash = f.map accessOf ∧ t.ports = s.ports ∧
      t.alm.chosen = some (choose s.dev.code f a b).image ∧ t.dev.second = (choose s.dev.code f a b).second :=
  ⟨_, (if_pos h : execAlmanacReadDone f a b s = _), rfl, rfl, rfl, rfl, rfl⟩

/-! ## The apply step (R56, R87, R88) -/

theorem State.supEvt_eq (s : State) (i : Nat) : ∃ v, s.supEvt i = { s with sup := v } := by
  unfold State.supEvt
  split <;> exact ⟨_, rfl⟩

theorem State.supCnt_eq (s : State) (i : Fin 8) : ∃ v, s.supCnt i = { s with sup := v } := by
  unfold State.supCnt
  split <;> exact ⟨_, rfl⟩

theorem State.wake_of_not_rest (h : s.dev.phase ≠ .rest) (src : WakeSource) : s.wake src = s := if_neg fun ⟨hr, _⟩ => h hr

/-- Outside rest a hand-over, begun or refused, is the supervisor's alone. -/
theorem State.tryHandOver_eq (h : s.dev.phase ≠ .rest) : ∃ v, s.tryHandOver = { s with sup := v } := by
  unfold State.tryHandOver
  extract_lets u
  split
  · exact ⟨_, rfl⟩
  · split
    · rw [State.wake_of_not_rest (by exact h)]
      exact ⟨_, rfl⟩
    · split
      · exact ⟨_, rfl⟩
      · obtain ⟨v, e⟩ := (s.onSup fun u => { u with hoRefd := true }).supEvt_eq 4
        obtain ⟨w, e'⟩ := (({ s with sup := v } : State)).supCnt_eq 3
        exact ⟨w, by rw [e]; exact e'⟩

/-- From s to t only the commons link changed. -/
def State.lnkOnly (s t : State) : Prop := ∃ l, t = { s with lnk := l }

theorem State.lnkOnly.trans (h : s.lnkOnly t) (k : t.lnkOnly u) : s.lnkOnly u := by
  obtain ⟨l, rfl⟩ := h
  obtain ⟨m, rfl⟩ := k
  exact ⟨m, rfl⟩

theorem State.onSide_lnkOnly (s : State) (e : Bool) (f : LinkPort → LinkPort) : s.lnkOnly (s.onSide e f) := by
  unfold State.onSide
  split <;> exact ⟨_, rfl⟩

theorem State.reopen_lnkOnly (s : State) : s.lnkOnly s.reopen := by
  unfold State.reopen
  extract_lets t
  have ht : s.lnkOnly t := s.onSide_lnkOnly true _
  split
  · exact ht
  · split
    · exact ht.trans ((t.onSide_lnkOnly true _).trans ⟨_, rfl⟩)
    · exact ht.trans (t.onSide_lnkOnly true _)

theorem State.chainWave_lnkOnly (s : State) : s.lnkOnly s.chainWave := by
  unfold State.chainWave
  split
  · exact s.onSide_lnkOnly true _
  · exact ⟨_, rfl⟩

theorem State.sendWest_lnkOnly (s : State) (f : LinkFrame) : s.lnkOnly (s.sendWest f) := by
  unfold State.sendWest
  split
  · exact s.onSide_lnkOnly false _
  · exact ⟨_, rfl⟩

theorem State.linkChanged_lnkOnly (s : State) : s.lnkOnly s.linkChanged := by
  unfold State.linkChanged State.portChanged
  split
  · exact s.reopen_lnkOnly.trans (State.lnkOnly.trans ⟨_, rfl⟩ (State.chainWave_lnkOnly _))
  · split
    · exact ⟨_, rfl⟩
    · split
      · exact s.chainWave_lnkOnly
      · exact State.lnkOnly.trans ⟨_, rfl⟩ (State.sendWest_lnkOnly ..)

theorem almanacApplyDone_spec {m : Image} (p : Port) (h : s.dev.phase = .apply) (hm : s.alm.chosen = some m) :
    ∃ t, exec .almanacApplyDone s = .next t ∧ t.dev.phase = .restore ∧ t.alm.cfg = m.dev ∧ t.alm.seq = m.seq ∧
      t.prog.rom = m.romProg ∧ (t.port p).cfg = tab m.ports p.val (PortCfg.reset p) ∧ (t.port p).tc.st = (s.port p).tc.st := by
  have he : exec .almanacApplyDone s = .next (s.applyImage m) := by
    show execAlmanacApplyDone s = _
    simp [execAlmanacApplyDone, h, hm]
  refine ⟨_, he, ?_⟩
  unfold State.applyImage
  dsimp only
  generalize hu : (State.mk _ _ _ _ _ _ _ _ _ _ _ _ _ _ _ _ _ _) = u
  have hph : u.dev.phase = .restore := by rw [← hu]
  obtain ⟨v, e⟩ := u.tryHandOver_eq (by simp [hph])
  obtain ⟨l, e'⟩ := ({ u with sup := v } : State).linkChanged_lnkOnly
  rw [e, e', ← hu]
  exact ⟨rfl, rfl, rfl, rfl, by simp [State.port], by simp [State.port]⟩

/-! ## The ports' first enabling (R50, R55) -/

/-- No die cut stands, and no port's factor is 0 (R123, R125). -/
def State.uncut (s : State) : Prop := (∀ q, s.dieCut q = false) ∧ ∀ q, s.factor q ≠ 0

/-- A port as it enters its self-test. -/
def PortState.enter (p : Port) (x : PortState) : PortState :=
  { x with
    live := true
    tc := x.tc.fresh p .selftest
    slc := if x.slc.st = .off then x.slc.openWindow else x.slc
    grd := { x.grd with frame := 0, ccFrame := none, zeroF := false } }

theorem State.dieCut_congr (h : s.globalsKept t) : t.dieCut q = s.dieCut q := by
  obtain ⟨-, -, -, -, -, -, -, -, -, hg, -⟩ := h
  simp only [State.dieCut, hg]

theorem State.factor_congr (h : s.globalsKept t) (hf : (t.port q).fNtcNow = (s.port q).fNtcNow) : t.factor q = s.factor q := by
  obtain ⟨-, -, ha, -, -, -, -, -, -, hg, -⟩ := h
  simp only [State.factor, State.fDie, hf, ha, hg]

theorem State.onPort_of_eq {f : PortState → PortState} (h : f (s.port p) = s.port p) : s.onPort p f = s := by
  have hp : s.ports.set p (f s.ports[p]) = s.ports := by
    rw [show f s.ports[p] = s.ports[p] from h]
    simp
  unfold State.onPort
  rw [hp]

/-- With its factor above 0 and no cut of that kind a port stays as it is. -/
theorem State.judgeZero_of_pos (hf : s.factor p ≠ 0) (hz : (s.port p).grd.zeroF = false) : s.judgeZero p = s := by
  have hg : (s.onGrd p fun g => { g with zeroF := false }) = s := State.onPort_of_eq (by rw [← hz])
  simp [State.judgeZero, hf, hz, hg]

/-- A port whose factor is above 0 and on which no die cut bears enters its self-test and nothing more. -/
theorem State.enable_eq (hd : s.dieCut p = false) (hf : s.factor p ≠ 0) : s.enable p = (s.onPort p (PortState.enter p)).noteConn p := by
  unfold State.enable
  extract_lets u
  have hg : s.globalsKept u := (s.onPort_post_onlyYard p _ ..).2
  have hp : u.port p = (s.port p).enter p := by simp [u, PortState.enter]
  have hfu : u.factor p ≠ 0 := by rwa [State.factor_congr hg (by rw [hp]; rfl)]
  rw [State.dieCut_congr hg, hd, if_neg Bool.false_ne_true]
  exact State.judgeZero_of_pos hfu (by rw [hp]; rfl)

/-- A port whose reset has waited for the last step of start-up is complete; any other is as it was. -/
def State.waitDone (s : State) (p : Port) : State := if (s.port p).cnt.waitOn then s.resetDone p else s

theorem State.waitDone_onlyYard (s : State) (p : Port) : s.onlyPortYard p (s.waitDone p) := by
  unfold State.waitDone
  split
  · exact s.onPort_onlyYard p _
  · exact s.onlyPortYard_refl p

theorem State.waitDone_port (s : State) (p : Port) :
    ∃ c, (s.waitDone p).port p = { s.port p with cnt := c } ∧ c.any = (s.port p).cnt.any := by
  unfold State.waitDone
  split
  · exact ⟨_, s.onPort_port_self .., rfl⟩
  · exact ⟨_, rfl, rfl⟩

/-- The last step of start-up at one port, under no cut. -/
theorem State.enableFirst_eq (hd : s.dieCut p = false) (hf : s.factor p ≠ 0) :
    s.enableFirst p = if (s.waitDone p).mayEnable p then ((s.waitDone p).onPort p (PortState.enter p)).noteConn p else s.waitDone p := by
  obtain ⟨c, e, -⟩ := s.waitDone_port p
  have hg := (s.waitDone_onlyYard p).2
  show (if (s.waitDone p).mayEnable p then (s.waitDone p).enable p else s.waitDone p) = _
  rw [State.enable_eq (by rw [State.dieCut_congr hg, hd]) (by rwa [State.factor_congr hg (by rw [e]; rfl)])]

theorem State.enableFirst_onlyYard (hd : s.dieCut p = false) (hf : s.factor p ≠ 0) : s.onlyPortYard p (s.enableFirst p) := by
  rw [State.enableFirst_eq hd hf]
  split
  · exact (s.waitDone_onlyYard p).trans (State.onPort_post_onlyYard ..)
  · exact s.waitDone_onlyYard p

theorem State.enableFirst_fNtcNow (hd : s.dieCut p = false) (hf : s.factor p ≠ 0) :
    ((s.enableFirst p).port p).fNtcNow = (s.port p).fNtcNow := by
  obtain ⟨c, e, -⟩ := s.waitDone_port p
  rw [State.enableFirst_eq hd hf]
  split
  · rw [State.noteConn_port, State.onPort_port_self, e]
    rfl
  · rw [e]
    rfl

/-- Where no cut stands none stands after a port has been enabled. -/
theorem State.enableFirst_uncut (h : s.uncut) (p : Port) : (s.enableFirst p).uncut := by
  obtain ⟨hd, hf⟩ := h
  obtain ⟨ho, hg⟩ := State.enableFirst_onlyYard (hd p) (hf p)
  refine ⟨fun q => by rw [State.dieCut_congr hg, hd], fun q => ?_⟩
  rw [State.factor_congr hg]
  · exact hf q
  · by_cases hq : q = p
    · rw [hq, State.enableFirst_fNtcNow (hd p) (hf p)]
    · rw [ho q hq]

/-- What the last step of start-up makes of port x, which may be enabled now, or once no port reset is in progress. -/
def PortState.enabledAs (may can : Bool) (x y : PortState) : Prop :=
  (if may then y.live = true ∧ y.tc.st = .selftest else x.cnt.waitOn = false → y = x) ∧
  (x.cnt.waitOn = true → can = true → y.live = true ∧ y.tc.st = .selftest ∧ y.cnt.busy = false ∧
    y.cnt.prstCnt = satInc x.cnt.prstCnt)

/-- What it does to port p of state s. -/
def State.enabledAt (s t : State) (p : Port) : Prop := (s.port p).enabledAs (s.mayEnable p) (s.canEnable p) (t.port p)

theorem State.canEnable_congr (h : s.globalsKept t) {c : CntP} (hp : t.port p = { s.port p with cnt := c })
    (hc : c.any = (s.port p).cnt.any) : t.canEnable p = s.canEnable p := by
  obtain ⟨-, hclk, -⟩ := h
  simp only [State.canEnable, hp, hc, State.lost, State.d2, hclk]

theorem State.enableFirst_enabledAt (hd : s.dieCut p = false) (hf : s.factor p ≠ 0) : s.enabledAt (s.enableFirst p) p := by
  rw [State.enableFirst_eq hd hf]
  cases hw : (s.port p).cnt.waitOn with
  | false =>
    rw [State.waitDone, hw, if_neg Bool.false_ne_true]
    cases hm : s.mayEnable p <;> simp [State.enabledAt, PortState.enabledAs, hm, hw, PortState.enter, Tc.fresh]
  | true =>
    have hdone : s.waitDone p = s.resetDone p := if_pos hw
    obtain ⟨c, e, hc⟩ := s.waitDone_port p
    have hcan : (s.waitDone p).mayEnable p = s.canEnable p := by
      rw [State.mayEnable, State.canEnable_congr (s.waitDone_onlyYard p).2 e hc, hdone]
      simp [State.resetDone]
    rw [hcan, hdone]
    cases hm : s.canEnable p <;>
      simp [State.enabledAt, PortState.enabledAs, State.mayEnable, hm, hw, PortState.enter, Tc.fresh, State.resetDone]

theorem State.enabledAt_congr (hg : s.globalsKept t) (hp : t.port p = s.port p) (h : t.enabledAt u p) : s.enabledAt u p := by
  have hcan : t.canEnable p = s.canEnable p := State.canEnable_congr hg hp rfl
  rwa [State.enabledAt, State.mayEnable, hcan, hp] at h

/-- The ports enabled one after another, under no cut: each as its own step leaves it. -/
theorem State.forPorts_enableFirst (h : s.uncut) {l : List Port} (hl : l.Nodup) :
    s.globalsKept (s.forPorts l State.enableFirst) ∧ (∀ q, q ∉ l → (s.forPorts l State.enableFirst).port q = s.port q) ∧
      ∀ q, q ∈ l → s.enabledAt (s.forPorts l State.enableFirst) q := by
  induction l generalizing s with
  | nil => exact ⟨s.globalsKept_refl, fun _ _ => rfl, nofun⟩
  | cons p l ih =>
    obtain ⟨hp, hl⟩ := List.nodup_cons.1 hl
    obtain ⟨ho, hg⟩ := State.enableFirst_onlyYard (h.1 p) (h.2 p)
    obtain ⟨ig, io, im⟩ := ih (State.enableFirst_uncut h p) hl
    refine ⟨hg.trans ig, fun q hq => ?_, fun q hq => ?_⟩
    · obtain ⟨hqp, hql⟩ := not_or.1 (List.mem_cons.not.1 hq)
      exact (io q hql).trans (ho q hqp)
    · by_cases hqp : q = p
      · have e : (s.forPorts (p :: l) State.enableFirst).port p = (s.enableFirst p).port p := io p hp
        rw [hqp, State.enabledAt, e]
        exact State.enableFirst_enabledAt (h.1 p) (h.2 p)
      · exact State.enabledAt_congr hg (ho q hqp) (im q (List.mem_of_ne_of_mem hqp hq))

theorem nodup_allPorts : allPorts.Nodup := List.nodup_finRange 48

theorem State.firstErase_eq (s : State) : ∃ m, s.firstErase = { s with mtr := m } := by
  unfold State.firstErase
  split <;> exact ⟨_, rfl⟩

theorem portsEnabled_spec (ms : Nat) (p : Port) (h : s.dev.phase = .cal) (hc : s.mtr.calibrated = true) (hu : s.uncut) :
    ∃ t, exec (.portsEnabled ms) s = .next t ∧ t.dev.phase = .run ∧ t.dev.startMs = satN 16 ms ∧
      t.dev.evt = setBit s.dev.evt 0 ∧ t.mux.zero = true ∧ s.enabledAt t p := by
  have he : exec (.portsEnabled ms) s = .next ({ s with
      dev := { s.dev with phase := .run, startMs := satN 16 ms, evt := setBit s.dev.evt 0 }
      mux := { s.mux with zero := true } }.forPorts allPorts State.enableFirst).firstErase := by
    show execPortsEnabled ms s = _
    simp [execPortsEnabled, h, hc]
  generalize hv : ({ s with
      dev := { s.dev with phase := .run, startMs := satN 16 ms, evt := setBit s.dev.evt 0 }
      mux := { s.mux with zero := true } } : State) = v at he
  have hvu : v.uncut := by rw [← hv]; exact hu
  have hport : v.port p = s.port p := by rw [← hv]; rfl
  have hcan : v.canEnable p = s.canEnable p := by rw [← hv]; rfl
  obtain ⟨⟨hd, -, -, -, -, -, -, -, -, -, -, hm, -⟩, -, ht⟩ := State.forPorts_enableFirst hvu nodup_allPorts
  generalize v.forPorts allPorts State.enableFirst = w at he hd hm ht
  obtain ⟨m, e⟩ := w.firstErase_eq
  refine ⟨_, he, ?_⟩
  rw [e]
  refine ⟨by rw [hd, ← hv], by rw [hd, ← hv], by rw [hd, ← hv], by rw [hm, ← hv], ?_⟩
  have hp := ht p (mem_allPorts p)
  rwa [State.enabledAt, State.mayEnable, hcan, hport] at hp

end Sys2Proof.Machine
end

section
/-! SUPPORT. The counters' restore and the initial calibration, and the obligation on start-up (R54, R85, R228, R307, R323). -/

namespace Sys2Proof.Machine

variable {s t u : State} {p q : Port}

/-! ## The newest record (R323) -/

/-- One slot of the scan: it is the newest so far if it has MAGIC and no lower SEQ. -/
def newer (l : List TallySlot) (best : Option Nat) (i : Nat) : Option Nat :=
  if !hasMagic (slotBytes l i) then best
  else match best with
    | none => some i
    | some j => if seqOf (slotBytes l j) ≤ seqOf (slotBytes l i) then some i else best

theorem newest_eq (l : List TallySlot) (c : List Nat) : newest l c = c.foldl (newer l) none := rfl

theorem newer_some {l : List TallySlot} {i j : Nat} {best : Option Nat} (h : newer l best i = some j) :
    (j = i ∧ hasMagic (slotBytes l i) = true ∨ best = some j) ∧
      (hasMagic (slotBytes l i) = true → seqOf (slotBytes l i) ≤ seqOf (slotBytes l j)) ∧
      ∀ k, best = some k → seqOf (slotBytes l k) ≤ seqOf (slotBytes l j) := by
  unfold newer at h
  split at h
  next hm => exact ⟨.inr h, by simp_all, fun k hk => by simp_all⟩
  next hm =>
    have hm : hasMagic (slotBytes l i) = true := by simpa using hm
    cases best with
    | none => simp_all
    | some b =>
      dsimp only at h
      split at h
      · simp_all
      next hs =>
        obtain rfl : b = j := by simpa using h
        exact ⟨.inr rfl, fun _ => by omega, fun k hk => by simp_all⟩

theorem newer_isSome {l : List TallySlot} {i : Nat} {best : Option Nat} (h : hasMagic (slotBytes l i) = true ∨ best ≠ none) :
    ∃ r, newer l best i = some r := by
  cases hm : hasMagic (slotBytes l i) <;> cases best <;> simp_all [newer]
  split <;> exact ⟨_, rfl⟩

/-- The newest of a list stands in it with MAGIC, and no slot of it with MAGIC has a higher SEQ. -/
theorem newest_some {l : List TallySlot} {c : List Nat} {j : Nat} (h : newest l c = some j) :
    j ∈ c ∧ hasMagic (slotBytes l j) = true ∧
      ∀ i ∈ c, hasMagic (slotBytes l i) = true → seqOf (slotBytes l i) ≤ seqOf (slotBytes l j) := by
  have main : ∀ (c : List Nat) (b : Option Nat), c.foldl (newer l) b = some j →
      (j ∈ c ∧ hasMagic (slotBytes l j) = true ∨ b = some j) ∧
      (∀ i ∈ c, hasMagic (slotBytes l i) = true → seqOf (slotBytes l i) ≤ seqOf (slotBytes l j)) ∧
      ∀ k, b = some k → seqOf (slotBytes l k) ≤ seqOf (slotBytes l j) := by
    intro c
    induction c with
    | nil => exact fun b h => ⟨.inr h, nofun, fun k hk => by simp_all⟩
    | cons i c ih =>
      intro b h
      obtain ⟨hj, hall, hb⟩ := ih _ h
      refine ⟨?_, fun k hk hm => ?_, fun k hk => ?_⟩
      · rcases hj with ⟨hj, hm⟩ | hj
        · exact .inl ⟨List.mem_cons_of_mem i hj, hm⟩
        · rcases (newer_some hj).1 with ⟨rfl, hm⟩ | hb
          · exact .inl ⟨List.mem_cons_self, hm⟩
          · exact .inr hb
      · rcases List.mem_cons.1 hk with rfl | hk
        · obtain ⟨r, hr⟩ := newer_isSome (best := b) (.inl hm)
          exact ((newer_some hr).2.1 hm).trans (hb r hr)
        · exact hall k hk hm
      · obtain ⟨r, hr⟩ := newer_isSome (i := i) (.inr (by simp [hk] : b ≠ none))
        exact ((newer_some hr).2.2 k hk).trans (hb r hr)
  rw [newest_eq] at h
  obtain ⟨hj, hall, -⟩ := main c none h
  simp only [reduceCtorEq, or_false] at hj
  exact ⟨hj.1, hj.2, hall⟩

/-- The slot that the scan finds has MAGIC, and no block begins with a newer record. -/
theorem newestSlot_some {l : List TallySlot} {size n : Nat} (h : newestSlot l size = some n) :
    hasMagic (slotBytes l n) = true ∧
      ∀ k, k < size → hasMagic (slotBytes l (32 * k)) = true → seqOf (slotBytes l (32 * k)) ≤ seqOf (slotBytes l n) := by
  unfold newestSlot at h
  split at h
  · exact absurd h (by simp)
  next i hi =>
    obtain ⟨hmem, hm, hall⟩ := newest_some hi
    obtain ⟨hn, hmn, halln⟩ := newest_some h
    obtain ⟨k, -, rfl⟩ := List.mem_map.1 hmem
    have hk : 32 * k ∈ (List.range 32).map (32 * (32 * k / 32) + ·) := List.mem_map.2 ⟨0, by simp, by omega⟩
    have hle := halln (32 * k) (List.mem_append_left _ hk) hm
    exact ⟨hmn, fun j hj hmj => (hall (32 * j) (List.mem_map.2 ⟨j, List.mem_range.2 hj, rfl⟩) hmj).trans hle⟩

theorem lastGood_some {l : List TallySlot} {n k i j : Nat} (h : lastGood l n k i = some j) : recordOk (slotBytes l j) = true := by
  induction k generalizing i with
  | zero => exact absurd h (by simp [lastGood])
  | succ k ih =>
    unfold lastGood at h
    split at h
    next hok => exact Option.some.inj h ▸ hok
    next => exact ih h

/-! ## The restore -/

theorem exec_counterRestoreDone (l : List TallySlot) (h : s.dev.phase = .restore) :
    exec (.counterRestoreDone l) s = .next (State.restoreTally { s with dev := { s.dev with phase := .cal } } l) :=
  (if_pos h : execCounterRestoreDone l s = _)

/-- Without tallies every port's counters begin at 0. -/
theorem counterRestoreDone_off (l : List TallySlot) (p : Port) (h : s.dev.phase = .restore) (ht : s.alm.cfg.tallyEn = false) :
    ∃ t, exec (.counterRestoreDone l) s = .next t ∧ t.dev.phase = .cal ∧ (t.port p).met.eOut = 0 ∧ (t.port p).met.epoch = 0 := by
  refine ⟨_, exec_counterRestoreDone l h, ?_⟩
  unfold State.restoreTally
  dsimp only
  rw [if_pos (by simp [State.onPorts, ht])]
  exact ⟨rfl, by simp [Met.zero], by simp [Met.zero]⟩

/-- Every port's counters from a record. -/
def State.restoreAll (s : State) (b : List Byte) : State :=
  s.forPorts allPorts fun s p => s.onMet p fun m => m.restore (bytesAt b (0x40 + 40 * p.val) 40)

theorem State.restoreAll_met (s : State) (b : List Byte) (p : Port) :
    ((s.restoreAll b).port p).met = (s.port p).met.restore (bytesAt b (0x40 + 40 * p.val) 40) := by
  obtain ⟨l, -, hl, e⟩ := State.forPorts_port_of_mem
    (f := fun s p => s.onMet p fun m => m.restore (bytesAt b (0x40 + 40 * p.val) 40)) (fun s p q hq => s.onPort_port_ne p q _ hq)
    nodup_allPorts (mem_allPorts p) s
  rw [State.restoreAll, e, State.onMet, State.onPort_port_self, hl]

theorem State.restoreAll_globals (s : State) (b : List Byte) : s.globalsKept (s.restoreAll b) :=
  State.forPorts_induct State.globalsKept_refl State.globalsKept.trans (fun s p => (s.onPort_onlyYard p _).2) s allPorts

/-- Every port's billing counters at 0. -/
def State.zeroAll (s : State) : State := s.onPorts fun x => { x with met := x.met.zero }

theorem State.zeroAll_met (s : State) (p : Port) : (s.zeroAll.port p).met = (s.port p).met.zero := by
  rw [State.zeroAll, State.onPorts_port]

/-- The writer stands behind the newest record, and the counters of the records begin anew. -/
def State.tallyAt (s : State) (l : List TallySlot) (ptr : Nat) : State :=
  { s with
    alm := { s.alm with talPtr := ptr }
    mtr := { s.mtr with tseq := 0, starts := 1, blankPtr := (slotBytes l ptr).all (· == 0xFF#8) } }

theorem State.tallyAt_port (s : State) (l : List TallySlot) (ptr : Nat) (p : Port) : (s.tallyAt l ptr).port p = s.port p := rfl

theorem State.withMtr_port (s : State) (m : Mtr) (p : Port) : ({ s with mtr := m } : State).port p = s.port p := rfl

section
variable {l : List TallySlot} {n : Nat} (ht : s.alm.cfg.tallyEn = true) (hn : newestSlot l s.alm.cfg.size = some n)
include ht hn

theorem State.restoreTally_none (hg : lastGood l s.slots s.slots n = none) :
    s.restoreTally l = s.zeroAll.tallyAt l ((n + 1) % max s.slots 1) := by
  have halm : s.zeroAll.alm = s.alm := s.onPorts_alm _
  unfold State.restoreTally
  extract_lets u k
  rw [if_neg (by simp [show u.alm = s.alm from halm, ht]), show u.alm.cfg.size = s.alm.cfg.size from congrArg (·.cfg.size) halm, hn]
  dsimp only
  rw [show k = s.slots from congrArg (32 * ·.cfg.size) halm, hg]
  rfl

theorem State.restoreTally_some {j : Nat} (hg : lastGood l s.slots s.slots n = some j) :
    s.restoreTally l = { (s.zeroAll.tallyAt l ((n + 1) % max s.slots 1)).restoreAll (slotBytes l j) with
      mtr := { (s.zeroAll.tallyAt l ((n + 1) % max s.slots 1)).mtr with
        tseq := seqOf (slotBytes l j), starts := fieldAt (slotBytes l j) 0x18 4 + 1 } } := by
  have halm : s.zeroAll.alm = s.alm := s.onPorts_alm _
  unfold State.restoreTally
  extract_lets u k
  rw [if_neg (by simp [show u.alm = s.alm from halm, ht]), show u.alm.cfg.size = s.alm.cfg.size from congrArg (·.cfg.size) halm, hn]
  dsimp only
  rw [show k = s.slots from congrArg (32 * ·.cfg.size) halm, hg]
  rfl

end

theorem counterRestoreDone_on (l : List TallySlot) (p : Port) {n : Nat} (h : s.dev.phase = .restore) (ht : s.alm.cfg.tallyEn = true)
    (hn : newestSlot l s.alm.cfg.size = some n) :
    ∃ t, exec (.counterRestoreDone l) s = .next t ∧ t.dev.phase = .cal ∧ t.alm.talPtr = (n + 1) % max s.slots 1 ∧
      (lastGood l s.slots s.slots n = none → t.mtr.tseq = 0 ∧ t.mtr.starts = 1 ∧ (t.port p).met = (s.port p).met.zero) ∧
      (∀ j, lastGood l s.slots s.slots n = some j → recordOk (slotBytes l j) = true ∧ t.mtr.tseq = seqOf (slotBytes l j) ∧
        t.mtr.starts = fieldAt (slotBytes l j) 0x18 4 + 1 ∧
        (t.port p).met = (s.port p).met.zero.restore (bytesAt (slotBytes l j) (0x40 + 40 * p.val) 40)) := by
  generalize hu : ({ s with dev := { s.dev with phase := .cal } } : State) = u
  have he : exec (.counterRestoreDone l) s = .next (u.restoreTally l) := by rw [← hu]; exact exec_counterRestoreDone l h
  have hs : u.alm = s.alm ∧ u.slots = s.slots ∧ u.dev.phase = .cal ∧ u.port p = s.port p := by
    rw [← hu]
    exact ⟨rfl, rfl, rfl, rfl⟩
  obtain ⟨halm, hslots, hph, hport⟩ := hs
  rw [← halm] at ht hn
  rw [← hslots, ← hport]
  refine ⟨_, he, ?_⟩
  have hzm := u.zeroAll_met p
  have hzd : u.zeroAll.dev = u.dev := u.onPorts_dev _
  cases hg : lastGood l u.slots u.slots n with
  | none =>
    rw [State.restoreTally_none ht hn hg]
    generalize u.zeroAll = z at hzm hzd
    exact ⟨(congrArg Dev.phase hzd).trans hph, rfl, fun _ => ⟨rfl, rfl, hzm⟩, nofun⟩
  | some j =>
    rw [State.restoreTally_some ht hn hg]
    generalize u.zeroAll = z at hzm hzd
    obtain ⟨hd, -, ha, -⟩ := (z.tallyAt l ((n + 1) % max u.slots 1)).restoreAll_globals (slotBytes l j)
    have hm := (z.tallyAt l ((n + 1) % max u.slots 1)).restoreAll_met (slotBytes l j) p
    generalize (z.tallyAt l ((n + 1) % max u.slots 1)).restoreAll (slotBytes l j) = y at hd ha hm
    refine ⟨(congrArg Dev.phase (hd.trans hzd)).trans hph, congrArg Alm.talPtr ha, nofun, fun k hk => ?_⟩
    obtain rfl : j = k := Option.some.inj hk
    exact ⟨lastGood_some hg, rfl, rfl, by rw [State.withMtr_port, hm, State.tallyAt_port, hzm]⟩

/-! ## The initial calibration (R228, R307) -/

theorem State.calAll_dev (s : State) (g : Bool) : (s.calAll g).dev = s.dev := by simp only [State.calAll]

theorem State.calAll_tc (s : State) (g : Bool) (p : Port) : ((s.calAll g).port p).tc = (s.port p).tc := by
  simp only [State.calAll, State.port, Fin.getElem_fin, Vector.getElem_ofFn]
  split <;> rfl

theorem initialCalibrationDone_spec (x y : Nat) (p : Port) (h : s.dev.phase = .cal) (hc : s.mtr.calibrated = false)
    (hp : s.alm.cfg.pref = false) :
    ∃ t, exec (.initialCalibrationDone x y) s = .next t ∧ t.mtr.calibrated = true ∧ t.dev = s.dev ∧
      129 ≤ t.pwm.tap ∧ t.pwm.tap ≤ 132 ∧ (t.port p).tc = (s.port p).tc := by
  have he : exec (.initialCalibrationDone x y) s = .next { s.calAll true with
      draws := (s.calAll true).draws + 1
      mtr := { s.mtr with calibrated := true }
      pwm := { s.pwm with tap := ((s.calAll true).drawIn 129 132).1 } } := by
    show execInitialCalibrationDone x y s = _
    simp [execInitialCalibrationDone, h, hc, State.drawIn, State.calAll, hp]
  obtain ⟨hlo, hhi⟩ := (s.calAll true).drawIn_bounds (lo := 129) (hi := 132) (by decide)
  have hd := s.calAll_dev true
  have ht := s.calAll_tc true p
  generalize s.calAll true = v at he hlo hhi hd ht
  exact ⟨_, he, rfl, hd, hlo, hhi, ht⟩

/-! ## The obligation -/

/-- Settles O45: one theorem for each step of start-up. -/
theorem startUp : Obligations.StartUp := by
  unfold Obligations.StartUp
  refine ⟨fun s k d b => ⟨resetRelease_spec k, startupOscillatorRunning_spec, pllsLocked_spec, d2dTraining_spec d b⟩,
    fun s f a b m l x y ms p => ⟨fun h => ?_, almanacApplyDone_spec p, counterRestoreDone_off l p, fun n h ht hn => ?_,
      initialCalibrationDone_spec x y p, fun h hc hd hf => portsEnabled_spec ms p h hc ⟨hd, hf⟩⟩⟩
  · obtain ⟨t, he, hp, hfl, hpo, hch, hse⟩ := almanacReadDone_spec f a b h
    have pick {i : Image} {second : Bool} (hc : (choose s.dev.code f a b).image = i ∧ (choose s.dev.code f a b).second = second) :
        t.alm.chosen = some i ∧ t.dev.second = second := ⟨by rw [hch, hc.1], by rw [hse, hc.2]⟩
    exact ⟨t, he, hp, hfl, hpo, fun ha hfa hs => pick (choose_a ha hfa hs), fun hb hfb hs => pick (choose_b hb hfb hs),
      fun ha hb => ⟨fun hs hfa hfb => pick (choose_second_b ha hb hs hfa hfb),
        fun hs hfb hfa => pick (choose_second_a ha hb hs hfb hfa)⟩,
      fun ha hb => by rw [hch, choose_factory ha hb]⟩
  · obtain ⟨hm, hall⟩ := newestSlot_some hn
    exact ⟨hm, hall, counterRestoreDone_on l p h ht hn⟩

end Sys2Proof.Machine
end

section
/-! SUPPORT. Transactions of TWM and of the metering targets where registers are served and no committed word waits: the bytes that a read
sends, the words that a write commits, and what a target does that is not served yet (R381 to R385, R388). -/

namespace Sys2Proof.Machine

variable {s t : State}

theorem State.twiOnly.eq (h : s.twiOnly t) : t = { s with twi := t.twi } := by
  obtain ⟨w, rfl, -⟩ := h
  rfl

/-! ## The bytes of words (R381) -/

theorem State.readSeq_length (s : State) (a : Target) (k : Nat) (f : Nat → Nat) : (State.readSeq a k f s).1.length = k := by
  induction k generalizing f s with
  | zero => rfl
  | succ k ih => exact congrArg (· + 1) (ih (s.afterRead a (f 0)) _)

theorem length_flatMap_wordBytes (l : List Word) : (l.flatMap wordBytes).length = 4 * l.length := by
  induction l with
  | nil => rfl
  | cons w l ih =>
    rw [List.flatMap_cons, List.length_append, ih, List.length_cons]
    exact Nat.add_comm ..

/-- Whole words are read to their last byte. -/
theorem State.readBytes_words (s : State) (a : Target) (k : Nat) (f : Nat → Nat) :
    s.readBytes a (4 * k) f = ((State.readSeq a k f s).1.flatMap wordBytes, (State.readSeq a k f s).2) := by
  have hk : (4 * k + 3) / 4 = k := by omega
  have hl : ((State.readSeq a k f s).1.flatMap wordBytes).length ≤ 4 * k := by
    rw [length_flatMap_wordBytes, State.readSeq_length]
  simp only [State.readBytes, hk, List.take_of_length_le hl]

/-- One word: its four bytes, and the copy that its read latches. -/
theorem State.readBytes_one (s : State) (a : Target) (f : Nat → Nat) :
    s.readBytes a 4 f = (wordBytes (s.regRead a (f 0)), s.afterRead a (f 0)) := by
  rw [s.readBytes_words a 1 f]
  simp [State.readSeq]

/-- Two words: the second is read after the copy that the first one latches. -/
theorem State.readBytes_two (s : State) (a : Target) (f : Nat → Nat) :
    s.readBytes a 8 f = (wordBytes (s.regRead a (f 0)) ++ wordBytes ((s.afterRead a (f 0)).regRead a (f 1)),
      (s.afterRead a (f 0)).afterRead a (f 1)) := by
  rw [s.readBytes_words a 2 f]
  simp [State.readSeq]

@[simp] theorem twmIdx_zero (i : Index) : twmIdx i 0 = i.toNat := Nat.mod_eq_of_lt i.isLt

/-! ## Writes of TWM (R381 to R384) -/

section
variable (i : Index) {b : List Byte}

/-- A write with no word waiting before it, by what the judgement of its bytes commits and counts (R383). -/
theorem State.twmWrite_twi (hc : s.twi.commits = []) (hb : b.length ≤ 65) {l : List Word} {cPec cPart ePec : Bool}
    (hj : judge (addrByte s.twmAddr false) i (s.pecNeeded .twm) b = (l, cPec, cPart, ePec)) :
    let evt := if ePec then setBit s.twi.evt 2 else s.twi.evt
    let cnt := if cPec then bump s.twi.cnt 0 else s.twi.cnt
    (s.twmWrite i b).twi = { s.twi with
      reply := [], nak := false, index := i + BitVec.ofNat 16 (b.length / 4)
      commits := l.zipIdx.map fun e => (i + BitVec.ofNat 16 e.2, e.1)
      evt := if cPart then setBit evt 1 else evt
      cnt := if cPart then bump cnt 1 else cnt } := by
  have hn : decide (65 < b.length) = false := decide_eq_false (Nat.not_lt.2 hb)
  unfold State.twmWrite
  dsimp only
  rw [List.take_of_length_le hb, hj, hn]
  cases cPec <;> cases cPart <;> cases ePec <;> simp [State.answer, State.setIndex, State.twiEvt, State.twiCnt, hc]

variable {a : Byte} {need : Bool} {q : Byte}

theorem judge_whole (h : b.length % 4 = 0) : judge a i false b = (wordsOf b, false, false, false) := by
  simp [judge, h]

theorem judge_missing (h : b.length % 4 = 0) (hb : b ≠ []) : judge a i true b = ([], true, false, false) := by
  simp [judge, h, hb]

theorem judge_pec (h : b.length % 4 = 0) :
    judge a i need (b ++ [q]) =
      if q = pec (a :: i.extractLsb' 8 8 :: i.extractLsb' 0 8 :: b) then (wordsOf b, false, false, false)
      else ([], true, false, true) := by
  have h1 : (b.length + 1) % 4 = 1 := by omega
  simp [judge, h1]

theorem judge_partial (h : 2 ≤ b.length % 4) : judge a i need b = (if need then [] else wordsOf b, false, true, false) := by
  have h' : b.length % 4 = 2 ∨ b.length % 4 = 3 := by omega
  rcases h' with h' | h' <;> simp [judge, h']

end

/-! ## TWM where registers are served -/

section
variable (hs : s.served = true) (hc : s.twi.commits = [])
include hs hc

theorem exec_twmWrite (i : Index) (b : List Byte) : exec (.twmWrite i b) s = .next (s.twmWrite i b) := by
  show execTwmWrite i b s = _
  rw [execTwmWrite, if_pos hs, State.drain_none hc]

theorem exec_twmSetIndex (i : Index) : exec (.twmSetIndex i) s = .next (s.twmSetIndex i) := by
  show execTwmSetIndex i s = _
  rw [execTwmSetIndex, if_pos hs, State.drain_none hc]

theorem exec_twmStreamedRead (i : Index) (n : Nat) : exec (.twmStreamedRead i n) s = .next (s.twmStreamed i n) := by
  show execTwmStreamedRead i n s = _
  rw [execTwmStreamedRead, if_pos hs, State.drain_none hc]

theorem exec_twmCurrentRead (n : Nat) : exec (.twmCurrentRead n) s = .next (s.twmCurrent n) := by
  show execTwmCurrentRead n s = _
  rw [execTwmCurrentRead, if_pos hs, State.drain_none hc]

theorem exec_twmCountedRead (i : Index) (after : List Byte) (n : Nat) :
    exec (.twmCountedRead i after n) s = .next (s.twmCounted i after n) := by
  show execTwmCountedRead i after n s = _
  rw [execTwmCountedRead, if_pos hs, State.drain_none hc]

end

/-- Eight bytes from an index on: two words, and the index stands behind them (R382). -/
theorem State.twmStream_two (s : State) (i : Index) :
    (s.twmStream i 8).twi.reply = wordBytes (s.regRead .twm i.toNat) ++
        wordBytes ((s.afterRead .twm i.toNat).regRead .twm ((i.toNat + 1) % 65536)) ∧
      (s.twmStream i 8).twi.nak = false ∧ (s.twmStream i 8).twi.index = i + 2#16 := by
  unfold State.twmStream
  rw [State.readBytes_two, twmIdx_zero]
  exact ⟨rfl, rfl, rfl⟩

/-- A counted read of one word: its bytes, the PEC over all that went before it, and 0xFF behind (R381). -/
theorem State.twmCounted_one (s : State) (i : Index) (n : Nat) :
    (s.twmCounted i [1#8] n).twi.index = i + 1#16 ∧
      (s.twmCounted i [1#8] n).twi.reply = wordBytes (s.regRead .twm i.toNat) ++ [pec ([addrByte s.twmAddr false, i.extractLsb' 8 8,
        i.extractLsb' 0 8, 1#8, addrByte s.twmAddr true] ++ wordBytes (s.regRead .twm i.toNat))] ++ List.replicate n 0xFF#8 := by
  have h1 : ¬(1#8 = 0#8 ∨ 32 < (1#8).toNat) := by decide
  simp only [State.twmCounted, if_neg h1, show 4 * (1#8).toNat = 4 from rfl, State.readBytes_one, twmIdx_zero, List.append_assoc]
  exact ⟨rfl, rfl⟩

/-- A COUNT of 0 or above 32 is answered N (R381). -/
theorem State.twmCounted_refused {i : Index} {c : Byte} {n : Nat} (h : c = 0#8 ∨ 32 < c.toNat) :
    s.twmCounted i [c] n = s.noAck.setIndex i 0 := if_pos h

/-! ## TWM and the metering targets before they are served (R57, R59, R388) -/

/-- An address match of TWM or of TWA ends rest, and CLK_WAKE names the two-wire targets. -/
theorem State.wake_target {src : WakeSource} (h : src = .twm ∨ src = .twa) (hp : s.dev.phase = .rest) (hw : s.canWake src = true) :
    (s.wake src).dev.phase = .wakePll ∧ (s.wake src).clk.wake = 2#32 ∧
      (s.wake src).twi.stretched = s.twi.stretched ∧ (s.wake src).twi.nak = s.twi.nak := by
  rw [State.wake, if_pos ⟨hp, hw⟩]
  rcases h with rfl | rfl <;> exact ⟨rfl, rfl, rfl, rfl⟩

theorem exec_twmWrite_unserved (hs : s.served = false) (i : Index) (b : List Byte) :
    exec (.twmWrite i b) s = .next (s.stretch (.write i b)) := by
  show execTwmWrite i b s = _
  rw [execTwmWrite, hs, if_neg Bool.false_ne_true]

/-- The state with one transaction more whose address is acknowledged and whose SCL is stretched. -/
def State.stretching (s : State) (c : TwmOp) : State := { s with twi := { s.twi with stretched := s.twi.stretched ++ [c] } }.answer [] false

theorem State.stretch_clocked (h : s.dev.phase = .clock ∨ s.dev.phase = .pll ∨ s.dev.phase = .wakePll) (c : TwmOp) :
    s.stretch c = s.stretching c := by
  rcases h with h | h | h <;> simp [State.stretch, h, State.stretching]

theorem State.stretch_rest (h : s.dev.phase = .rest) (c : TwmOp) : s.stretch c = (s.stretching c).wake .twm := by
  simp [State.stretch, h, State.stretching]

theorem State.stretch_reset (h : s.dev.phase = .reset) (c : TwmOp) : s.stretch c = s.noAck := by
  simp [State.stretch, h]

end Sys2Proof.Machine
end

section
/-! SUPPORT. The obligation on the transactions of TWM. -/

namespace Sys2Proof.Machine

variable {s : State}

/-- TWM before it is served: it acknowledges and stretches, wakes the device from rest, and in reset acknowledges nothing. -/
theorem twmWrite_unserved (s : State) (i : Index) (b : List Byte) :
    (s.dev.phase = .clock ∨ s.dev.phase = .pll ∨ s.dev.phase = .wakePll →
      ∃ t, exec (.twmWrite i b) s = .next t ∧ t = { s with twi := t.twi } ∧ t.twi.stretched = s.twi.stretched ++ [.write i b] ∧
        t.twi.nak = false ∧ t.twi.commits = s.twi.commits) ∧
    (s.dev.phase = .rest →
      ∃ t, exec (.twmWrite i b) s = .next t ∧ t.twi.stretched = s.twi.stretched ++ [.write i b] ∧ t.dev.phase = .wakePll ∧
        t.clk.wake = 2#32) ∧
    (s.dev.phase = .reset →
      ∃ t, exec (.twmWrite i b) s = .next t ∧ t = { s with twi := { s.twi with reply := [], nak := true } }) := by
  refine ⟨fun h => ?_, fun h => ?_, fun h => ?_⟩
  · have hs : s.served = false := by rcases h with h | h | h <;> simp [State.served, h]
    rw [exec_twmWrite_unserved hs, State.stretch_clocked h]
    exact ⟨_, rfl, rfl, rfl, rfl, rfl⟩
  · rw [exec_twmWrite_unserved (by simp [State.served, h]), State.stretch_rest h]
    obtain ⟨hp, hw, hst, -⟩ := State.wake_target (s := s.stretching (.write i b)) (.inl rfl) h rfl
    exact ⟨_, rfl, hst, hp, hw⟩
  · rw [exec_twmWrite_unserved (by simp [State.served, h]), State.stretch_reset h]
    exact ⟨_, rfl, rfl⟩

section
variable (hs : s.served = true) (hc : s.twi.commits = []) {b : List Byte} (hb : b.length ≤ 64) (i : Index)
include hs hc hb

/-- A write of whole words with no PEC behind them: it is taken where none is required, and counts where one is. -/
theorem twmWrite_whole (h : b.length % 4 = 0) :
    (s.pecNeeded .twm = false →
      ∃ t, exec (.twmWrite i b) s = .next t ∧ t = { s with twi := t.twi } ∧ t.twi.index = i + BitVec.ofNat 16 (b.length / 4) ∧
        t.twi.nak = false ∧ t.twi.cnt = s.twi.cnt ∧ t.twi.evt = s.twi.evt ∧
        t.twi.commits = (wordsOf b).zipIdx.map fun e => (i + BitVec.ofNat 16 e.2, e.1)) ∧
    (b ≠ [] → s.pecNeeded .twm = true →
      ∃ t, exec (.twmWrite i b) s = .next t ∧ t = { s with twi := t.twi } ∧ t.twi.commits = [] ∧ t.twi.evt = s.twi.evt ∧
        t.twi.cnt = bump s.twi.cnt 0) := by
  have hb' : b.length ≤ 65 := by omega
  refine ⟨fun hn => ?_, fun hne hn => ?_⟩ <;> refine ⟨_, exec_twmWrite hs hc i b, (s.twmWrite_twiOnly i b).eq, ?_⟩
  · rw [State.twmWrite_twi i hc hb' (by rw [hn, judge_whole i h])]
    exact ⟨rfl, rfl, rfl, rfl, rfl⟩
  · rw [State.twmWrite_twi i hc hb' (by rw [hn, judge_missing i h hne])]
    exact ⟨rfl, rfl, rfl⟩

/-- A write of whole words with a PEC behind them. -/
theorem twmWrite_pec (q : Byte) (h : b.length % 4 = 0) :
    (q = pec (addrByte s.twmAddr false :: i.extractLsb' 8 8 :: i.extractLsb' 0 8 :: b) →
      ∃ t, exec (.twmWrite i (b ++ [q])) s = .next t ∧ t = { s with twi := t.twi } ∧ t.twi.evt = s.twi.evt ∧
        t.twi.commits = (wordsOf b).zipIdx.map fun e => (i + BitVec.ofNat 16 e.2, e.1)) ∧
    (q ≠ pec (addrByte s.twmAddr false :: i.extractLsb' 8 8 :: i.extractLsb' 0 8 :: b) →
      ∃ t, exec (.twmWrite i (b ++ [q])) s = .next t ∧ t = { s with twi := t.twi } ∧ t.twi.commits = [] ∧
        t.twi.evt = setBit s.twi.evt 2 ∧ t.twi.cnt = bump s.twi.cnt 0) := by
  have hb' : (b ++ [q]).length ≤ 65 := by rw [List.length_append, List.length_singleton]; omega
  refine ⟨fun hq => ?_, fun hq => ?_⟩ <;>
    refine ⟨_, exec_twmWrite hs hc i (b ++ [q]), (s.twmWrite_twiOnly i _).eq, ?_⟩
  · rw [State.twmWrite_twi i hc hb' (by rw [judge_pec i h, if_pos hq])]
    exact ⟨rfl, rfl⟩
  · rw [State.twmWrite_twi i hc hb' (by rw [judge_pec i h, if_neg hq])]
    exact ⟨rfl, rfl, rfl⟩

/-- A write that ends inside a word, beyond what a PEC could be. -/
theorem twmWrite_partial (h : 2 ≤ b.length % 4) :
    ∃ t, exec (.twmWrite i b) s = .next t ∧ t = { s with twi := t.twi } ∧ t.twi.evt = setBit s.twi.evt 1 ∧
      t.twi.cnt = bump s.twi.cnt 1 ∧ t.twi.commits =
        (if s.pecNeeded .twm then [] else (wordsOf b).zipIdx.map fun e => (i + BitVec.ofNat 16 e.2, e.1)) := by
  refine ⟨_, exec_twmWrite hs hc i b, (s.twmWrite_twiOnly i b).eq, ?_⟩
  rw [State.twmWrite_twi i hc (by omega) (judge_partial i h)]
  refine ⟨rfl, rfl, ?_⟩
  cases s.pecNeeded .twm <;> rfl

end

section
variable (hs : s.served = true) (hc : s.twi.commits = []) (i : Index)
include hs hc

/-- Reads of eight bytes where no PEC is required, from an index sent and from the one left behind. -/
theorem twmReads_two (hn : s.pecNeeded .twm = false) {w v : Word} (hw : w = s.regRead .twm i.toNat)
    (hv : v = (s.afterRead .twm i.toNat).regRead .twm ((i.toNat + 1) % 65536)) :
    (∃ t, exec (.twmStreamedRead i 8) s = .next t ∧ t = { s with twi := t.twi } ∧ t.twi.reply = wordBytes w ++ wordBytes v ∧
      t.twi.nak = false ∧ t.twi.index = i + 2#16) ∧
    (s.twi.index = i → ∃ t, exec (.twmCurrentRead 8) s = .next t ∧ t = { s with twi := t.twi } ∧
      t.twi.reply = wordBytes w ++ wordBytes v ∧ t.twi.index = i + 2#16) := by
  subst hw hv
  obtain ⟨hr, hk, hi⟩ := s.twmStream_two i
  have heq := (s.twmStream_twiOnly i 8).eq
  constructor
  · have hd : s.twmStreamed i 8 = s.twmStream i 8 := by rw [State.twmStreamed, hn, if_neg Bool.false_ne_true]
    exact ⟨_, (exec_twmStreamedRead hs hc i 8).trans (congrArg _ hd), heq, hr, hk, hi⟩
  · rintro rfl
    have hd : s.twmCurrent 8 = s.twmStream s.twi.index 8 := by rw [State.twmCurrent, hn, if_neg Bool.false_ne_true]
    exact ⟨_, (exec_twmCurrentRead hs hc 8).trans (congrArg _ hd), heq, hr, hi⟩

/-- Counted reads: of one word, and with a COUNT that is refused. -/
theorem twmCountedRead_spec (c : Byte) (n : Nat) :
    (∀ w, w = s.regRead .twm i.toNat → c = 1#8 →
      ∃ t, exec (.twmCountedRead i [c] n) s = .next t ∧ t = { s with twi := t.twi } ∧ t.twi.index = i + 1#16 ∧
        t.twi.reply = wordBytes w ++ [pec ([addrByte s.twmAddr false, i.extractLsb' 8 8, i.extractLsb' 0 8, c,
          addrByte s.twmAddr true] ++ wordBytes w)] ++ List.replicate n 0xFF#8) ∧
    (c = 0#8 ∨ 32 < c.toNat →
      ∃ t, exec (.twmCountedRead i [c] n) s = .next t ∧ t = { s with twi := t.twi } ∧ t.twi.nak = true ∧ t.twi.reply = []) := by
  constructor
  · rintro w rfl rfl
    exact ⟨_, exec_twmCountedRead hs hc i _ n, (s.twmCounted_twiOnly i _ n).eq, s.twmCounted_one i n⟩
  · intro h
    exact ⟨_, (exec_twmCountedRead hs hc i _ n).trans (congrArg _ (State.twmCounted_refused h)), rfl, rfl, rfl⟩

theorem twmSetIndex_spec :
    ∃ t, exec (.twmSetIndex i) s = .next t ∧ t = { s with twi := { s.twi with index := i, reply := [], nak := false } } := by
  have hi : i + BitVec.ofNat 16 0 = i := by simp
  exact ⟨_, exec_twmSetIndex hs hc i, by simp only [State.twmSetIndex, State.setIndex, State.answer, hi]⟩

end

/-- Settles O48: one theorem for each kind of transaction, served or not. -/
theorem twmTransactions : Obligations.TwmTransactions := by
  refine ⟨fun s i b c q w v n hs hc hb => ?_, twmWrite_unserved⟩
  exact ⟨fun h => (twmWrite_whole hs hc hb i h).1, twmWrite_pec hs hc hb i q, fun h => (twmWrite_whole hs hc hb i h).2,
    twmWrite_partial hs hc hb i, twmSetIndex_spec hs hc i, fun hn hw hv => twmReads_two hs hc i hn hw hv,
    (twmCountedRead_spec hs hc i c n).1 w, (twmCountedRead_spec hs hc i c n).2⟩

end Sys2Proof.Machine
end

section
/-! SUPPORT. The obligation on the metering targets and on the copies that a read latches (R329, R379, R385). -/

namespace Sys2Proof.Machine

variable {s : State} {a : AuxTarget} {adr : BitVec 7} {p : Port} {o : Byte}

/-! ## A target that serves a port -/

@[simp] theorem metIdx_zero (ho : o.toNat < 32) : metIdx p o.toNat 0 = 0x10A0 + 0x100 * p.val + o.toNat := by
  rw [metIdx, Nat.add_zero, Nat.mod_eq_of_lt ho]

theorem State.setOffset_twiOnly (s : State) (p : Port) (n : Nat) : s.twiOnly (s.setOffset p n) := ⟨_, rfl, rfl⟩

theorem State.setOffset_offset (s : State) (p : Port) (n : Nat) : (s.setOffset p n).twi.offsets[p] = n % 32 := by
  simp [State.setOffset]

/-- A read that is answered leaves the port's offset and touches nothing but the two-wire targets. -/
theorem State.answerRead_twiOnly (s : State) (t : Target) (i n : Nat) (b : List Byte) :
    s.twiOnly (((s.afterRead t i).answer b false).setOffset p n) :=
  (s.afterRead_twiOnly t i).trans ((State.answer_twiOnly ..).trans (State.setOffset_twiOnly ..))

/-- One word read from an offset on. -/
theorem State.auxStream_one (s : State) (a : AuxTarget) (p : Port) (n : Nat) :
    s.auxStream a p n 4 = (((s.afterRead (AuxTarget.target a) (metIdx p n 0)).answer
      (wordBytes (s.regRead (AuxTarget.target a) (metIdx p n 0))) false).setOffset p (n + 1)) := by
  unfold State.auxStream
  rw [State.readBytes_one]

section
variable (h : s.auxPort a adr = some p)
include h

theorem exec_meteringSetOffset (ho : o.toNat < 32) :
    exec (.meteringSetOffset a adr o) s = .next ((s.answer [] false).setOffset p o.toNat) := by
  show execMeteringSetOffset a adr o s = _
  simp [execMeteringSetOffset, h, ho]

theorem exec_meteringStreamedRead (ho : o.toNat < 32) (hn : s.pecNeeded (AuxTarget.target a) = false) (n : Nat) :
    exec (.meteringStreamedRead a adr o n) s = .next (s.auxStream a p o.toNat n) := by
  show execMeteringStreamedRead a adr o n s = _
  simp [execMeteringStreamedRead, h, Nat.not_le.2 ho, hn]

theorem exec_meteringCurrentRead (hn : s.pecNeeded (AuxTarget.target a) = false) (n : Nat) :
    exec (.meteringCurrentRead a adr n) s = .next (s.auxStream a p s.twi.offsets[p] n) := by
  show execMeteringCurrentRead a adr n s = _
  simp [execMeteringCurrentRead, h, hn]

theorem exec_meteringCountedRead_one (ho : o.toNat < 32) (n : Nat) :
    exec (.meteringCountedRead a adr o [1#8] n) s =
      .next (((s.afterRead (AuxTarget.target a) (metIdx p o.toNat 0)).answer
        (wordBytes (s.regRead (AuxTarget.target a) (metIdx p o.toNat 0)) ++
          pec ([addrByte adr false, o, 1#8, addrByte adr true] ++ wordBytes (s.regRead (AuxTarget.target a) (metIdx p o.toNat 0))) ::
            List.replicate n 0xFF#8) false).setOffset p (o.toNat + 1)) := by
  have h1 : ¬(1#8 = 0#8 ∨ 32 < (1#8).toNat) := by decide
  show execMeteringCountedRead a adr o [1#8] n s = _
  simp only [execMeteringCountedRead, h, if_neg (Nat.not_le.2 ho), if_neg h1, show 4 * (1#8).toNat = 4 from rfl, State.readBytes_one]
  rfl

theorem exec_meteringWrite (ho : o.toNat < 32) (b : List Byte) :
    exec (.meteringWrite a adr o b) s = .next ((s.answer [] (!b.isEmpty)).setOffset p o.toNat) := by
  show execMeteringWrite a adr o b s = _
  simp [execMeteringWrite, h, ho]

/-- An enabled target answers with the words of its port's MET sub-block, and takes no data byte. -/
theorem metering_served (ho : o.toNat < 32) {w : Word} (hw : w = s.regRead (AuxTarget.target a) (0x10A0 + 0x100 * p.val + o.toNat))
    (c : Byte) (b : List Byte) (n : Nat) :
    (∃ t, exec (.meteringSetOffset a adr o) s = .next t ∧
      t = { s with twi := { s.twi with offsets := s.twi.offsets.set p o.toNat, reply := [], nak := false } }) ∧
    (s.pecNeeded (AuxTarget.target a) = false →
      ∃ t, exec (.meteringStreamedRead a adr o 4) s = .next t ∧ t = { s with twi := t.twi } ∧ t.twi.reply = wordBytes w ∧
        t.twi.nak = false ∧ t.twi.offsets[p] = (o.toNat + 1) % 32) ∧
    (s.pecNeeded (AuxTarget.target a) = false → s.twi.offsets[p] = o.toNat →
      ∃ t, exec (.meteringCurrentRead a adr 4) s = .next t ∧ t = { s with twi := t.twi } ∧ t.twi.reply = wordBytes w ∧
        t.twi.offsets[p] = (o.toNat + 1) % 32) ∧
    (c = 1#8 →
      ∃ t, exec (.meteringCountedRead a adr o [c] n) s = .next t ∧ t = { s with twi := t.twi } ∧
        t.twi.reply = wordBytes w ++ [pec ([addrByte adr false, o, c, addrByte adr true] ++ wordBytes w)] ++
          List.replicate n 0xFF#8 ∧
        t.twi.offsets[p] = (o.toNat + 1) % 32) ∧
    (b ≠ [] →
      ∃ t, exec (.meteringWrite a adr o b) s = .next t ∧ t = { s with twi := t.twi } ∧ t.twi.nak = true ∧
        t.twi.commits = s.twi.commits) := by
  have hi : w = s.regRead (AuxTarget.target a) (metIdx p o.toNat 0) := by rw [hw, metIdx_zero ho]
  subst hi
  refine ⟨⟨_, exec_meteringSetOffset h ho, ?_⟩, fun hn => ?_, fun hn hp => ?_, ?_, fun hb => ?_⟩
  · simp only [State.setOffset, Nat.mod_eq_of_lt ho]
    rfl
  · rw [exec_meteringStreamedRead h ho hn, State.auxStream_one]
    exact ⟨_, rfl, (State.answerRead_twiOnly ..).eq, rfl, rfl, State.setOffset_offset ..⟩
  · rw [exec_meteringCurrentRead h hn, hp, State.auxStream_one]
    exact ⟨_, rfl, (State.answerRead_twiOnly ..).eq, rfl, State.setOffset_offset ..⟩
  · rintro rfl
    rw [exec_meteringCountedRead_one h ho, List.append_assoc]
    exact ⟨_, rfl, (State.answerRead_twiOnly ..).eq, rfl, State.setOffset_offset ..⟩
  · refine ⟨_, exec_meteringWrite h ho b, ((s.answer_twiOnly _ _).trans (State.setOffset_twiOnly ..)).eq, ?_, rfl⟩
    simpa [State.setOffset, State.answer] using hb

end

/-! ## A target that serves nothing here -/

theorem exec_meteringStreamedRead_none (h : s.auxPort a adr = none) (n : Nat) :
    exec (.meteringStreamedRead a adr o n) s = .next (s.auxNone a adr) := by
  show execMeteringStreamedRead a adr o n s = _
  simp [execMeteringStreamedRead, h]

/-- Outside rest an address that is not served is answered N, and nothing more. -/
theorem State.auxNone_of_not_rest (h : s.dev.phase ≠ .rest) (a : AuxTarget) (adr : BitVec 7) : s.auxNone a adr = s.noAck := by
  unfold State.auxNone
  extract_lets base
  rw [State.wake_of_not_rest (s := s.noAck) h, ite_self]

theorem State.auxPort_of_rest (h : s.dev.phase = .rest) (a : AuxTarget) (adr : BitVec 7) : s.auxPort a adr = none := by
  have hs : s.served = false := by simp [State.served, h]
  cases a <;> simp [State.auxPort, hs]

/-- In rest TWA's own addresses wake the device. -/
theorem meteringStreamedRead_rest (h : s.dev.phase = .rest) (he : s.alm.cfg.auxEn.testBit 0 = true) (hb : s.alm.cfg.baseA ≤ adr.toNat)
    (ha : adr.toNat < s.alm.cfg.baseA + 16) (n : Nat) :
    ∃ t, exec (.meteringStreamedRead .twa adr o n) s = .next t ∧ t.twi.nak = true ∧ t.dev.phase = .wakePll ∧ t.clk.wake = 2#32 := by
  have hn : s.auxNone .twa adr = s.noAck.wake .twa := if_pos ⟨hb, ha⟩
  obtain ⟨hp, hw, -, hk⟩ := State.wake_target (s := s.noAck) (.inr rfl) h he
  rw [exec_meteringStreamedRead_none (State.auxPort_of_rest h ..), hn]
  exact ⟨_, rfl, hk, hp, hw⟩

/-! ## The copies (R329) -/

theorem metStatRead_spec (hs : s.served = true) (a : AuxTarget) (p : Port) :
    ∃ t, exec (.metStatRead (AuxTarget.target a) p) s = .next t ∧ t = { s with twi := t.twi } ∧
      t.twi.metCopy[Target.idx (AuxTarget.target a)] = some (p, (s.port p).metWords) ∧
      t.twi.metCopy[Target.idx .twm] = s.twi.metCopy[Target.idx .twm] := by
  refine ⟨_, (if_pos hs : execMetStatRead (AuxTarget.target a) p s = _), rfl, ?_, ?_⟩ <;>
    cases a <;> simp [State.latchMet, Target.idx, AuxTarget.target]

theorem cisStatRead_spec (hs : s.served = true) :
    ∃ t, exec (.cisStatRead .twm) s = .next t ∧ t = { s with twi := { s.twi with cisCopy := some s.ledgerWords } } := by
  refine ⟨_, ?_, rfl⟩
  show execCisStatRead .twm s = _
  simp [execCisStatRead, hs]

/-- Settles O49: a target that serves the port, one that serves nothing there, TWA in rest, and the two reads that keep a copy. -/
theorem meteringTargets : Obligations.MeteringTargets := by
  intro s a adr p o c b w n
  refine ⟨fun h ho hw => metering_served h ho hw c b n, fun h hr => ?_, fun h he hb ha => meteringStreamedRead_rest h he hb ha n,
    fun hs => ⟨metStatRead_spec hs a p, cisStatRead_spec hs⟩⟩
  rw [exec_meteringStreamedRead_none h, State.auxNone_of_not_rest hr]
  exact ⟨_, rfl, rfl⟩

end Sys2Proof.Machine
end

section
/-! SUPPORT. The obligation on the host's writes to a loop slot and on the grants of the trough (R41, R245, R258 to R262, R387, R428). -/

namespace Sys2Proof.Machine

variable {s : State} {p : Port}

/-! ## A word of the trough -/

theorem beNat_wordBytes (w : Word) : beNat (wordBytes w) = w.toNat := by
  have h := w.isLt
  simp only [beNat, wordBytes, List.foldl_cons, List.foldl_nil, BitVec.extractLsb'_toNat, Nat.shiftRight_eq_div_pow]
  omega

theorem memReads_length (d : Nat → Byte) (m : List Host.Cell) (a n : Nat) : (memReads d m a n).length = n := by
  induction n generalizing a with
  | zero => rfl
  | succ n ih => exact congrArg (· + 1) (ih (a + 1))

theorem memReads_getElem (d : Nat → Byte) (m : List Host.Cell) (a n i : Nat) (h : i < (memReads d m a n).length) :
    (memReads d m a n)[i] = memRead d m (a + i) := by
  induction n generalizing a i with
  | zero => cases h
  | succ n ih =>
    cases i with
    | zero => rfl
    | succ i =>
      have := ih (a + 1) i (Nat.lt_of_succ_lt_succ h)
      rw [show a + (i + 1) = a + 1 + i by omega]
      exact this

/-- Bytes written from an address on are read back from there. -/
theorem memReads_writes {d : Nat → Byte} {m : List Host.Cell} (w : memWf d m = true) (a : Nat) (l : List Byte) :
    memReads d (memWrites d m a l) a l.length = l := by
  refine List.ext_getElem (memReads_length ..) fun i _ hi => ?_
  rw [memReads_getElem, memRead_writes d w, dif_pos (by omega)]
  simp

theorem Trough.word_write {t : Trough} (h : t.wf = true) (a : Nat) (w : Word) : (t.write a (wordBytes w)).word a = w := by
  have e : memReads t.dflt (memWrites t.dflt t.cells a (wordBytes w)) a 4 = wordBytes w := memReads_writes h a (wordBytes w)
  show BitVec.ofNat 32 (beNat (memReads t.dflt (memWrites t.dflt t.cells a (wordBytes w)) a 4)) = w
  rw [e, beNat_wordBytes, BitVec.ofNat_toNat, BitVec.setWidth_eq]

/-- A word written to the trough touches its own four bytes alone. -/
theorem Trough.read_write_word {t : Trough} (h : t.wf = true) {a x : Nat} (w : Word) (hx : x < a ∨ a + 4 ≤ x) :
    (t.write a (wordBytes w)).read x = t.read x := by
  rw [Trough.read_write h, dif_neg]
  simp only [wordBytes, List.length_cons, List.length_nil]
  omega

/-! ## A grant of the trough (R41, R428) -/

/-- An arbiter grants the one requester there is, wherever its pointer stands. -/
theorem rrPick_one (ptr : Nat) {n : Nat} (w : Fin n) : rrPick ptr n (fun k => [w].any fun r => r.val = k) = some w.val := by
  have hn : 0 < n := w.pos
  have hmem : w.val ∈ (List.range n).map fun k => (ptr + k) % n := by
    refine List.mem_map.2 ⟨(w.val + (n - ptr % n)) % n, List.mem_range.2 (Nat.mod_lt _ hn), ?_⟩
    have hlt := Nat.mod_lt ptr hn
    have hw := w.isLt
    rw [Nat.add_mod_mod, ← Nat.mod_add_mod, show ptr % n + (w.val + (n - ptr % n)) = w.val + n by omega, Nat.add_mod_right,
      Nat.mod_eq_of_lt hw]
  have hwant : ([w].any fun r => r.val = w.val) = true := by simp
  obtain ⟨k, hk⟩ := Option.isSome_iff_exists.1
    (List.find?_isSome (p := fun k => [w].any fun r => r.val = k) |>.2 ⟨w.val, hmem, hwant⟩)
  have hkw : w.val = k := by simpa using List.find?_some hk
  exact hk.trans (congrArg some hkw.symm)

theorem troughGrant_spec (s : State) (w : Fin 26) (p : Port) (i : Fin 256) (v : Word) (l : List (Port × Fin 256 × Word)) :
    (∃ t, exec (.troughGrant [w]) s = .next t ∧ t.pmp.troughPtr = (w.val + 1) % 26 ∧ t.ports = s.ports) ∧
    (s.trough.wf = true → s.pmp.coefQ = (p, i, v) :: l →
      ∃ t, exec (.troughGrant [25]) s = .next t ∧ t.pmp.coefQ = l ∧ t.trough.word (slotAt p + 4 * i.val) = v ∧
        (∀ a, a < slotAt p + 4 * i.val ∨ slotAt p + 4 * i.val + 4 ≤ a → t.trough.read a = s.trough.read a)) := by
  have he (w : Fin 26) : exec (.troughGrant [w]) s = execTroughGrant [w] s := rfl
  refine ⟨?_, fun hw hq => ?_⟩ <;> rw [he, execTroughGrant, rrPick_one]
  · dsimp only
    split
    · split <;> exact ⟨_, rfl, rfl, rfl⟩
    · exact ⟨_, rfl, rfl, rfl⟩
  · simp only [hq]
    exact ⟨_, rfl, rfl, Trough.word_write hw _ v, fun a ha => Trough.read_write_word hw v ha⟩

/-! ## The host's writes (R258 to R262) -/

section
variable (hs : s.served = true) (hu : s.dev.unlock = true) (hc : s.twi.commits = [])
include hs hu hc

/-- MANUAL: at once where the stage stands, and at the next trigger where it runs (R259). -/
theorem loopManual_spec (hl : (s.port p).loop.limp = false) :
    ∃ t, exec (.loopManual p) s = .next t ∧ s.othersKept p t ∧
      (if (s.port p).stg.den then (t.port p).loop = { (s.port p).loop with ctl := false, manPend := true }
       else (t.port p).loop.ctl = false ∧ (t.port p).loop.auto = false ∧ (t.port p).loop.host = true ∧
         (t.port p).loop.preset = false) := by
  have he : s.wrLoopCtl p 0#32 =
      s.onPort p fun x => { x with loop := { x.loop with ctl := false }.toManual x.stg.den } := by
    simp [State.wrLoopCtl, State.locked_open _ _ hu, hl]
  refine ⟨_, (State.hostWrite_alone hc hs _ _ _ : execLoopManual p s = _), ?_⟩
  rw [he]
  refine ⟨s.onPort_othersKept p _, ?_⟩
  rw [State.onPort_port_self]
  cases hd : (s.port p).stg.den <;> simp [Loop.toManual]

/-- AUTO: through PRESET, with the manual ratio held (R260, R261). -/
theorem loopAuto_spec (hl : (s.port p).loop.limp = false) (ha : (s.port p).loop.auto = false) (hh : (s.port p).loop.held = false) :
    ∃ t, exec (.loopAuto p) s = .next t ∧ s.othersKept p t ∧ (t.port p).loop.ctl = true ∧ (t.port p).loop.auto = true ∧
      (t.port p).loop.preset = true ∧ (t.port p).loop.mheld = (s.port p).loop.mduty ∧ (t.port p).stg = (s.port p).stg := by
  have he : s.wrLoopCtl p 1#32 = s.onPort p fun x => { x with
      loop := { ({ x.loop with ctl := true } : Loop).toAuto x.loop.mduty with fromHost := true } } := by
    simp [State.wrLoopCtl, State.locked_open _ _ hu, hl, State.hostAuto, ha, hh]
  refine ⟨_, (State.hostWrite_alone hc hs _ _ _ : execLoopAuto p s = _), ?_⟩
  rw [he]
  refine ⟨s.onPort_othersKept p _, ?_⟩
  rw [State.onPort_port_self]
  exact ⟨rfl, rfl, rfl, rfl, rfl⟩

theorem loopMdutyWrite_spec (w : Word) :
    ∃ t, exec (.loopMdutyWrite p w) s = .next t ∧ s.othersKept p t ∧ (t.port p).loop = { (s.port p).loop with mduty := w } := by
  have he : s.wrLoopMduty p w = s.onPort p fun x => { x with loop := { x.loop with mduty := w } } := State.locked_open _ _ hu
  refine ⟨_, (State.hostWrite_alone hc hs _ _ _ : execLoopMdutyWrite p w s = _), ?_⟩
  rw [he]
  exact ⟨s.onPort_othersKept p _, by rw [State.onPort_port_self]⟩

/-- A coefficient word: it waits for the trough in MANUAL, and is dropped with an event in AUTO (R262). -/
theorem coefWindowWrite_spec (i : Fin 256) (w : Word) :
    ((s.port p).loop.auto = false →
      ∃ t, exec (.coefWindowWrite p i w) s = .next t ∧ t.pmp.coefQ = s.pmp.coefQ ++ [(p, i, w)] ∧ t.ports = s.ports) ∧
    ((s.port p).loop.auto = true →
      ∃ t, exec (.coefWindowWrite p i w) s = .next t ∧ t.pmp.coefQ = s.pmp.coefQ ∧
        (t.port p).loop.evt = setBit (s.port p).loop.evt 3 ∧ s.othersKept p t) := by
  have he : exec (.coefWindowWrite p i w) s = .next (s.wrCoef p i w) :=
    (State.hostWrite_alone hc hs _ _ _ : execCoefWindowWrite p i w s = _)
  rw [he, State.wrCoef, State.locked_open _ _ hu]
  refine ⟨fun ha => ?_, fun ha => ?_⟩
  · rw [if_neg (Bool.eq_false_iff.1 ha)]
    exact ⟨_, rfl, rfl, rfl⟩
  · rw [if_pos ha]
    refine ⟨_, rfl, rfl, ?_, (s.onPort_othersKept p _).trans (State.onPort_othersKept _ p _)⟩
    simp [State.loopEvt, State.loopCnt]

end

/-- Settles O18: one theorem for each write and one for the grants. -/
theorem loopSlotWrites : Obligations.LoopSlotWrites :=
  ⟨fun _ _ i w hs hu hc => ⟨loopManual_spec hs hu hc, loopAuto_spec hs hu hc, loopMdutyWrite_spec hs hu hc w,
    (coefWindowWrite_spec hs hu hc i w).1, (coefWindowWrite_spec hs hu hc i w).2⟩, troughGrant_spec⟩

end Sys2Proof.Machine
end

section
/-! SUPPORT. What operations on other ports leave of a port that is no source, and of what it is judged by: a sibling may command the
current of the stage they share, and the end of a shed takes the cuts back; all else stands (R165 to R171, R201, R238). -/

namespace Sys2Proof.Machine

variable {s t u : State} {p q : Port}

/-! ## The view of a port -/

/-- A port but for its loop slot and its cut. -/
def PortState.core (x : PortState) : PortState := { x with loop := Loop.reset, pd := { x.pd with cut := 0 } }

/-- A port's core, and what bears on it from outside: the device, the links, the almanac and the die temperatures. -/
def State.viewOf (s : State) (p : Port) : Dev × Clk × Alm × GrdG × PortState := (s.dev, s.clk, s.alm, s.grd, (s.port p).core)

@[simp] theorem State.ite_viewOf (c : Prop) [Decidable c] (a b : State) :
    (if c then a else b).viewOf p = if c then a.viewOf p else b.viewOf p := apply_ite (State.viewOf · p) c a b

theorem State.onPort_viewOf {f : PortState → PortState} (h : (f (s.port q)).core = (s.port q).core) :
    (s.onPort q f).viewOf p = s.viewOf p := by
  simp only [State.viewOf, State.onPort_port, State.onPort_dev, State.onPort_clk, State.onPort_alm, State.onPort_grd]
  split
  · next e => rw [h, e]
  · rfl

theorem State.onPort_viewOf_ne (h : q ≠ p) (f : PortState → PortState) : (s.onPort q f).viewOf p = s.viewOf p := by
  simp [State.viewOf, State.onPort_port_ne s q p f (Ne.symm h)]

theorem State.foldl_viewOf {α : Type} {f : State → α → State} (hf : ∀ s a, (f s a).viewOf p = s.viewOf p) (l : List α)
    (s : State) : (l.foldl f s).viewOf p = s.viewOf p := by
  induction l generalizing s with
  | nil => rfl
  | cons a l ih => exact (ih (f s a)).trans (hf s a)

section
variable (h : t.viewOf p = s.viewOf p)
include h

theorem State.core_of_viewOf : (t.port p).core = (s.port p).core := congrArg (·.2.2.2.2) h
theorem State.tc_of_viewOf : (t.port p).tc = (s.port p).tc := congrArg (·.tc) (State.core_of_viewOf h)
theorem State.slc_of_viewOf : (t.port p).slc = (s.port p).slc := congrArg (·.slc) (State.core_of_viewOf h)
theorem State.cnt_of_viewOf : (t.port p).cnt = (s.port p).cnt := congrArg (·.cnt) (State.core_of_viewOf h)
theorem State.grd_of_viewOf : (t.port p).grd = (s.port p).grd := congrArg (·.grd) (State.core_of_viewOf h)
theorem State.live_of_viewOf : (t.port p).live = (s.port p).live := congrArg (·.live) (State.core_of_viewOf h)
theorem State.cfg_of_viewOf : (t.port p).cfg = (s.port p).cfg := congrArg (·.cfg) (State.core_of_viewOf h)
theorem State.charge_of_viewOf : (t.port p).pd.charge = (s.port p).pd.charge := congrArg (·.pd.charge) (State.core_of_viewOf h)
theorem State.contract_of_viewOf : (t.port p).pd.contract = (s.port p).pd.contract := congrArg (·.pd.contract) (State.core_of_viewOf h)

theorem State.dieCut_of_viewOf : t.dieCut p = s.dieCut p := by
  have hg : t.grd = s.grd := congrArg (·.2.2.2.1) h
  simp only [State.dieCut, hg]

theorem State.factor_of_viewOf : t.factor p = s.factor p := by
  have ha : t.alm = s.alm := congrArg (·.2.2.1) h
  have hg : t.grd = s.grd := congrArg (·.2.2.2.1) h
  simp only [State.factor, State.fDie, PortState.fNtcNow, ha, hg, State.cfg_of_viewOf h, State.grd_of_viewOf h]

theorem State.canEnable_of_viewOf : t.canEnable p = s.canEnable p := by
  have hc : t.clk = s.clk := congrArg (·.2.1) h
  simp only [State.canEnable, State.lost, State.d2, hc, State.cfg_of_viewOf h, State.tc_of_viewOf h, State.cnt_of_viewOf h]

end

/-! ## Operations that touch no port -/

@[simp] theorem State.post_viewOf (n : Nat) (o : Option Port) (c : Nat) (e : EvCode) : (s.post n o c e).viewOf p = s.viewOf p := rfl
@[simp] theorem State.note_viewOf (n : Nat) (o : Option Port) (c : Nat) (e : Note) : (s.note n o c e).viewOf p = s.viewOf p := rfl
@[simp] theorem State.noteConn_viewOf : (s.noteConn q).viewOf p = s.viewOf p := rfl
@[simp] theorem State.muxUpdate_viewOf : (s.muxUpdate q).viewOf p = s.viewOf p := by unfold State.muxUpdate; split <;> rfl
@[simp] theorem State.cisEvt_viewOf (i : Nat) : (s.cisEvt i).viewOf p = s.viewOf p := rfl
@[simp] theorem State.cisCnt_viewOf (i : Fin 6) : (s.cisCnt i).viewOf p = s.viewOf p := rfl
@[simp] theorem State.cisGrant_viewOf (n : Nat) : (s.cisGrant n).viewOf p = s.viewOf p := rfl
@[simp] theorem State.noteFree_viewOf (n : Int) : (s.noteFree n).viewOf p = s.viewOf p := by simp [State.noteFree]
@[simp] theorem State.onSide_viewOf (e : Bool) (f : LinkPort → LinkPort) : (s.onSide e f).viewOf p = s.viewOf p := by
  unfold State.onSide; split <;> rfl
@[simp] theorem State.sendFrame_viewOf (e : Bool) (f : LinkFrame) : (s.sendFrame e f).viewOf p = s.viewOf p := State.onSide_viewOf ..
@[simp] theorem State.setReq_viewOf (e : Bool) (r : Option LoanReq) : (s.setReq e r).viewOf p = s.viewOf p := by
  unfold State.setReq; split <;> rfl
@[simp] theorem State.withCis_viewOf (c : Cis) : ({ s with cis := c } : State).viewOf p = s.viewOf p := rfl
@[simp] theorem State.askSide_viewOf (e : Bool) (m n : Nat) (x y : Bool) (o : Option (BitVec 16)) :
    (s.askSide e m n x y o).viewOf p = s.viewOf p := by
  simp [State.askSide]
@[simp] theorem State.seek_viewOf (n : Nat) : (s.seek n).viewOf p = s.viewOf p := by simp [State.seek]

/-! ## Operations on another port -/

section
variable (hq : q ≠ p)
include hq

@[simp] theorem State.tcEvt_viewOf (i : Nat) : (s.tcEvt q i).viewOf p = s.viewOf p := State.onPort_viewOf_ne hq _
@[simp] theorem State.tcCnt_viewOf (i : Fin 12) : (s.tcCnt q i).viewOf p = s.viewOf p := State.onPort_viewOf_ne hq _
@[simp] theorem State.pdEvt_viewOf (i : Nat) : (s.pdEvt q i).viewOf p = s.viewOf p := State.onPort_viewOf_ne hq _
@[simp] theorem State.pdCnt_viewOf (i : Fin 13) : (s.pdCnt q i).viewOf p = s.viewOf p := State.onPort_viewOf_ne hq _
@[simp] theorem State.vdmEvt_viewOf (i : Nat) : (s.vdmEvt q i).viewOf p = s.viewOf p := State.onPort_viewOf_ne hq _
@[simp] theorem State.vdmCnt_viewOf (i : Fin 7) : (s.vdmCnt q i).viewOf p = s.viewOf p := State.onPort_viewOf_ne hq _
@[simp] theorem State.slcCmd_viewOf (c : SlcCmd) : (s.slcCmd q c).viewOf p = s.viewOf p := State.onPort_viewOf_ne hq _
@[simp] theorem State.stgCmd_viewOf (c : StgCmd) : (s.stgCmd q c).viewOf p = s.viewOf p := State.onPort_viewOf_ne hq _
@[simp] theorem State.release_viewOf : (s.release q).viewOf p = s.viewOf p := State.onPort_viewOf_ne hq _
@[simp] theorem State.send_viewOf (a : Sop) (k : TxKind) (m : PdMsg) : (s.send q a k m).viewOf p = s.viewOf p := by
  simp [State.send, State.onPort_viewOf_ne, hq]
@[simp] theorem State.protReset_viewOf : (s.protReset q).viewOf p = s.viewOf p :=
  State.onPort_viewOf_ne (s := s) hq fun x => { x with prot := Prot.reset }
@[simp] theorem State.arm_viewOf (i : TimerId) : (s.arm q i).viewOf p = s.viewOf p :=
  State.onPort_viewOf_ne (s := s) hq fun x => { x with pd.live := (i, s.hnd.tagNext) :: x.pd.live.filter fun e => e.1 ≠ i }
@[simp] theorem State.disarm_viewOf (i : TimerId) : (s.disarm q i).viewOf p = s.viewOf p :=
  State.onPort_viewOf_ne (s := s) hq fun x => { x with pd.live := x.pd.live.filter fun e => e.1 ≠ i }
@[simp] theorem State.disarmAll_viewOf : (s.disarmAll q).viewOf p = s.viewOf p :=
  State.onPort_viewOf_ne (s := s) hq fun x => { x with pd.live := [] }

@[simp] theorem State.vdmQuiet_viewOf : (s.vdmQuiet q).viewOf p = s.viewOf p :=
  State.foldl_viewOf (fun _ i => State.disarm_viewOf hq i) _ s
@[simp] theorem State.vdmTimersOff_viewOf : (s.vdmTimersOff q).viewOf p = s.viewOf p :=
  State.foldl_viewOf (fun _ i => State.disarm_viewOf hq i) _ s
@[simp] theorem State.cableTimersOff_viewOf : (s.cableTimersOff q).viewOf p = s.viewOf p :=
  State.foldl_viewOf (fun _ i => State.disarm_viewOf hq i) _ s
@[simp] theorem State.vdmInterrupt_viewOf : (s.vdmInterrupt q).viewOf p = s.viewOf p := by
  simp [State.vdmInterrupt, State.onPort_viewOf_ne, hq]
@[simp] theorem State.endMode_viewOf : (s.endMode q).viewOf p = s.viewOf p := by
  simp [State.endMode, State.onPort_viewOf_ne, hq]
@[simp] theorem State.leave_viewOf (c : ConnState) : (s.leave q c).viewOf p = s.viewOf p := by
  simp [State.leave, State.onPort_viewOf_ne, hq]
@[simp] theorem State.errRecov_viewOf : (s.errRecov q).viewOf p = s.viewOf p := by simp [State.errRecov, hq]

/-! ## The offers and the attachment of another port -/

omit hq in
@[simp] theorem State.isetFirst_viewOf : (s.isetFirst q).viewOf p = s.viewOf p := by
  unfold State.isetFirst
  dsimp only
  split
  · rfl
  · exact State.onPort_viewOf rfl

@[simp] theorem State.limitsFor_viewOf (c : Option Contract) (b : Bool) : (s.limitsFor q c b).viewOf p = s.viewOf p := by
  unfold State.limitsFor
  extract_lets x l t
  have ht : t.viewOf p = s.viewOf p := by simp [t, hq]
  split
  · exact ht
  · refine (State.onPort_viewOf ?_).trans ht
    split <;> rfl

@[simp] theorem State.offerTry_viewOf (n : Nat) : (s.offerTry q n).viewOf p = s.viewOf p := by
  simp [State.offerTry, State.onPort_viewOf_ne, hq]
@[simp] theorem State.offerDue_viewOf : (s.offerDue q).viewOf p = s.viewOf p := by
  simp [State.offerDue, State.offer, State.onPort_viewOf_ne, hq]
@[simp] theorem State.evaluate_viewOf : (s.evaluate q).viewOf p = s.viewOf p := by
  simp [State.evaluate, State.onPort_viewOf_ne, hq]
@[simp] theorem State.vconnTry_viewOf : (s.vconnTry q).viewOf p = s.viewOf p := by
  simp [State.vconnTry, State.vconnOn, State.onPort_viewOf_ne, hq]
@[simp] theorem State.attachSrc_viewOf : (s.attachSrc q).viewOf p = s.viewOf p := by
  simp [State.attachSrc, State.limitsNow, State.onPort_viewOf_ne, hq]
@[simp] theorem State.attachSnk_viewOf : (s.attachSnk q).viewOf p = s.viewOf p := by
  unfold State.attachSnk
  extract_lets s₁ s₂ s₃ s₄ s₅
  have h₄ : s₄.viewOf p = s.viewOf p := by simp [s₄, s₃, s₂, s₁, State.limitsNow, State.onPort_viewOf_ne, hq]
  have h₅ : s₅.viewOf p = s₄.viewOf p := by
    unfold s₅
    split
    · rfl
    · exact State.slcCmd_viewOf hq _
  exact (State.muxUpdate_viewOf ..).trans (h₅.trans h₄)
@[simp] theorem State.twinStart_viewOf : (s.twinStart q).viewOf p = s.viewOf p := by simp [State.twinStart, hq]

end

/-! ## The shed, which chooses sources (R166) -/

theorem State.ne_of_isSrc (hp : (s.port p).tc.isSrc = false) (hr : (s.port q).tc.isSrc = true) : q ≠ p := by
  rintro rfl
  simp [hr] at hp

theorem State.isSrc_of_viewOf (h : t.viewOf p = s.viewOf p) (hp : (s.port p).tc.isSrc = false) : (t.port p).tc.isSrc = false := by
  rw [State.tc_of_viewOf h, hp]

theorem State.shedPort_viewOf (hq : q ≠ p) : (s.shedPort q).viewOf p = s.viewOf p := by
  unfold State.shedPort
  extract_lets c cut s₁ s₂
  have h₂ : s₂.viewOf p = s.viewOf p := by simp [s₂, s₁, State.onPort_viewOf_ne, hq]
  exact (State.post_viewOf ..).trans ((State.withCis_viewOf _).trans h₂)

section
variable (hp : (s.port p).tc.isSrc = false)
include hp

theorem State.shedCuts_viewOf (n : Nat) : (State.shedCuts n s).viewOf p = s.viewOf p := by
  induction n generalizing s with
  | zero => rfl
  | succ n ih =>
    unfold State.shedCuts
    split
    · rfl
    split
    · rfl
    · next r hr =>
      have hsrc := (Bool.and_eq_true_iff.1 (Bool.and_eq_true_iff.1 (List.mem_filter.1 (shedFirst_mem hr)).2).1).1
      have h := State.shedPort_viewOf (s := s) (State.ne_of_isSrc hp hsrc)
      exact (ih (State.isSrc_of_viewOf h hp)).trans h

theorem State.twinNotice_viewOf (q : Port) : (s.twinNotice q).viewOf p = s.viewOf p := by
  unfold State.twinNotice
  extract_lets r
  split
  · next h =>
    exact (State.post_viewOf ..).trans (State.onPort_viewOf_ne (State.ne_of_isSrc hp (Bool.and_eq_true_iff.1 h).2) _)
  · split <;> rfl

theorem State.shedErr_viewOf (n : Nat) : (State.shedErr n s).viewOf p = s.viewOf p := by
  induction n generalizing s with
  | zero => rfl
  | succ n ih =>
    unfold State.shedErr
    split
    · rfl
    split
    · rfl
    · next r hr =>
      have hsrc := (Bool.and_eq_true_iff.1 (List.mem_filter.1 (shedFirst_mem hr)).2).1
      have h₁ := State.errRecov_viewOf (s := s) (State.ne_of_isSrc hp hsrc)
      have h₂ := (State.twinNotice_viewOf (State.isSrc_of_viewOf h₁ hp) r).trans h₁
      exact (ih (State.isSrc_of_viewOf h₂ hp)).trans h₂

theorem State.shed_viewOf : s.shed.viewOf p = s.viewOf p := by
  have hend (t : State) : t.shedEnd.viewOf p = t.viewOf p := by
    unfold State.shedEnd
    split
    · simp [State.viewOf, State.port, PortState.core, State.onPorts]
    · rfl
  have h₁ := State.shedCuts_viewOf hp 48
  have h₂ := (State.shedErr_viewOf (State.isSrc_of_viewOf h₁ hp) 48).trans h₁
  unfold State.shed
  rw [hend]
  split
  · exact h₂
  · exact h₁

end

/-- A change of the ledger shows a port that it leaves no source as the change itself does. -/
theorem State.ledgerOf_viewOf {f : State → State} (hp : ((f s).port p).tc.isSrc = false) :
    (s.ledgerOf q f).viewOf p = (f s).viewOf p := by
  have h := State.noteFree_viewOf (s := f s) (p := p) s.free
  unfold State.ledgerOf State.ledger
  rw [State.cisGrant_viewOf, State.cisGrant_viewOf, State.shed_viewOf (State.isSrc_of_viewOf h hp), h]

/-! ## A twin that its sibling leaves behind (R165, R170, R171) -/

section
variable (hp : (s.port p).tc.isSrc = false) (hq : q ≠ p)
include hp hq

theorem State.tryAttach_viewOf : (s.tryAttach q).viewOf p = s.viewOf p := by
  have hl (n : Nat) : (s.ledgerOf q fun s => s.onPort q fun x => { x with pd := { x.pd with charge := n } }).viewOf p = s.viewOf p := by
    have h := State.onPort_viewOf_ne (s := s) hq fun x => { x with pd := { x.pd with charge := n } }
    exact (State.ledgerOf_viewOf (State.isSrc_of_viewOf h hp)).trans h
  simp [State.tryAttach, State.onPort_viewOf_ne, hq, hl]

theorem State.twinRetry_viewOf : (s.twinRetry q).viewOf p = s.viewOf p := by
  have h := State.onPort_viewOf_ne (s := s) hq fun x => { x with pd := { x.pd with holdTwin := false } }
  have ht := (State.tryAttach_viewOf (State.isSrc_of_viewOf h hp) hq).trans h
  unfold State.twinRetry
  dsimp only
  split
  · rfl
  split
  · split
    · rfl
    · exact ht
  · split
    · rfl
    · exact State.attachSnk_viewOf hq
  · rfl

end

theorem sibOf_ne (p : Port) : sibOf p ≠ p := by
  intro h
  have := congrArg Fin.val h
  unfold sibOf at this
  split at this <;> simp at this <;> omega

/-- What follows for its twin from the end of a port's attachment leaves the port as it is. -/
theorem State.twinFreed_viewOf (hp : (s.port p).tc.isSrc = false) : (s.twinFreed p).viewOf p = s.viewOf p := by
  have hq := sibOf_ne p
  unfold State.twinFreed
  split
  · extract_lets q s₁ s₂ y s₃
    have h₂ : s₂.viewOf p = s.viewOf p := (State.twinStart_viewOf hq).trans (State.onPort_viewOf_ne hq _)
    have h₃ : s₃.viewOf p = s.viewOf p := by
      refine Eq.trans ?_ h₂
      unfold s₃
      split
      · rfl
      · exact State.slcCmd_viewOf hq _
    split
    · exact (State.offerDue_viewOf hq).trans h₂
    split
    · split
      · exact (State.evaluate_viewOf hq).trans h₃
      · exact h₃
    · exact (State.twinRetry_viewOf (State.isSrc_of_viewOf h₂ hp) hq).trans h₂
  · rfl

theorem State.twinAgain_viewOf (hp : (s.port p).tc.isSrc = false) : (s.twinAgain p).viewOf p = s.viewOf p := by
  have hq := sibOf_ne p
  unfold State.twinAgain
  split
  · have h := State.twinStart_viewOf (s := s) hq
    exact (State.twinRetry_viewOf (State.isSrc_of_viewOf h hp) hq).trans h
  · rfl

end Sys2Proof.Machine
end

section
/-! SUPPORT. What a port reset, the end of an attachment and the enabling of a port leave in the port itself (R48, R50, R91, R125, R394). -/

namespace Sys2Proof.Machine

variable {s t u : State} {p q : Port}

/-! ## The end of an attachment: ADM_EN stays -/

theorem State.disarm_tc (s : State) (p : Port) (i : TimerId) : ((s.disarm p i).port p).tc = (s.port p).tc := by
  have h : (s.disarm p i).port p = { s.port p with pd.live := (s.port p).pd.live.filter fun e => e.1 ≠ i } :=
    s.onPort_port_self p fun x => { x with pd.live := x.pd.live.filter fun e => e.1 ≠ i }
  rw [h]

theorem State.disarmAll_port (s : State) (p : Port) : (s.disarmAll p).port p = { s.port p with pd := { (s.port p).pd with live := [] } } :=
  s.onPort_port_self p fun x => { x with pd := { x.pd with live := [] } }

theorem State.protReset_port (s : State) (p : Port) : (s.protReset p).port p = { s.port p with prot := Prot.reset } :=
  s.onPort_port_self p fun x => { x with prot := Prot.reset }

theorem State.endMode_tc (s : State) (p : Port) : ((s.endMode p).port p).tc = (s.port p).tc := by
  have hq : ((s.vdmQuiet p).port p).tc = (s.port p).tc := by
    unfold State.vdmQuiet
    generalize [TimerId.discoverIdentity, .cableLimit, .cableResponse, .partnerDiscovery, .vdmBusy, .vdmSenderResponse, .vdmWaitModeEntry,
      .irqHpdLow] = l
    induction l generalizing s with
    | nil => rfl
    | cons i l ih => exact (ih _).trans (s.disarm_tc p i)
  unfold State.endMode
  extract_lets was s₁ s₂
  have h₂ : (s₂.port p).tc = (s.port p).tc := by simp [s₂, s₁, hq]
  split
  · simp [State.vdmEvt, h₂]
  · exact h₂

theorem State.leave_admEn (s : State) (p : Port) (st : ConnState) : ((s.leave p st).port p).tc.admEn = (s.port p).tc.admEn := by
  unfold State.leave
  extract_lets was busy s₁ s₂ s₃ s₄ s₅ s₆ s₇
  have h₅ : (s₅.port p).tc.admEn = (s.port p).tc.admEn := by
    simp [s₅, s₄, s₃, s₂, s₁, Tc.leave, Tc.vconnOff, State.release, State.disarmAll_port, State.protReset_port, State.endMode_tc]
  have h₆ : (s₆.port p).tc.admEn = (s.port p).tc.admEn := by unfold s₆; split <;> simp [State.tcEvt, h₅]
  have h₇ : (s₇.port p).tc.admEn = (s.port p).tc.admEn := by unfold s₇; split <;> simp [State.slcCmd, h₆]
  split <;> simp [State.stgCmd, h₇]

/-- What of a port its administration sees: whether its pins are live, its fault and reset block, and ADM_EN. -/
def PortState.admin (x : PortState) : Bool × CntP × Bool := (x.live, x.cnt, x.tc.admEn)

theorem State.leave_admin (s : State) (p : Port) (st : ConnState) : ((s.leave p st).port p).admin = (s.port p).admin := by
  have h := s.leave_pathKept p st
  simp only [PortState.admin, h.live, h.cnt, s.leave_admEn]

theorem State.admin_of_viewOf (h : t.viewOf p = s.viewOf p) : (t.port p).admin = (s.port p).admin := by
  simp only [PortState.admin, State.live_of_viewOf h, State.cnt_of_viewOf h, State.tc_of_viewOf h]

/-! ## GUARD_OFF (R116, R125, R128) -/

theorem State.guardOff_isSrc (s : State) (p : Port) : ((s.guardOff p).port p).tc.isSrc = false := by
  unfold State.guardOff
  split
  all_goals simp_all [Tc.isSrc, State.leave_st]

theorem State.guardOff_admin (s : State) (p : Port) : ((s.guardOff p).port p).admin = (s.port p).admin := by
  unfold State.guardOff
  split
  · rfl
  · rfl
  · rfl
  · exact s.leave_admin p _

/-- The cut of a port shows it as it goes to GUARD_OFF. -/
theorem State.guardCut_viewOf (s : State) (p : Port) : (s.guardCut p).viewOf p = (s.guardOff p).viewOf p := by
  have h : (s.ledgerOf p fun s => s.guardOff p).viewOf p = (s.guardOff p).viewOf p := State.ledgerOf_viewOf (s.guardOff_isSrc p)
  exact (State.twinFreed_viewOf (State.isSrc_of_viewOf h (s.guardOff_isSrc p))).trans h

theorem State.guardCut_admin (s : State) (p : Port) : ((s.guardCut p).port p).admin = (s.port p).admin :=
  (State.admin_of_viewOf (s.guardCut_viewOf p)).trans (s.guardOff_admin p)

theorem State.onGrd_admin (s : State) (p : Port) (f : GrdP → GrdP) : ((s.onGrd p f).port p).admin = (s.port p).admin := by
  rw [State.onGrd, State.onPort_port_self]
  rfl

theorem State.dieHotOn_admin (s : State) (p : Port) : ((s.dieHotOn p).port p).admin = (s.port p).admin := by
  unfold State.dieHotOn
  rw [State.guardCut_admin]
  split
  · rfl
  · rw [State.grdEvt, State.onPort_port_self]
    exact s.onGrd_admin p _

theorem State.judgeZero_admin (s : State) (p : Port) : ((s.judgeZero p).port p).admin = (s.port p).admin := by
  have hpost (t : State) : ((t.guardPost p false).port p).admin = (t.port p).admin :=
    t.onGrd_admin p fun g => { g with notice := g.notice || false }
  unfold State.judgeZero
  extract_lets g zero t
  have ht : (t.port p).admin = (s.port p).admin := s.onGrd_admin p _
  split
  · rw [State.guardCut_admin, hpost, ht]
  split
  · unfold State.guardFree
    split
    · rw [State.toUnatt, State.noteFrom_port, State.onPort_port_self]
      exact (hpost t).trans ht
    · rw [hpost, ht]
  · exact ht

/-- A port that goes to GUARD_OFF for a die cut as it is enabled stays there: F is 0 for the cut. -/
theorem State.dieHotOn_guardOff (hst : (s.port p).tc.st = .selftest) :
    ((s.dieHotOn p).port p).tc.st = .guardOff ∧ ((s.dieHotOn p).port p).grd.dieHot = true ∧
      ((s.dieHotOn p).port p).grd.zeroF = (s.port p).grd.zeroF := by
  unfold State.dieHotOn
  generalize hv : (if (s.port p).grd.dieHot then s else (s.onGrd p fun g => { g with dieHot := true }).grdEvt p 6) = v
  have h : (v.port p).tc.st = .selftest ∧ (v.port p).grd.dieHot = true ∧ (v.port p).grd.zeroF = (s.port p).grd.zeroF := by
    rw [← hv]
    split
    · next hd => exact ⟨hst, hd, rfl⟩
    · simp [State.grdEvt, State.onGrd, hst]
  obtain ⟨hs, hd, hz⟩ := h
  have hg : v.guardOff p = v.leave p .guardOff := by simp [State.guardOff, hs]
  have hview := v.guardCut_viewOf p
  have hgrd : ((v.guardCut p).port p).grd = (v.port p).grd := by
    rw [State.grd_of_viewOf hview, hg]
    exact congrArg (·.2.2.2.2.2) ((v.leave_pathKept p .guardOff).2 p)
  refine ⟨?_, by rw [hgrd, hd], by rw [hgrd, hz]⟩
  rw [State.tc_of_viewOf hview, hg, State.leave_st]

theorem State.judgeZero_of_dieHot (hd : (s.port p).grd.dieHot = true) (hz : (s.port p).grd.zeroF = false) : s.judgeZero p = s := by
  have hg : (s.onGrd p fun g => { g with zeroF := false }) = s := State.onPort_of_eq (by rw [← hz])
  simp [State.judgeZero, hd, hz, hg]

/-! ## A port is enabled (R91, R125) -/

/-- The port as it enters its self-test, before any cut bears on it. -/
def State.entered (s : State) (p : Port) : State := (s.onPort p (PortState.enter p)).noteConn p

theorem State.entered_port (s : State) (p : Port) : (s.entered p).port p = (s.port p).enter p := s.onPort_port_self ..

theorem State.enable_entered (s : State) (p : Port) :
    s.enable p = (if (s.entered p).dieCut p then (s.entered p).dieHotOn p else s.entered p).judgeZero p := rfl

theorem State.enable_admin (s : State) (p : Port) :
    ((s.enable p).port p).admin = (true, (s.port p).cnt, (s.port p).tc.admEn) := by
  have h : ((s.entered p).port p).admin = (true, (s.port p).cnt, (s.port p).tc.admEn) := by
    rw [s.entered_port]
    rfl
  rw [s.enable_entered, State.judgeZero_admin]
  split
  · rw [State.dieHotOn_admin, h]
  · exact h

/-- While a die cut bears on it a port goes on to GUARD_OFF (R125). -/
theorem State.enable_of_dieCut (h : s.dieCut p = true) :
    ((s.enable p).port p).grd.dieHot = true ∧ ((s.enable p).port p).tc.st = .guardOff := by
  have hc : (s.entered p).dieCut p = true := h
  have hst : ((s.entered p).port p).tc.st = .selftest := by rw [s.entered_port]; rfl
  have hz : ((s.entered p).port p).grd.zeroF = false := by rw [s.entered_port]; rfl
  obtain ⟨h₁, h₂, h₃⟩ := State.dieHotOn_guardOff hst
  rw [s.enable_entered, if_pos hc, State.judgeZero_of_dieHot h₂ (h₃.trans hz)]
  exact ⟨h₂, h₁⟩

/-- Under no cut it enters its self-test, and nothing but the port and the yard changes. -/
theorem State.enable_of_uncut (hd : s.dieCut p = false) (hf : s.factor p ≠ 0) :
    ((s.enable p).port p).tc.st = .selftest ∧ ((s.enable p).port p).live = true ∧ s.onlyPortYard p (s.enable p) := by
  have he : s.enable p = s.entered p := State.enable_eq hd hf
  rw [he, s.entered_port]
  exact ⟨rfl, rfl, State.onPort_post_onlyYard ..⟩

/-! ## A port reset runs (R48, R50, R394) -/

theorem Slc.fault_onReq (c : Slc) (k : FaultKind) (sink : Bool) : (c.fault k sink).onReq = false := by
  unfold Slc.fault
  cases k with
  | limp => dsimp only; split <;> rfl
  | _ => rfl

theorem Slc.offSt_fault {c : Slc} (h : c.st = .fault) : c.offSt = .fault := by simp [Slc.offSt, Slc.passing, h, SlcState.passing]

section
variable (x : PortState)

theorem PortState.beginReset_cnt : x.beginReset.cnt = { x.cnt.clear with busy := true } := rfl

theorem PortState.beginReset_onReq : x.beginReset.slc.onReq = false := by
  unfold PortState.beginReset
  dsimp only
  split
  · exact Slc.fault_onReq ..
  · split <;> rfl

/-- With no fault state entered since the reset was accepted none holds after it, and the sluice leaves FAULT for OFF (R50, R394). -/
theorem PortState.beginReset_of_since (h : x.cnt.since = []) :
    x.beginReset.cnt.any = false ∧
      (x.slc.st = .fault → x.beginReset.slc.st = .off ∧ x.beginReset.slc.dsc = false ∧ x.beginReset.slc.window = true) := by
  have hc : x.cnt.clear.fetg = false ∧ x.cnt.clear.fets = false ∧ x.cnt.clear.dscf = false ∧ x.cnt.clear.phyx = false ∧
      x.cnt.clear.first = 0 := by
    simp [CntP.clear, CntP.firstOf, h]
  obtain ⟨h₁, h₂, h₃, h₄, h₅⟩ := hc
  have hlimp : x.cnt.clear.limp = false := rfl
  refine ⟨by simp [PortState.beginReset_cnt, CntP.any, h₁, h₂, h₃, h₄, hlimp], fun hf => ?_⟩
  have hg : CntP.governs { x.cnt.clear with busy := true } = none := by simp [CntP.governs, h₂, h₅]
  simp [PortState.beginReset, hg, hf, Slc.openWindow]

end

theorem State.abortSamples_ports (s : State) (p : Port) :
    (s.abortSamples p).ports = (s.onPort p fun x => { x with loop := { x.loop with running := false } }).ports := by
  simp only [State.abortSamples]

theorem State.abortSamples_port (s : State) (p : Port) :
    (s.abortSamples p).port p = { s.port p with loop := { (s.port p).loop with running := false } } := by
  rw [State.port, s.abortSamples_ports]
  exact s.onPort_port_self p fun x => { x with loop := { x.loop with running := false } }

theorem State.abortSamples_othersKept (s : State) (p : Port) : s.othersKept p (s.abortSamples p) := by
  intro q hq
  rw [State.port, s.abortSamples_ports]
  exact s.onPort_port_ne p q _ hq

theorem State.yardDrop_port (s : State) (p : Port) : (s.yardDrop p).port p = { s.port p with pd := { (s.port p).pd with live := [] } } :=
  (s.disarmAll_port p :)

theorem State.slotClear_port (s : State) (p q : Port) : (s.slotClear p).port q = s.port q := rfl

/-- The connection state in which a port reset leaves a port. -/
def PortState.resetSt (x : PortState) : ConnState := if x.tc.st = .fault then .fault else .disabled

/-- A port whose reset runs: its attachment has ended and its sluice was asked off, and then its blocks begin anew. -/
theorem State.resetRun_port (s : State) (p : Port) :
    ∃ (y : PortState) (n : Nat), (s.resetRun p).port p = { y.beginReset with slc := { y.beginReset.slc with gateAt := n } } ∧
      y.tc.st = (s.port p).resetSt ∧ y.cnt = (s.port p).cnt ∧ ((s.port p).slc.st = .fault → y.slc.st = .fault) := by
  have hns : ((s.leave p (s.port p).resetSt).port p).tc.isSrc = false := by
    rw [Tc.isSrc, s.leave_st, PortState.resetSt]
    split <;> rfl
  unfold State.resetRun
  extract_lets s₁ s₂ kept s₃
  have hv : s₁.viewOf p = (s.leave p (s.port p).resetSt).viewOf p :=
    State.ledgerOf_viewOf (f := fun s => s.leave p (s.port p).resetSt) hns
  have h₁ : (s₁.port p).tc.st = (s.port p).resetSt ∧ (s₁.port p).cnt = (s.port p).cnt ∧ (s₁.port p).slc = (s.port p).slc := by
    rw [State.tc_of_viewOf hv, State.cnt_of_viewOf hv, State.slc_of_viewOf hv]
    exact ⟨s.leave_st p _, (s.leave_pathKept p _).cnt p, (s.leave_pathKept p _).slc p⟩
  clear_value s₁
  have h₂ : (s₂.port p).tc.st = (s.port p).resetSt ∧ (s₂.port p).cnt = (s.port p).cnt ∧
      ((s.port p).slc.st = .fault → (s₂.port p).slc.st = .fault) := by
    obtain ⟨c, e, -, hc⟩ := (((s₁.abortSamples p).yardDrop p).slotClear p).slcOff_port p
    rw [State.slotClear_port, State.yardDrop_port, State.abortSamples_port] at e hc
    rw [show s₂.port p = _ from e]
    exact ⟨h₁.1, h₁.2.1, fun hf => hc.trans (Slc.offSt_fault (h₁.2.2 ▸ hf))⟩
  have h₃ : (s₂.port p).halted (s₃.port p) := by
    unfold s₃
    split
    · exact PortState.halted_refl _
    · exact s₂.stageHalt_port p p
  obtain ⟨g, l, r, e, -⟩ := h₃
  refine ⟨s₃.port p, _, State.onPort_port_self .., ?_⟩
  rw [e]
  exact h₂

end Sys2Proof.Machine
end

section
/-! SUPPORT. The obligation on port reset and administrative enable, one theorem for each command (R48, R50, R91, R125, R387, R394). -/

namespace Sys2Proof.Machine

variable {s t : State} {p q : Port}

/-! ## PORT_RESET -/

section
variable (hc : s.twi.commits = []) (hs : s.served = true) (hu : s.dev.unlock = true)
include hc hs hu

theorem exec_portReset (p : Port) : exec (.portReset p) s = .next (s.portReset p) := by
  have he : s.wrCntRst p 1#32 = s.portReset p := by
    rw [State.wrCntRst, State.locked_open _ _ hu]
    rfl
  exact (State.hostWrite_alone hc hs _ _ _ : execPortReset p s = _).trans (congrArg _ he)

/-- A reset in progress ignores another (R50). -/
theorem portReset_busy (hb : (s.port p).cnt.busy = true) : exec (.portReset p) s = .next s := by
  rw [exec_portReset hc hs hu, State.portReset, hb, Bool.or_true, if_pos rfl]

section
variable (hl : s.lost p = false) (hb : (s.port p).cnt.busy = false)
include hl hb

/-- In LIMP the reset waits for the fall of DEN; all that ends at once is the port's sample (R394). -/
theorem portReset_limp (hlimp : (s.port p).cnt.limp = true) (hd : (s.port p).stg.den = true) :
    ∃ t, exec (.portReset p) s = .next t ∧ (t.port p).cnt.busy = true ∧ (t.port p).cnt.limpWait = true ∧
      (t.port p).pd = (s.port p).pd ∧ (t.port p).slc = (s.port p).slc ∧ (t.port p).stg = (s.port p).stg ∧ s.othersKept p t := by
  have he : s.portReset p = ((s.abortSamples p).onPort p PortState.awaitReset).adminNote p := by
    simp [State.portReset, hl, hb, hlimp, hd]
  have hp : (((s.abortSamples p).onPort p PortState.awaitReset).adminNote p).port p = ((s.abortSamples p).port p).awaitReset :=
    State.onPort_port_self ..
  refine ⟨_, (exec_portReset hc hs hu p).trans (congrArg _ he), ?_⟩
  rw [hp, State.abortSamples_port]
  exact ⟨rfl, rfl, rfl, rfl, rfl, (s.abortSamples_othersKept p).trans (State.onPort_othersKept _ p _)⟩

/-- Elsewhere it runs at once: the port is as its blocks begin anew, in FAULT if it was there and else disabled (R48, R50). -/
theorem portReset_runs (hgo : (s.port p).cnt.limp = false ∨ (s.port p).stg.den = false) :
    ∃ t, exec (.portReset p) s = .next t ∧ (t.port p).tc.st = (s.port p).resetSt ∧ (t.port p).cnt.busy = true ∧
      (t.port p).pd.charge = 0 ∧ (t.port p).pd.contract = none ∧ (t.port p).slc.onReq = false ∧
      ((s.port p).cnt.since = [] → (t.port p).cnt.any = false ∧
        ((s.port p).slc.st = .fault → (t.port p).slc.st = .off ∧ (t.port p).slc.dsc = false ∧ (t.port p).slc.window = true)) := by
  have he : s.portReset p = ((s.resetRun p).twinFreed p).adminNote p := by
    rcases hgo with h | h <;> simp [State.portReset, hl, hb, h]
  obtain ⟨y, n, hy, hst, hcnt, hslc⟩ := s.resetRun_port p
  have hst' : ((s.resetRun p).port p).tc.st = (s.port p).resetSt := by rw [hy, ← hst]; rfl
  have hns : ((s.resetRun p).port p).tc.isSrc = false := by
    rw [Tc.isSrc, hst', PortState.resetSt]
    split <;> rfl
  have hv : (((s.resetRun p).twinFreed p).adminNote p).viewOf p = (s.resetRun p).viewOf p :=
    (State.note_viewOf ..).trans (State.twinFreed_viewOf hns)
  refine ⟨_, (exec_portReset hc hs hu p).trans (congrArg _ he), ?_⟩
  rw [State.tc_of_viewOf hv, State.cnt_of_viewOf hv, State.charge_of_viewOf hv, State.contract_of_viewOf hv, State.slc_of_viewOf hv,
    hst', hy]
  refine ⟨rfl, rfl, rfl, rfl, y.beginReset_onReq, fun h0 => ?_⟩
  obtain ⟨hany, hoff⟩ := y.beginReset_of_since (by rw [hcnt, h0])
  exact ⟨hany, fun hf => hoff (hslc hf)⟩

end

end

/-! ## PORT_RESET_COMPLETE -/

/-- A port whose reset has come to its end, before BUSY falls: DISABLED, or FAULT for a fault state that came since. -/
def State.resetEnd (s : State) (p : Port) : State :=
  s.onPort p fun x => { x with tc := { x.tc with st := if x.cnt.any && decide (x.tc.st ≠ .disabled) then .fault else .disabled } }

section
variable (hs : s.served = true) (hb : (s.port p).cnt.busy = true) (hw : (s.port p).cnt.limpWait = false)
  (ho : (s.port p).slc.open' = false)
include hs hb hw ho

/-- Before PORTS_ENABLED a port that may be enabled stays BUSY (R50). -/
theorem portResetComplete_waits (hp : s.portsOn = false) (he : s.canEnable p = true) :
    ∃ t, exec (.portResetComplete p) s = .next t ∧ s.onlyPort p t ∧ (t.port p).cnt.busy = true ∧ (t.port p).cnt.waitOn = true := by
  have hp' : (s.resetEnd p).portsOn = false := hp
  have he' : (s.resetEnd p).canEnable p = true := by rw [← he]; simp [State.canEnable, State.resetEnd, State.lost, State.d2]
  have hx : exec (.portResetComplete p) s =
      .next ((s.resetEnd p).onPort p fun x => { x with cnt := { x.cnt with waitOn := true } }) := by
    show execPortResetComplete p s = _
    rw [execPortResetComplete, hs, hb, hw, ho]
    exact if_pos (show (!(s.resetEnd p).portsOn && (s.resetEnd p).canEnable p) = true by rw [hp', he']; rfl)
  refine ⟨_, hx, ?_⟩
  rw [State.resetEnd, State.onPort_onPort]
  exact ⟨s.onPort_only p _, by simp [hb], by simp⟩

/-- Else BUSY falls, the twin is looked at, and the port is enabled if it may be (R50, R393, R394). -/
theorem exec_portResetComplete (hgo : s.portsOn = true ∨ s.canEnable p = false) :
    exec (.portResetComplete p) s = .next (
      let t := ((s.resetEnd p).resetDone p).twinAgain p
      if t.mayEnable p then t.enable p else t) := by
  have he : (s.resetEnd p).canEnable p = s.canEnable p := by simp [State.canEnable, State.resetEnd, State.lost, State.d2]
  have hn : ¬(!(s.resetEnd p).portsOn && (s.resetEnd p).canEnable p) = true := by
    rw [he, show (s.resetEnd p).portsOn = s.portsOn from rfl]
    rcases hgo with h | h <;> simp [h]
  show execPortResetComplete p s = _
  rw [execPortResetComplete, hs, hb, hw, ho]
  exact if_neg hn

end

/-- The port as BUSY falls: its reset is counted, and nothing outside it has changed. -/
theorem State.resetDone_port (s : State) (p : Port) :
    let t := (s.resetEnd p).resetDone p
    (t.port p).tc.isSrc = false ∧ (t.port p).tc.admEn = (s.port p).tc.admEn ∧ (t.port p).cfg = (s.port p).cfg ∧
      (t.port p).grd = (s.port p).grd ∧
      (t.port p).cnt = { (s.port p).cnt with busy := false, waitOn := false, evt := setBit (s.port p).cnt.evt 1
                                             prstCnt := satInc (s.port p).cnt.prstCnt } := by
  rw [State.resetDone, State.resetEnd, State.onPort_onPort]
  dsimp only
  rw [State.onPort_port_self]
  refine ⟨?_, rfl, rfl, rfl, rfl⟩
  dsimp only [Tc.isSrc]
  split <;> rfl

/-- A port reset is complete. -/
theorem portResetComplete_done (hs : s.served = true) (hb : (s.port p).cnt.busy = true) (hw : (s.port p).cnt.limpWait = false)
    (ho : (s.port p).slc.open' = false) (hgo : s.portsOn = true ∨ s.canEnable p = false) :
    ∃ t, exec (.portResetComplete p) s = .next t ∧ (t.port p).cnt.busy = false ∧
      (t.port p).cnt.prstCnt = satInc (s.port p).cnt.prstCnt ∧ (t.port p).cnt.evt = setBit (s.port p).cnt.evt 1 ∧
      ((s.port p).cfg.twin = false → s.dieCut p = false → s.factor p ≠ 0 → s.onlyPortYard p t) ∧
      (s.portsOn = true → (s.port p).cfg.enabled = true → (s.port p).tc.admEn = true → s.lost p = false →
        (s.d2 (dieOf p)).ucode = false → (s.port p).cnt.any = false → s.dieCut p = false → s.factor p ≠ 0 →
        (t.port p).tc.st = .selftest ∧ (t.port p).live = true) := by
  refine ⟨_, exec_portResetComplete hs hb hw ho hgo, ?_⟩
  obtain ⟨hns, hadm, hcfg, hgrd, hcnt⟩ := s.resetDone_port p
  have hg : s.onlyPortYard p ((s.resetEnd p).resetDone p) := (s.onPort_onlyYard p _).trans (State.onPort_onlyYard _ p _)
  generalize (s.resetEnd p).resetDone p = u at *
  have hv : (u.twinAgain p).viewOf p = u.viewOf p := State.twinAgain_viewOf hns
  have hcnt' := (State.cnt_of_viewOf hv).trans hcnt
  have hd : (u.twinAgain p).dieCut p = s.dieCut p := (State.dieCut_of_viewOf hv).trans (State.dieCut_congr hg.2)
  have hf : (u.twinAgain p).factor p = s.factor p :=
    (State.factor_of_viewOf hv).trans (State.factor_congr hg.2 (by simp [PortState.fNtcNow, hcfg, hgrd]))
  have htwin : (s.port p).cfg.twin = false → s.onlyPortYard p (u.twinAgain p) := fun h => by
    rwa [State.twinAgain, hcfg, h, if_neg Bool.false_ne_true]
  have hcan : (u.twinAgain p).canEnable p = s.canEnable p := by
    obtain ⟨-, -, hclk, -⟩ := hg
    rw [State.canEnable_of_viewOf hv]
    simp [State.canEnable, hcfg, hadm, hcnt, State.lost, State.d2, hclk, CntP.any]
  generalize u.twinAgain p = v at *
  have hkeep : ((if v.mayEnable p then v.enable p else v).port p).cnt = (v.port p).cnt := by
    split
    · exact congrArg (·.2.1) (v.enable_admin p)
    · rfl
  dsimp only
  rw [hkeep, hcnt']
  refine ⟨rfl, rfl, rfl, fun ht hd0 hf0 => ?_, fun _ hen ha hlost huc hany hd0 hf0 => ?_⟩
  · split
    · exact (htwin ht).trans (State.enable_of_uncut (hd.trans hd0) (hf ▸ hf0)).2.2
    · exact htwin ht
  · have hm : v.mayEnable p = true := by
      rw [State.mayEnable, hcan, hcnt']
      simp [State.canEnable, hen, ha, hlost, huc, hany]
    obtain ⟨hst, hlive, -⟩ := State.enable_of_uncut (hd.trans hd0) (hf ▸ hf0)
    rw [if_pos hm]
    exact ⟨hst, hlive⟩

/-! ## ADM_EN (R91) -/

theorem State.served_of_portsOn (h : s.portsOn = true) : s.served = true := by
  cases hp : s.dev.phase <;> simp_all [State.portsOn, State.served]

/-- The state with ADM_EN written, and the hands told. -/
def State.admSet (s : State) (p : Port) (en : Bool) : State :=
  (s.onPort p fun x => { x with tc := { x.tc with admEn := en } }).adminNote p

theorem State.admSet_port (s : State) (p : Port) (en : Bool) :
    (s.admSet p en).port p = { s.port p with tc := { (s.port p).tc with admEn := en } } :=
  s.onPort_port_self p fun x => { x with tc := { x.tc with admEn := en } }

theorem State.admSet_onlyYard (s : State) (p : Port) (en : Bool) : s.onlyPortYard p (s.admSet p en) := s.onPort_post_onlyYard ..

/-- A disabled port presents nothing on CC (R91). -/
theorem State.portPins_disabled (h : (s.port p).tc.st = .disabled) :
    (s.portPins p).cc1 = .highZ ∧ (s.portPins p).cc2 = .highZ := by
  have hcc : (s.port p).ccDrive = (.highZ, .highZ) := by
    unfold PortState.ccDrive
    rw [h]
    cases (s.port p).grd.ccFrame with
    | none => rfl
    | some b => cases b <;> rfl
  unfold State.portPins
  dsimp only
  rw [hcc]
  split
  · exact ⟨rfl, rfl⟩
  split
  · exact ⟨rfl, rfl⟩
  split <;> [split; split; split; split; split; skip] <;> exact ⟨rfl, rfl⟩

section
variable (hc : s.twi.commits = []) (hp : s.portsOn = true) (hu : s.dev.unlock = true)
include hc hp hu

/-- ADM_EN written 0: the attachment ends, and the port is disabled. -/
theorem admDisable_spec (ha : (s.port p).tc.admEn = true) :
    ∃ t, exec (.admDisable p) s = .next t ∧ (t.port p).tc.admEn = false ∧ (t.port p).tc.st = .disabled ∧
      (t.portPins p).cc1 = .highZ ∧ (t.portPins p).cc2 = .highZ := by
  have he : s.wrTcCtl p 0#32 = s.adm p false := by simp [State.wrTcCtl, State.locked_open _ _ hu, ha]
  have hx : exec (.admDisable p) s = .next (s.adm p false) :=
    (State.hostWrite_alone hc (State.served_of_portsOn hp) _ _ _ : execAdmDisable p s = _).trans (congrArg _ he)
  suffices h : ((s.adm p false).port p).tc.admEn = false ∧ ((s.adm p false).port p).tc.st = .disabled from
    ⟨_, hx, h.1, h.2, State.portPins_disabled h.2⟩
  have hset := s.admSet_port p false
  have hn : ¬(!(s.admSet p false).portsOn) = true := by
    rw [show (s.admSet p false).portsOn = s.portsOn from rfl, hp]
    decide
  have hadm : s.adm p false = if ((s.admSet p false).port p).tc.st = .disabled then s.admSet p false
      else (((s.admSet p false).ledgerOf p fun s => s.leave p .disabled).twinFreed p).onPort p fun x =>
        { x with grd := { x.grd with ccFrame := none } } := if_neg hn
  rw [hadm]
  generalize s.admSet p false = u at *
  split
  · next h => exact ⟨by rw [hset], h⟩
  · have hns : ((u.leave p .disabled).port p).tc.isSrc = false := by rw [Tc.isSrc, u.leave_st]; rfl
    have h₁ : (u.ledgerOf p fun s => s.leave p .disabled).viewOf p = (u.leave p .disabled).viewOf p := State.ledgerOf_viewOf hns
    have h₂ := (State.twinFreed_viewOf (State.isSrc_of_viewOf h₁ hns)).trans h₁
    rw [State.onPort_port_self]
    dsimp only
    rw [State.tc_of_viewOf h₂, u.leave_admEn, u.leave_st, hset]
    exact ⟨rfl, rfl⟩

/-- ADM_EN written 1 at a port that may be enabled. -/
theorem admEnable_spec (ha : (s.port p).tc.admEn = false) (hst : (s.port p).tc.st = .disabled) (hen : (s.port p).cfg.enabled = true)
    (hl : s.lost p = false) (huc : (s.d2 (dieOf p)).ucode = false) (hany : (s.port p).cnt.any = false)
    (hb : (s.port p).cnt.busy = false) :
    ∃ t, exec (.admEnable p) s = .next t ∧ (t.port p).tc.admEn = true ∧ (t.port p).live = true ∧
      (s.dieCut p = false → s.factor p ≠ 0 → (t.port p).tc.st = .selftest ∧ s.othersKept p t) ∧
      (s.dieCut p = true → (t.port p).grd.dieHot = true ∧ (t.port p).tc.st = .guardOff) := by
  have he : s.wrTcCtl p 1#32 = s.adm p true := by simp [State.wrTcCtl, State.locked_open _ _ hu, ha, hen]
  have hset := s.admSet_port p true
  have hg := s.admSet_onlyYard p true
  have hm : (s.admSet p true).mayEnable p = true := by
    obtain ⟨-, -, hclk, -⟩ := hg
    have hd : (s.admSet p true).d2 (dieOf p) = s.d2 (dieOf p) := by simp only [State.d2, hclk]
    have hl' : (s.d2 (dieOf p)).d2df = false := hl
    simp [State.mayEnable, State.canEnable, State.lost, hd, hset, hen, hl', huc, hany, hb]
  have hset' : ((s.admSet p true).port p).tc.st = (s.port p).tc.st := by rw [hset]
  have hadm : s.adm p true = (s.admSet p true).enable p := by
    have hn : ¬(!(s.admSet p true).portsOn) = true := by
      rw [show (s.admSet p true).portsOn = s.portsOn from rfl, hp]
      decide
    exact (if_neg hn).trans ((if_pos rfl).trans (if_pos ⟨hset' ▸ hst, hm⟩))
  have hx : exec (.admEnable p) s = .next ((s.admSet p true).enable p) :=
    (State.hostWrite_alone hc (State.served_of_portsOn hp) _ _ _ : execAdmEnable p s = _).trans (congrArg _ (he.trans hadm))
  have hd : (s.admSet p true).dieCut p = s.dieCut p := State.dieCut_congr hg.2
  have hf : (s.admSet p true).factor p = s.factor p := State.factor_congr hg.2 (by rw [hset]; rfl)
  have hk := (s.admSet p true).enable_admin p
  refine ⟨_, hx, (congrArg (·.2.2) hk).trans (by rw [hset]), congrArg (·.1) hk, fun hd0 hf0 => ?_, fun hd1 => ?_⟩
  · obtain ⟨h, -, ho⟩ := State.enable_of_uncut (hd.trans hd0) (hf ▸ hf0)
    exact ⟨h, (hg.trans ho).1⟩
  · exact State.enable_of_dieCut (hd.trans hd1)

end

/-- Settles O47: the reset as it waits, runs, is ignored, stays BUSY and completes, and the two writes of ADM_EN. -/
theorem portResetAndEnable : Obligations.PortResetAndEnable := by
  intro s p hc
  refine ⟨fun hs hu hl hb hlimp hd => portReset_limp hc hs hu hl hb hlimp hd, fun hs hu hl hb hst hgo => ?_,
    fun hs hu hl hb hst h0 hgo => ?_, fun hs hb hu => portReset_busy hc hs hu hb,
    fun hs hb hw ho hp he => portResetComplete_waits hs hb hw ho hp he, fun hs hb hw ho hgo => portResetComplete_done hs hb hw ho hgo,
    fun hp hu ha => admDisable_spec hc hp hu ha, fun hp hu ha hst hen hl huc hany hb => admEnable_spec hc hp hu ha hst hen hl huc hany hb⟩
  · obtain ⟨t, he, ht, hbusy, hch, hcon, hreq, -⟩ := portReset_runs hc hs hu hl hb hgo
    exact ⟨t, he, hbusy, ht.trans (if_neg hst), hch, hcon, hreq⟩
  · obtain ⟨t, he, ht, hbusy, hch, -, hreq, hsince⟩ := portReset_runs hc hs hu hl hb hgo
    exact ⟨t, he, hbusy, (hsince h0).1, ht.trans (if_pos hst), hch, hreq, (hsince h0).2⟩

end Sys2Proof.Machine
end

section
/-! SUPPORT. Frames of the operations on one port's timers, messages and VDM exchanges: nothing but the port and the yard changes. -/

namespace Sys2Proof.Machine

variable {s t u : State} {p q : Port}

theorem State.onlyPortYard_ite {c : Prop} [Decidable c] (h : s.onlyPortYard p t) (k : s.onlyPortYard p u) :
    s.onlyPortYard p (if c then t else u) := by
  split <;> assumption

theorem State.foldl_onlyYard {α : Type} {f : State → α → State} (hf : ∀ (s : State) (a : α), s.onlyPortYard p (f s a)) (l : List α)
    (s : State) :
    s.onlyPortYard p (l.foldl f s) := by
  induction l generalizing s with
  | nil => exact s.onlyPortYard_refl p
  | cons a l ih => exact (hf s a).trans (ih (f s a))

theorem State.post_onlyYard (s : State) (p : Port) (n : Nat) (o : Option Port) (c : Nat) (e : EvCode) :
    s.onlyPortYard p (s.post n o c e) := s.onlyPortYard_refl p

/-! ## Timers -/

theorem State.arm_onlyYard (s : State) (p : Port) (i : TimerId) : s.onlyPortYard p (s.arm p i) :=
  s.onPort_onlyYard p fun x => { x with pd.live := (i, s.hnd.tagNext) :: x.pd.live.filter fun e => e.1 ≠ i }

theorem State.arm_port (s : State) (p : Port) (i : TimerId) :
    (s.arm p i).port p = { s.port p with pd.live := (i, s.hnd.tagNext) :: (s.port p).pd.live.filter fun e => e.1 ≠ i } :=
  s.onPort_port_self p fun x => { x with pd.live := (i, s.hnd.tagNext) :: x.pd.live.filter fun e => e.1 ≠ i }

theorem State.arm_armed (s : State) (p : Port) (i : TimerId) : (s.arm p i).armed p i :=
  ⟨(i, s.hnd.tagNext), by simp [State.arm_port], rfl⟩

theorem State.armed_of_live (h : (t.port p).pd.live = (s.port p).pd.live) {i : TimerId} (k : s.armed p i) : t.armed p i := by
  rwa [State.armed, h]

theorem State.arm_armed_ne {i j : TimerId} (h : s.armed p i) (hne : i ≠ j) : (s.arm p j).armed p i := by
  obtain ⟨e, he, rfl⟩ := h
  exact ⟨e, by simp [State.arm_port, he, hne], rfl⟩

theorem State.disarm_onlyYard (s : State) (p : Port) (i : TimerId) : s.onlyPortYard p (s.disarm p i) :=
  s.onPort_onlyYard p fun x => { x with pd.live := x.pd.live.filter fun e => e.1 ≠ i }

theorem State.disarm_port (s : State) (p : Port) (i : TimerId) :
    (s.disarm p i).port p = { s.port p with pd.live := (s.port p).pd.live.filter fun e => e.1 ≠ i } :=
  s.onPort_port_self p fun x => { x with pd.live := x.pd.live.filter fun e => e.1 ≠ i }

theorem State.disarmAll_onlyYard (s : State) (p : Port) : s.onlyPortYard p (s.disarmAll p) :=
  s.onPort_onlyYard p fun x => { x with pd.live := [] }

/-! ## Messages -/

theorem State.protReset_onlyYard (s : State) (p : Port) : s.onlyPortYard p (s.protReset p) :=
  s.onPort_onlyYard p fun x => { x with prot := Prot.reset }

theorem State.vdmQuiet_onlyYard (s : State) (p : Port) : s.onlyPortYard p (s.vdmQuiet p) :=
  State.foldl_onlyYard (fun s i => s.disarm_onlyYard p i) _ s

theorem State.endMode_onlyYard (s : State) (p : Port) : s.onlyPortYard p (s.endMode p) := by
  unfold State.endMode
  extract_lets was s₁ s₂
  have h : s.onlyPortYard p s₂ := (s.vdmQuiet_onlyYard p).trans (s₁.onPort_onlyYard p _)
  exact State.onlyPortYard_ite (h.trans (s₂.onPort_onlyYard p _)) h

end Sys2Proof.Machine
end

section
/-! SUPPORT. What the end of an attachment or of an attach attempt leaves of the port (R91, R164, R196). -/

namespace Sys2Proof.Machine

variable {s t u : State} {p q : Port}

theorem State.pathKept.grd (h : s.pathKept t) (q : Port) : (t.port q).grd = (s.port q).grd := congrArg (·.2.2.2.2.2) (h.2 q)

/-- No contract, no credits and no message are left. -/
theorem State.leave_left (s : State) (p : Port) (st : ConnState) :
    ((s.leave p st).port p).pd.contract = none ∧ ((s.leave p st).port p).pd.charge = 0 ∧ ((s.leave p st).port p).pd.pledge = 0 ∧
      ((s.leave p st).port p).pd.inflow = 0 ∧ ((s.leave p st).port p).prot = Prot.reset := by
  unfold State.leave
  extract_lets was busy s₁ s₂ s₃ s₄ s₅ s₆ s₇
  have h₅ : (s₅.port p).pd.contract = none ∧ (s₅.port p).pd.charge = 0 ∧ (s₅.port p).pd.pledge = 0 ∧ (s₅.port p).pd.inflow = 0 ∧
      (s₅.port p).prot = Prot.reset := by
    simp [s₅, s₄, s₃, State.release, State.protReset_port, Pd.detached, Pd.reset]
  have h₆ : (s₆.port p).pd = (s₅.port p).pd ∧ (s₆.port p).prot = (s₅.port p).prot := by
    unfold s₆; split <;> simp [State.tcEvt]
  have h₇ : ∃ l, (s₇.port p).pd = { (s₆.port p).pd with slcq := l } ∧ (s₇.port p).prot = (s₆.port p).prot := by
    unfold s₇
    split
    · exact ⟨(s₆.port p).pd.slcq ++ [.off], by simp [State.slcCmd]⟩
    · exact ⟨_, rfl, rfl⟩
  obtain ⟨l, hl, hp⟩ := h₇
  split <;> simp [State.stgCmd, hl, hp, h₆, h₅]

/-- The stage gets its stop last. -/
theorem State.leave_stop (st : ConnState) (h : (s.port p).tc.attached = true) :
    ((s.leave p st).port p).pd.stgq.getLast? = some .stop := by
  unfold State.leave
  extract_lets was busy s₁ s₂ s₃ s₄ s₅ s₆ s₇
  have hb : busy = true := by simp [busy, was, h]
  simp [hb, State.stgCmd]

/-- An attach attempt that ends changes nothing but its port and the yard. -/
theorem State.leave_onlyYard (st : ConnState) (h : (s.port p).tc.attached = false) : s.onlyPortYard p (s.leave p st) := by
  unfold State.leave
  extract_lets was busy s₁ s₂ s₃ s₄ s₅ s₆ s₇
  have hw : was = false := h
  have h₄ : s.onlyPortYard p s₄ := (s.endMode_onlyYard p).trans <| (s₁.disarmAll_onlyYard p).trans <|
    (s₂.protReset_onlyYard p).trans (s₃.onPort_onlyYard p _)
  have h₅ : s.onlyPortYard p s₅ := h₄.trans (s₄.onPort_post_onlyYard p ..)
  have e : s₇ = s₅ := by simp [s₇, s₆, hw]
  rw [e]
  exact State.onlyPortYard_ite (h₅.trans (s₅.onPort_onlyYard p _)) h₅

/-- After an attachment has ended in the grant of the cistern, and its twin has been freed, the port shows what the end itself left. -/
theorem State.leaveFreed_viewOf (s : State) (p : Port) {st : ConnState} (h : st ≠ .attSrc) :
    ((s.ledgerOf p fun s => s.leave p st).twinFreed p).viewOf p = (s.leave p st).viewOf p := by
  have hns : ((s.leave p st).port p).tc.isSrc = false := by simp [Tc.isSrc, s.leave_st, h]
  have hl : (s.ledgerOf p fun s => s.leave p st).viewOf p = (s.leave p st).viewOf p :=
    State.ledgerOf_viewOf (f := fun s => s.leave p st) hns
  exact (State.twinFreed_viewOf (State.isSrc_of_viewOf hl hns)).trans hl

theorem State.prot_of_viewOf (h : t.viewOf p = s.viewOf p) : (t.port p).prot = (s.port p).prot :=
  congrArg (·.prot) (State.core_of_viewOf h)

/-- Of the policy machine's state a view leaves out the cut alone. -/
theorem State.pd_of_viewOf (h : t.viewOf p = s.viewOf p) : { (t.port p).pd with cut := 0 } = { (s.port p).pd with cut := 0 } :=
  congrArg (·.pd) (State.core_of_viewOf h)

end Sys2Proof.Machine
end

section
/-! SUPPORT. The obligation on what ends an attachment or an attach attempt, one theorem for each command. -/

namespace Sys2Proof.Machine

variable {s : State} {p : Port}

/-- What is left of a detached port once the cistern and the twin have seen its end. -/
theorem State.detached_spec (s : State) (h : (s.port p).tc.attached = true) :
    let t := (s.ledgerOf p fun s => s.detach p).twinFreed p
    (t.port p).tc.st = .selftest ∧ (t.port p).pd.contract = none ∧ (t.port p).pd.charge = 0 ∧ (t.port p).pd.pledge = 0 ∧
      (t.port p).pd.inflow = 0 ∧ (t.port p).pd.stgq.getLast? = some .stop ∧ (t.port p).prot = Prot.reset ∧ s.memKept t := by
  intro t
  have hv : t.viewOf p = (s.leave p .selftest).viewOf p := s.leaveFreed_viewOf p (by decide)
  have hpd := State.pd_of_viewOf hv
  have hk : s.Same t := (State.ledgerOf_kept s p _ fun s => s.detach_kept p).trans (State.twinFreed_kept _ p)
  obtain ⟨hcon, hch, hpl, hin, hprot⟩ := s.leave_left p .selftest
  rw [State.tc_of_viewOf hv, State.prot_of_viewOf hv]
  exact ⟨s.leave_st p _, (congrArg Pd.contract hpd).trans hcon, (congrArg Pd.charge hpd).trans hch,
    (congrArg Pd.pledge hpd).trans hpl, (congrArg Pd.inflow hpd).trans hin,
    (congrArg (·.stgq.getLast?) hpd).trans (State.leave_stop _ h), hprot, hk.memKept⟩

theorem exec_tsrcdisconnectExpiry (hw : s.works p = true) (hst : (s.port p).tc.st = .attSrc) :
    exec (.tsrcdisconnectExpiry p) s = .next ((s.ledgerOf p fun s => s.detach p).twinFreed p) := by
  show execTsrcdisconnectExpiry p s = _
  simp [execTsrcdisconnectExpiry, hw, Tc.isSrc, hst]

theorem exec_sinkVbusLost (hw : s.works p = true) (hst : (s.port p).tc.st = .attSnk) :
    exec (.sinkVbusLost p) s =
      .next (if (s.port p).pd.snkHr then s else (s.ledgerOf p fun s => s.detach p).twinFreed p) := by
  show execSinkVbusLost p s = _
  cases h : (s.port p).pd.snkHr <;> simp [execSinkVbusLost, hw, Tc.isSnk, hst, h]

/-- An attach attempt that ends returns to the unattached state of the port's role. -/
theorem State.attemptEnds (st : ConnState) (h : (s.port p).tc.attached = false) :
    s.onlyPortYard p ((s.leave p st).toUnatt p) ∧ (((s.leave p st).toUnatt p).port p).tc.st =
      if (s.port p).grd.off then .guardOff else unattOf (s.port p).cfg.role := by
  have hk := s.leave_pathKept p st
  exact ⟨(State.leave_onlyYard st h).trans (State.toUnatt_only _ p), by rw [State.toUnatt_st, hk.cfg, hk.grd]⟩

theorem tpddebounceExpiry_spec (hw : s.works p = true) (hst : (s.port p).tc.st = .attwaitSrc ∨ (s.port p).tc.st = .attwaitSnk) :
    ∃ t, exec (.tpddebounceExpiry p) s = .next t ∧ s.onlyPortYard p t ∧
      (t.port p).tc.st = (if (s.port p).grd.off then .guardOff else unattOf (s.port p).cfg.role) := by
  have hna : (s.port p).tc.attached = false := by rcases hst with h | h <;> simp [Tc.attached, Tc.isSrc, Tc.isSnk, h]
  rcases hst with h | h
  · refine ⟨_, ?_, State.attemptEnds .unattSrc hna⟩
    show execTpddebounceExpiry p s = _
    simp [execTpddebounceExpiry, hw, h]
  · refine ⟨_, ?_, State.attemptEnds .unattSnk hna⟩
    show execTpddebounceExpiry p s = _
    simp [execTpddebounceExpiry, hw, h]

/-- Settles O3: a source and a sink leave the same way, and an attempt by way of the unattached state. -/
theorem detach : Obligations.Detach := by
  unfold Obligations.Detach
  intro s p hw
  refine ⟨fun hst => ?_, fun hst hr => ?_, fun hst hr => ?_, tpddebounceExpiry_spec hw⟩
  · obtain ⟨h₁, h₂, h₃, h₄, -, h₅, h₆, h₇⟩ := s.detached_spec (p := p) (by simp [Tc.attached, Tc.isSrc, hst])
    exact ⟨_, exec_tsrcdisconnectExpiry hw hst, h₁, h₂, h₃, h₄, h₅, h₆, h₇⟩
  · obtain ⟨h₁, h₂, -, -, h₃, h₄, -, h₅⟩ := s.detached_spec (p := p) (by simp [Tc.attached, Tc.isSnk, hst])
    refine ⟨_, exec_sinkVbusLost hw hst, ?_⟩
    rw [hr, if_neg Bool.false_ne_true]
    exact ⟨h₁, h₂, h₃, h₄, h₅⟩
  · rw [exec_sinkVbusLost hw hst, hr, if_pos rfl]

end Sys2Proof.Machine
end

section
/-! SUPPORT. The protocol layer of a port: the end of a packet, what the checks make of it, and a Hard Reset that is recognised
(R106 to R111). -/

namespace Sys2Proof.Machine

variable {s t u : State} {p q : Port}

/-! ## The end of a packet -/

/-- The line becomes idle: of the port, the time of the next GoodCRC is set and nothing else. -/
theorem State.lineIdle_spec (s : State) (p : Port) :
    s.onlyPortYard p (s.lineIdle p) ∧ (s.lineIdle p).hnd = s.hnd ∧
      ∃ n, (s.lineIdle p).port p = { s.port p with prot := { (s.port p).prot with gcAt := n } } :=
  ⟨State.onPort_onlyYard (s.drawIn 25 195).2 p _, rfl, _, State.onPort_port_self ..⟩

/-- A packet has ended: the port's receiver is free, and knows the packet's amplitude. -/
theorem State.packetEnd_spec (s : State) (p : Port) (a : Nat) :
    s.onlyPortYard p (s.packetEnd p a) ∧ (s.packetEnd p a).hnd = s.hnd ∧
      ∃ n, (s.packetEnd p a).port p = { s.port p with prot := { (s.port p).prot with gcAt := n, cur := none }
                                                      tc := { (s.port p).tc with ampLast := a } } := by
  obtain ⟨hy, hh, n, hp⟩ := s.lineIdle_spec p
  exact ⟨hy.trans (State.onPort_onlyYard _ p _), hh, n, by rw [State.packetEnd, State.onPort_port_self, hp]⟩

/-! ## The checks (R106, R107) -/

theorem packetVerdict_few {k : Packet} (h : k.goodK < 3) (v : Bool) : packetVerdict k v = .symbol := by simp [packetVerdict, h]

theorem packetVerdict_crc {k : Packet} (h : 3 ≤ k.goodK) (hs : k.sop = .sop) (hy : k.symbolsOk = true) (he : k.eop = true)
    (hl : k.bytes.length ≤ 30) (hc : crc32 k.bytes ≠ k.crc) (v : Bool) : packetVerdict k v = .crc := by
  simp [packetVerdict, Nat.not_lt.2 h, hs, hy, he, Nat.not_lt.2 hl, hc]

theorem packetVerdict_cable {k : Packet} (h : 3 ≤ k.goodK) (hs : k.sop = .sop1 ∨ k.sop = .sop2) : packetVerdict k false = .silent := by
  rcases hs with hs | hs <;> simp [packetVerdict, Nat.not_lt.2 h, hs]

/-! ## A packet that is taken (R108) -/

/-- The protocol layer once it has taken a packet. -/
def Prot.took (t : Prot) (k : Packet) : Prot :=
  { t with rx := t.rx ++ [⟨k.sop, k.msg⟩], lastId := setId t.lastId k.sop k.msgId, goodCrc := t.goodCrc ++ [(k.sop, k.msgId)] }

/-- A message that is no repetition takes the free receive place. -/
theorem State.accept_new {k : Packet} (hg : ∀ id, k.msg ≠ .goodCrc id) (hi : idOf (s.port p).prot.lastId k.sop ≠ some k.msgId)
    (hr : (s.port p).prot.rx.length < 2) :
    s.accept p k = (((s.onProt p fun t => t.took k).tcCnt p 4).arm p .receiverResponse).postPort p 1 .msg := by
  unfold State.accept
  dsimp only
  split
  next id h => exact absurd h (hg id)
  next => simp [hi, Nat.not_le.2 hr]; rfl

/-- Whatever a good packet is, its taking begins no reception. -/
theorem State.accept_cur (s : State) (p : Port) (k : Packet) : ((s.accept p k).port p).prot.cur = (s.port p).prot.cur := by
  unfold State.accept
  dsimp only
  split
  · split
    · split
      · simp [State.onProt, Prot.txDone]
      · rfl
    · rfl
  · split
    · simp [State.onProt, State.tcCnt]
    · split
      · simp [State.tcCnt]
      · simp [State.onProt, State.tcCnt, State.arm_port]

/-- A timer that is armed asks for nothing. -/
theorem State.arm_reqs (s : State) (p : Port) (i : TimerId) : (s.arm p i).hnd.reqs = s.hnd.reqs := by
  unfold State.arm
  dsimp only [State.drawIn, State.onPort, Hnd.mark]
  split
  · rfl
  · exact (apply_ite Hnd.reqs _ _ _).trans (ite_self _)

/-! ## A Hard Reset is recognised (R110) -/

/-- The protocol layer once a Hard Reset is recognised. -/
def Prot.resetSeen (t : Prot) : Prot := { t with rx := [], cur := none, goodCrc := [], hrLate := false }

theorem State.hardResetSeen_onlyYard (s : State) (p : Port) : s.onlyPortYard p (s.hardResetSeen p) :=
  s.onPort_onlyYard p fun x => { x with prot := x.prot.resetSeen }

theorem State.hardResetSeen_port (s : State) (p : Port) :
    (s.hardResetSeen p).port p = { s.port p with prot := (s.port p).prot.resetSeen } :=
  s.onPort_port_self p fun x => { x with prot := x.prot.resetSeen }

/-- A class 0 event is asked for, and the port's messages have gone from the yard. -/
theorem State.hardResetSeen_hnd (s : State) (p : Port) :
    ⟨p.val, some p, 0, .hardReset, false⟩ ∈ (s.hardResetSeen p).hnd.reqs ∧
      (∀ r ∈ (s.hardResetSeen p).hnd.reqs, r.port = some p → r.ev ≠ .msg) ∧
      ∀ r ∈ (s.hardResetSeen p).hnd.ready, r.port = some p → r.ev = .msg → r.dead = true := by
  have hreq : (s.hardResetSeen p).hnd.reqs =
      s.hnd.reqs.filter (fun r => !(decide (r.port = some p) && decide (r.ev = .msg))) ++ [⟨p.val, some p, 0, .hardReset, false⟩] := rfl
  have hrdy : (s.hardResetSeen p).hnd.ready =
      s.hnd.ready.map fun r => if r.port = some p ∧ r.ev = .msg then { r with dead := true } else r := rfl
  rw [hreq, hrdy]
  refine ⟨by simp, fun r hr hp => ?_, fun r hr hp he => ?_⟩
  · rcases List.mem_append.1 hr with h | h
    · simpa [hp] using (List.mem_filter.1 h).2
    · rw [List.mem_singleton.1 h]
      exact EvCode.noConfusion
  · obtain ⟨x, -, rfl⟩ := List.mem_map.1 hr
    split at hp <;> simp_all

/-! ## The packet in progress ends -/

/-- What a packet brings by the verdict on it. -/
def State.judged (s : State) (p : Port) (k : Packet) : RxVerdict → State
  | .hardReset => s.hardResetSeen p
  | .symbol => s.tcCnt p 6
  | .crc => s.tcCnt p 5
  | .silent => s
  | .good => s.accept p k

theorem exec_packetReceive {a : Nat} (hb : s.bmcRuns p = true) (hc : (s.port p).prot.cur = some a) (k : Packet) :
    exec (.packetReceive p k) s = .next ((s.packetEnd p a).judged p k (packetVerdict k (s.port p).vconnOn)) := by
  obtain ⟨-, -, n, hp⟩ := s.packetEnd_spec p a
  have hv : ((s.packetEnd p a).port p).vconnOn = (s.port p).vconnOn := by rw [hp]; rfl
  show execPacketReceive p k s = _
  simp only [execPacketReceive, hc, hb, hv, Bool.not_true, Bool.false_eq_true, if_false]
  cases packetVerdict k (s.port p).vconnOn <;> rfl

theorem State.judged_cur (k : Packet) (v : RxVerdict) (h : (s.port p).prot.cur = none) : ((s.judged p k v).port p).prot.cur = none := by
  cases v with
  | hardReset => simp [State.judged, State.hardResetSeen_port, Prot.resetSeen]
  | symbol => simp [State.judged, State.tcCnt, h]
  | crc => simp [State.judged, State.tcCnt, h]
  | silent => exact h
  | good => exact (State.accept_cur ..).trans h

end Sys2Proof.Machine
end

section
/-! SUPPORT. The obligation on packets and transmission, one theorem for each command (R105 to R111). -/

namespace Sys2Proof.Machine

variable {s : State} {p : Port}

/-! ## Reception -/

section
variable (hb : s.bmcRuns p = true)
include hb

theorem preambleDetected_spec {amp kbps : Nat} (hc : (s.port p).prot.cur = none) (hl : (s.port p).prot.onLine s.dev.aon = false)
    (h₁ : 270 ≤ kbps) (h₂ : kbps ≤ 330) (ha : Config.preambleMv.val ≤ amp) :
    ∃ t, exec (.preambleDetected p amp kbps) s = .next t ∧ s.onlyPort p t ∧ (t.port p).prot.cur = some amp := by
  refine ⟨s.onProt p fun t => { t with cur := some amp }, ?_, s.onPort_only p _, by simp [State.onProt]⟩
  show execPreambleDetected p amp kbps s = _
  simp [execPreambleDetected, hb, hc, hl, h₁, h₂, ha]

theorem capture_spec {amp a : Nat} (hc : (s.port p).prot.cur = some a) (ha : 3 * a ≤ 2 * amp) :
    ∃ t, exec (.capture p amp) s = .next t ∧ s.onlyPort p t ∧ (t.port p).prot.cur = some amp ∧ (t.port p).tc.ampCapt = amp ∧
      (t.port p).tc.evt = setBit (s.port p).tc.evt 5 := by
  have he : exec (.capture p amp) s = .next ((s.onPort p fun x => { x with
      prot := { x.prot with cur := some amp }, tc := { x.tc with ampCapt := amp, evt := setBit x.tc.evt 5 } }).tcCnt p 7) := by
    show execCapture p amp s = _
    simp [execCapture, hc, hb, ha]
  refine ⟨_, he, ?_⟩
  rw [State.tcCnt, State.onPort_onPort]
  exact ⟨s.onPort_only p _, by simp⟩

theorem packetReceive_message {a : Nat} {k : Packet} (hc : (s.port p).prot.cur = some a)
    (hv : packetVerdict k (s.port p).vconnOn = .good) (hg : ∀ id, k.msg ≠ .goodCrc id)
    (hi : idOf (s.port p).prot.lastId k.sop ≠ some k.msgId) (hr : (s.port p).prot.rx.length < 2) :
    ∃ t, exec (.packetReceive p k) s = .next t ∧ s.onlyPortYard p t ∧
      (t.port p).prot.rx = (s.port p).prot.rx ++ [⟨k.sop, k.msg⟩] ∧
      (t.port p).prot.goodCrc = (s.port p).prot.goodCrc ++ [(k.sop, k.msgId)] ∧
      t.hnd.reqs = s.hnd.reqs ++ [⟨p.val, some p, 1, .msg, false⟩] ∧ (t.port p).tc.ampLast = a := by
  obtain ⟨hy, hh, n, hp⟩ := s.packetEnd_spec p a
  refine ⟨_, exec_packetReceive hb hc k, ?_⟩
  rw [hv, State.judged, State.accept_new hg (by rwa [hp]) (by rwa [hp]), ← hh]
  generalize s.packetEnd p a = u at *
  have hu : u.onlyPortYard p ((u.onProt p fun t => t.took k).tcCnt p 4) := (u.onPort_onlyYard p _).trans (State.onPort_onlyYard _ p _)
  refine ⟨hy.trans (hu.trans (State.arm_onlyYard _ p _)), ?_⟩
  rw [State.postPort_port, State.arm_port]
  simp only [State.onProt, State.tcCnt, State.onPort_onPort, State.onPort_port_self, Prot.took, hp]
  refine ⟨trivial, trivial, ?_, trivial⟩
  rw [State.postPort, State.post_reqs, State.arm_reqs]
  rfl

theorem hardResetOrderedSet_driving (hl : (s.port p).prot.onLine s.dev.aon = true) :
    ∃ t, exec (.hardResetOrderedSet p) s = .next t ∧ s.onlyPort p t ∧
      (t.port p).prot = { (s.port p).prot with hrLate := true } := by
  refine ⟨s.onProt p fun t => { t with hrLate := true }, ?_, s.onPort_only p _, by simp [State.onProt]⟩
  show execHardResetOrderedSet p s = _
  simp [execHardResetOrderedSet, hb, hl]

theorem hardResetOrderedSet_idle (hl : (s.port p).prot.onLine s.dev.aon = false) :
    ∃ t, exec (.hardResetOrderedSet p) s = .next t ∧ s.onlyPortYard p t ∧ (t.port p).prot.rx = [] ∧
      (t.port p).prot.cur = none ∧ ⟨p.val, some p, 0, .hardReset, false⟩ ∈ t.hnd.reqs ∧
      (∀ r ∈ t.hnd.reqs, r.port = some p → r.ev ≠ .msg) ∧
      ∀ r ∈ t.hnd.ready, r.port = some p → r.ev = .msg → r.dead = true := by
  have he : exec (.hardResetOrderedSet p) s = .next (s.hardResetSeen p) := by
    show execHardResetOrderedSet p s = _
    simp [execHardResetOrderedSet, hb, hl]
  refine ⟨_, he, s.hardResetSeen_onlyYard p, ?_⟩
  rw [State.hardResetSeen_port]
  exact ⟨rfl, rfl, s.hardResetSeen_hnd p⟩

/-- A packet that is not delivered ends the reception and at most counts. -/
theorem packetReceive_undelivered {a : Nat} {k : Packet} (hc : (s.port p).prot.cur = some a) :
    ∃ t, exec (.packetReceive p k) s = .next t ∧ (t.port p).prot.cur = none ∧
      (k.goodK < 3 → s.onlyPortYard p t ∧ t.hnd = s.hnd ∧ (t.port p).prot.rx = (s.port p).prot.rx ∧
        (t.port p).tc.cnt = bump (s.port p).tc.cnt 6) ∧
      (3 ≤ k.goodK → k.sop = .sop → k.symbolsOk = true → k.eop = true → k.bytes.length ≤ 30 → crc32 k.bytes ≠ k.crc →
        s.onlyPortYard p t ∧ t.hnd = s.hnd ∧ (t.port p).prot.rx = (s.port p).prot.rx ∧
        (t.port p).tc.cnt = bump (s.port p).tc.cnt 5) ∧
      (3 ≤ k.goodK → k.sop = .sop1 ∨ k.sop = .sop2 → (s.port p).vconnOn = false →
        s.onlyPortYard p t ∧ t.hnd = s.hnd ∧ (t.port p).prot.rx = (s.port p).prot.rx ∧
        (t.port p).tc.cnt = (s.port p).tc.cnt) := by
  obtain ⟨hy, hh, n, hp⟩ := s.packetEnd_spec p a
  refine ⟨_, exec_packetReceive hb hc k, State.judged_cur k _ (by rw [hp]), fun h => ?_, fun h hs hsy he hl hcr => ?_,
    fun h hs hvc => ?_⟩
  · rw [packetVerdict_few h]
    exact ⟨hy.trans (State.onPort_onlyYard _ p _), hh, by simp [State.judged, State.tcCnt, hp]⟩
  · rw [packetVerdict_crc h hs hsy he hl hcr]
    exact ⟨hy.trans (State.onPort_onlyYard _ p _), hh, by simp [State.judged, State.tcCnt, hp]⟩
  · rw [hvc, packetVerdict_cable h hs]
    exact ⟨hy, hh, by simp [State.judged, hp]⟩

/-! ## Transmission -/

section
variable (hd : (s.port p).prot.driving = false) (hc : (s.port p).prot.cur = none)
include hd hc

theorem transmitStart_hardReset (hw : (s.port p).prot.hrWait = true) :
    ∃ t, exec (.transmitStart p) s = .next t ∧ s.onlyPort p t ∧ (t.port p).prot.hrProg = true ∧
      (t.port p).prot.hrWait = false ∧ (t.port p).prot.txq = (s.port p).prot.txq := by
  refine ⟨s.onProt p fun t => { t with hrWait := false, hrProg := true }, ?_, s.onPort_only p _, by simp [State.onProt]⟩
  show execTransmitStart p s = _
  simp [execTransmitStart, hb, hd, hc, hw]

theorem transmitStart_message {m : TxMsg} {l : List TxMsg} (hw : (s.port p).prot.hrWait = false) (ha : (s.port p).prot.await = none)
    (hq : (s.port p).prot.txq = m :: l) :
    ∃ t, exec (.transmitStart p) s = .next t ∧ s.onlyPort p t ∧ (t.port p).prot.inProg = true ∧
      (t.port p).prot.await = some m ∧ (t.port p).prot.txq = l ∧ (t.port p).prot.tries = (s.port p).prot.tries + 1 := by
  have he : exec (.transmitStart p) s = .next
      (let t := s.onProt p fun t => { t with txq := l, inProg := true, await := some m, tries := t.tries + 1 }
       if 0 < (s.port p).prot.tries then t.tcCnt p 9 else t) := by
    show execTransmitStart p s = _
    simp [execTransmitStart, hb, hd, hc, hw, ha, hq]
  refine ⟨_, he, ?_⟩
  dsimp only
  split
  · rw [State.tcCnt, State.onProt, State.onPort_onPort]
    exact ⟨s.onPort_only p _, by simp⟩
  · exact ⟨s.onPort_only p _, by simp [State.onProt]⟩

end

end

theorem State.hrTimers_spec (s : State) (p : Port) :
    s.onlyPortYard p (s.hrTimers p) ∧ ((s.hrTimers p).port p).prot = (s.port p).prot := by
  unfold State.hrTimers
  dsimp only
  split
  · exact ⟨(s.arm_onlyYard p _).trans (State.arm_onlyYard _ p _), by simp [State.arm_port]⟩
  · exact ⟨s.arm_onlyYard p _, by simp [State.arm_port]⟩

/-- What the transmitter drove has ended. -/
def Prot.txEnd (t : Prot) : Prot :=
  { t with inProg := false, hrProg := false, hrLate := false
           goodCrc := if t.inProg || t.hrProg then t.goodCrc else t.goodCrc.drop 1 }

theorem transmitEnd_spec (hgo : (s.port p).prot.inProg = true ∨ (s.port p).prot.hrProg = true ∨
      (s.port p).prot.goodCrc ≠ [] ∧ (s.port p).prot.cur = none) (hl : (s.port p).prot.hrLate = false) :
    ∃ t, exec (.transmitEnd p) s = .next t ∧ s.onlyPortYard p t ∧ (t.port p).prot.inProg = false ∧
      (t.port p).prot.hrProg = false ∧ (t.port p).prot.goodCrc =
        (if (s.port p).prot.inProg = true ∨ (s.port p).prot.hrProg = true then (s.port p).prot.goodCrc
         else (s.port p).prot.goodCrc.tail) := by
  have hgo' : ((s.port p).prot.inProg || (s.port p).prot.hrProg ||
      (!(s.port p).prot.goodCrc.isEmpty && (s.port p).prot.cur.isNone)) = true := by
    simpa [or_assoc] using hgo
  show ∃ t, execTransmitEnd p s = .next t ∧ _
  unfold execTransmitEnd
  extract_lets x s₁ s₂ s₃
  refine ⟨s₃, by simp [x, hgo', hl], ?_⟩
  have h₁ : s.onlyPortYard p s₁ ∧ (s₁.port p).prot = (s.port p).prot.txEnd :=
    ⟨s.onPort_onlyYard p _, congrArg PortState.prot (s.onPort_port_self p _)⟩
  have h₂ : s.onlyPortYard p s₂ ∧ ∃ n, (s₂.port p).prot = { (s.port p).prot.txEnd with gcAt := n } := by
    unfold s₂
    split
    · exact ⟨h₁.1, _, h₁.2⟩
    · obtain ⟨hy, -, n, hp⟩ := s₁.lineIdle_spec p
      exact ⟨h₁.1.trans hy, n, by rw [hp, h₁.2]⟩
  have h₃ : s.onlyPortYard p s₃ ∧ (s₃.port p).prot = (s₂.port p).prot := by
    unfold s₃
    split
    · obtain ⟨hy, hp⟩ := s₂.hrTimers_spec p
      exact ⟨h₂.1.trans hy, hp⟩
    · exact ⟨h₂.1, rfl⟩
  obtain ⟨n, hn⟩ := h₂.2
  rw [h₃.2, hn]
  exact ⟨h₃.1, rfl, rfl, by simp [Prot.txEnd]⟩

theorem treceiveExpiry_again {m : TxMsg} (ha : (s.port p).prot.await = some m) (hi : (s.port p).prot.inProg = false)
    (ht : (s.port p).prot.tries < 3) :
    ∃ t, exec (.treceiveExpiry p) s = .next t ∧ s.onlyPort p t ∧ (t.port p).prot.txq = m :: (s.port p).prot.txq ∧
      (t.port p).prot.await = none := by
  refine ⟨s.onProt p fun t => { t with await := none, txq := m :: t.txq }, ?_, s.onPort_only p _, by simp [State.onProt]⟩
  show execTreceiveExpiry p s = _
  simp [execTreceiveExpiry, ha, hi, ht]

theorem treceiveExpiry_failed {m : TxMsg} (ha : (s.port p).prot.await = some m) (hi : (s.port p).prot.inProg = false)
    (ht : 3 ≤ (s.port p).prot.tries) :
    ∃ t, exec (.treceiveExpiry p) s = .next t ∧ s.onlyPortYard p t ∧ (t.port p).prot.await = none ∧
      (t.port p).tc.evt = setBit (s.port p).tc.evt 6 ∧
      t.hnd.reqs = s.hnd.reqs ++ [⟨p.val, some p, 1, .txFail m.kind, false⟩] := by
  have he : exec (.treceiveExpiry p) s =
      .next ((((s.onProt p fun t => t.txDone m.sop).tcEvt p 6).tcCnt p 10).postPort p 1 (.txFail m.kind)) := by
    show execTreceiveExpiry p s = _
    simp [execTreceiveExpiry, ha, hi, Nat.not_lt.2 ht]
  refine ⟨_, he, ?_⟩
  simp only [State.onProt, State.tcEvt, State.tcCnt, State.onPort_onPort]
  exact ⟨s.onPort_post_onlyYard p .., by simp [Prot.txDone], by simp, rfl⟩

/-- Settles O19: reception and transmission, each command by its theorem. -/
theorem packetsAndTransmission : Obligations.PacketsAndTransmission := by
  unfold Obligations.PacketsAndTransmission
  refine ⟨fun s p amp kbps a k hb => ⟨preambleDetected_spec hb, capture_spec hb, packetReceive_message hb,
      hardResetOrderedSet_driving hb, hardResetOrderedSet_idle hb⟩,
    fun s p a k hb hc _ => packetReceive_undelivered hb hc,
    fun s p m l => ⟨fun hb hd hc => ⟨transmitStart_hardReset hb hd hc, transmitStart_message hb hd hc⟩, transmitEnd_spec,
      fun ha hi => ⟨treceiveExpiry_again ha hi, treceiveExpiry_failed ha hi⟩⟩⟩

end Sys2Proof.Machine
end

section
/-! SUPPORT. FREE: what it rests on, how it follows a port's credits, and a change of the ledger that leaves no deficit (R156, R166,
R331). -/

namespace Sys2Proof.Machine

variable {s t u : State} {p q : Port}

/-! ## Sums over the ports -/

/-- The sum of a quantity over the ports. -/
def State.total (s : State) (g : PortState → Nat) : Nat := s.ports.toList.foldl (fun a x => a + g x) 0

theorem foldl_add_eq_sum {α : Type} (g : α → Nat) (l : List α) (n : Nat) : l.foldl (fun a x => a + g x) n = n + (l.map g).sum := by
  induction l generalizing n with
  | nil => rfl
  | cons x l ih => rw [List.foldl_cons, ih, List.map_cons, List.sum_cons, Nat.add_assoc]

theorem sum_map_set {α : Type} (g : α → Nat) (l : List α) (i : Nat) (h : i < l.length) (a : α) :
    ((l.set i a).map g).sum + g l[i] = (l.map g).sum + g a := by
  induction l generalizing i with
  | nil => simp at h
  | cons x l ih =>
    cases i with
    | zero => simp; omega
    | succ i =>
      have := ih i (by simpa using h)
      simp only [List.set_cons_succ, List.map_cons, List.sum_cons, List.getElem_cons_succ]
      omega

/-- A change of one port changes the sum by its own difference. -/
theorem State.total_onPort (s : State) (p : Port) (f : PortState → PortState) (g : PortState → Nat) :
    (s.onPort p f).total g + g (s.port p) = s.total g + g (f (s.port p)) := by
  have h := sum_map_set g s.ports.toList p.val (by simp) (f s.ports[p])
  rw [← Vector.toList_set (h := p.isLt)] at h
  simp only [State.total, foldl_add_eq_sum, Nat.zero_add]
  exact h

/-- The sum rests on the ports' own quantities. -/
theorem State.total_congr {g : PortState → Nat} (h : ∀ q, g (t.port q) = g (s.port q)) : t.total g = s.total g := by
  have hm : t.ports.toList.map g = s.ports.toList.map g := by
    refine List.ext_getElem (by simp) fun i h₁ _ => ?_
    simpa [State.port] using h ⟨i, by simpa using h₁⟩
  rw [State.total, State.total, foldl_add_eq_sum, foldl_add_eq_sum, hm]

/-! ## FREE -/

/-- A port's entries in the ledger. -/
def PortState.credits (x : PortState) : Nat × Nat × Nat := (x.pd.charge, x.pd.pledge, x.pd.inflow)

/-- While the cistern has its profile FREE is what is held less what is committed (R331). -/
theorem State.free_eq (h : s.cisOn = true) :
    s.free = (s.homeNow + s.borrowed - s.lent + s.total (·.pd.inflow) : Int) - (s.total (·.pd.charge) + s.total (·.pd.pledge) : Nat) -
      s.guardNow := if_pos h

theorem State.free_congr (hd : t.dev = s.dev) (ha : t.alm = s.alm) (hc : t.cis = s.cis)
    (h : ∀ q, (t.port q).credits = (s.port q).credits) : t.free = s.free := by
  have h₁ : t.total (·.pd.inflow) = s.total (·.pd.inflow) := State.total_congr fun q => congrArg (·.2.2) (h q)
  have h₂ : t.total (·.pd.charge) = s.total (·.pd.charge) := State.total_congr fun q => congrArg (·.1) (h q)
  have h₃ : t.total (·.pd.pledge) = s.total (·.pd.pledge) := State.total_congr fun q => congrArg (·.2.1) (h q)
  have hon : t.cisOn = s.cisOn := by simp only [State.cisOn, hd]
  cases hs : s.cisOn with
  | false => rw [State.free, State.free, hon, hs]; rfl
  | true =>
    rw [State.free_eq hs, State.free_eq (hon.trans hs), h₁, h₂, h₃]
    simp only [State.homeNow, State.guardNow, State.borrowed, State.lent, ha, hc]

/-- FREE follows what a port commits. -/
theorem State.free_onPort (hon : s.cisOn = true) {f : PortState → PortState}
    (hi : (f (s.port p)).pd.inflow = (s.port p).pd.inflow) :
    (s.onPort p f).free + (f (s.port p)).pd.charge + (f (s.port p)).pd.pledge =
      s.free + (s.port p).pd.charge + (s.port p).pd.pledge := by
  have h₁ := s.total_onPort p f (·.pd.inflow)
  have h₂ := s.total_onPort p f (·.pd.charge)
  have h₃ := s.total_onPort p f (·.pd.pledge)
  rw [State.free_eq (s := s.onPort p f) hon, State.free_eq hon]
  have e₁ : (s.onPort p f).homeNow = s.homeNow := rfl
  have e₂ : (s.onPort p f).guardNow = s.guardNow := rfl
  have e₃ : (s.onPort p f).borrowed = s.borrowed := rfl
  have e₄ : (s.onPort p f).lent = s.lent := rfl
  rw [e₁, e₂, e₃, e₄]
  omega

theorem State.cisOn_of_running (h : s.running = true) : s.cisOn = true := by
  have : s.dev.phase = .run := by simpa [State.running] using h
  simp [State.cisOn, this]

/-! ## No deficit (R166) -/

/-- Where FREE covers what is expected there is nothing to select. -/
theorem State.shed_of_covered (h : (s.cis.ahead : Int) ≤ s.free) : s.shed = s.shedEnd := by
  have hd : s.dNow ≤ 0 := by
    simp only [State.dNow]
    omega
  have hc : State.shedCuts 48 s = s := by rw [State.shedCuts, if_pos hd]
  have he : State.shedErr 48 s = s := by rw [State.shedErr, if_pos hd]
  simp only [State.shed, hc, he, ite_self]

/-- A port whose cut counts no more. -/
def PortState.uncut (x : PortState) : PortState := { x with pd := { x.pd with cut := 0 } }

/-- A change that leaves no deficit and no expected one: at most an old shed ends, which takes the cuts back. -/
theorem State.ledgerOf_covered {f : State → State} (h : ((f s).cis.ahead : Int) ≤ (f s).free) :
    (∃ c, s.ledgerOf p f = { f s with cis := c }) ∨
      (f s).cis.shedding = true ∧ ∃ c, s.ledgerOf p f = { (f s).onPorts PortState.uncut with cis := c } := by
  have hn : ∃ c, (f s).noteFree s.free = { f s with cis := c } ∧ c.shedding = (f s).cis.shedding ∧
      (c.ahead : Int) ≤ ({ f s with cis := c } : State).free := by
    unfold State.noteFree
    split
    · exact ⟨_, rfl, rfl, h⟩
    · exact ⟨_, rfl, rfl, h⟩
  obtain ⟨c, hc, hs, hf⟩ := hn
  unfold State.ledgerOf State.ledger
  rw [hc, State.shed_of_covered hf]
  unfold State.shedEnd
  split
  next hb => exact .inr ⟨hs ▸ hb.1, _, rfl⟩
  next => exact .inl ⟨_, rfl⟩

/-- In a device that no deficit presses a change that commits no more is the change itself. -/
theorem State.ledgerOf_calm {f : State → State} (hc : s.calm) (hk : (f s).cis = s.cis) (h : s.free ≤ (f s).free) :
    ∃ c, s.ledgerOf p f = { f s with cis := c } := by
  obtain he | ⟨hs, -⟩ := State.ledgerOf_covered (s := s) (p := p) (f := f) (by rw [hk]; exact hc.1.trans h)
  · exact he
  · rw [hk, hc.2] at hs
    cases hs

end Sys2Proof.Machine
end

section
/-! SUPPORT. An attach attempt: what its judgement rests on, what the hand does before it, and the port that attaches (R92 to R95, R141,
R170). -/

namespace Sys2Proof.Machine

variable {s t u : State} {p q : Port}

/-! ## What an attempt is judged by -/

/-- What of a port an attach attempt, its own or its twin's, is judged by outside the stage: the options, the fault states, the connection,
the credits and the hold. -/
def PortState.attempt (x : PortState) :
    PortCfg × CntP × (ConnState × Nat × Nat × Option Bool) × (Nat × Nat × Nat) × Bool × Word :=
  (x.cfg, x.cnt, (x.tc.st, x.tc.cc1, x.tc.cc2, x.tc.pin), x.credits, x.pd.holdCred, x.pd.evt)

/-- Nothing has changed of what attach attempts are judged by, but for stages and sluices. -/
def State.attemptKept (s t : State) : Prop :=
  t.dev = s.dev ∧ t.alm = s.alm ∧ t.cis = s.cis ∧ ∀ q, (t.port q).attempt = (s.port q).attempt

theorem State.attemptKept.trans (h : s.attemptKept t) (k : t.attemptKept u) : s.attemptKept u := by
  obtain ⟨h₁, h₂, h₃, h₄⟩ := h
  obtain ⟨k₁, k₂, k₃, k₄⟩ := k
  exact ⟨k₁.trans h₁, k₂.trans h₂, k₃.trans h₃, fun q => (k₄ q).trans (h₄ q)⟩

theorem State.onPort_attemptKept (s : State) (p : Port) {f : PortState → PortState}
    (hf : (f (s.port p)).attempt = (s.port p).attempt) : s.attemptKept (s.onPort p f) := by
  refine ⟨rfl, rfl, rfl, fun q => ?_⟩
  rw [State.onPort_port]
  split
  next h => rw [h, hf]
  next => rfl

section
variable (h : s.attemptKept t)
include h
theorem State.attemptKept.at (q : Port) : (t.port q).attempt = (s.port q).attempt := by
  obtain ⟨-, -, -, hq⟩ := h
  exact hq q
theorem State.attemptKept.cfg (q : Port) : (t.port q).cfg = (s.port q).cfg := congrArg (·.1) (h.at q)
theorem State.attemptKept.cnt (q : Port) : (t.port q).cnt = (s.port q).cnt := congrArg (·.2.1) (h.at q)
theorem State.attemptKept.st (q : Port) : (t.port q).tc.st = (s.port q).tc.st := congrArg (·.2.2.1.1) (h.at q)
theorem State.attemptKept.cc1 (q : Port) : (t.port q).tc.cc1 = (s.port q).tc.cc1 := congrArg (·.2.2.1.2.1) (h.at q)
theorem State.attemptKept.cc2 (q : Port) : (t.port q).tc.cc2 = (s.port q).tc.cc2 := congrArg (·.2.2.1.2.2.1) (h.at q)
theorem State.attemptKept.pin (q : Port) : (t.port q).tc.pin = (s.port q).tc.pin := congrArg (·.2.2.1.2.2.2) (h.at q)
theorem State.attemptKept.holdCred (q : Port) : (t.port q).pd.holdCred = (s.port q).pd.holdCred := congrArg (·.2.2.2.2.1) (h.at q)
theorem State.attemptKept.evt (q : Port) : (t.port q).pd.evt = (s.port q).pd.evt := congrArg (·.2.2.2.2.2) (h.at q)

theorem State.attemptKept.free : t.free = s.free := by
  obtain ⟨hd, ha, hc, hq⟩ := h
  exact State.free_congr hd ha hc fun q => congrArg (·.2.2.2.1) (hq q)

theorem State.attemptKept.rdSame (q : Port) : (t.port q).rdSame = (s.port q).rdSame := by
  simp only [PortState.rdSame, h.pin, h.cfg, h.cc1, h.cc2]

theorem State.attemptKept.stageOf (q : Port) : t.stageOf q = s.stageOf q := State.stageOf_congr (h.cfg q)

/-- A twin is held as before, where no stage has changed. -/
theorem State.attemptKept.twinHeld (hg : ∀ q, (t.port q).stg.den = (s.port q).stg.den ∧ (t.port q).stg.target = (s.port q).stg.target ∧
      (t.port q).stg.ref = (s.port q).stg.ref ∧ (t.port q).stg.meas.vbs = (s.port q).stg.meas.vbs) (p : Port) (sink : Bool) :
    t.twinHeld p sink = s.twinHeld p sink := by
  obtain ⟨h₁, h₂, h₃, h₄⟩ := hg (s.stageOf p)
  simp only [State.twinHeld, State.stage5V, PortState.vbsMv, h.cfg, h.cnt, Tc.attached, Tc.isSrc, Tc.isSnk, h.st, h.stageOf, h₁, h₂, h₃, h₄]

end

/-! ## What comes before the attempt -/

/-- Port p is poised to attach in t as it was in s: nothing has changed that an attempt is judged by, the stages stand as they did, and VBC
is below vSafe0V. -/
structure State.Poised (s : State) (p : Port) (t : State) : Prop where
  kept : s.attemptKept t
  stage (q : Port) : (t.port q).stg.den = (s.port q).stg.den ∧ (t.port q).stg.target = (s.port q).stg.target ∧
    (t.port q).stg.ref = (s.port q).stg.ref ∧ (t.port q).stg.meas.vbs = (s.port q).stg.meas.vbs
  only : s.onlyStageYard p t
  low : (t.port p).slc.low0 = true

theorem State.onlyPortYard.stage (h : s.onlyPortYard p t) : s.onlyStageYard p t := ⟨fun q hq _ => h.1 q hq, h.2⟩

/-- The default current of the stage is commanded, and a start of it (R196, R257): of a port the loop slot and the stage's queue change. -/
theorem State.stageUp_port (s : State) (p q : Port) :
    ∃ l g, (s.stageUp p).port q = { s.port q with loop := l, pd := { (s.port q).pd with stgq := g } } := by
  unfold State.stageUp
  split
  · obtain ⟨l, hl⟩ := s.isetFirst_port p q
    by_cases h : q = p
    · subst h
      rw [State.stgCmd, State.onPort_port_self, hl]
      exact ⟨_, _, rfl⟩
    · rw [State.stgCmd, State.onPort_port_ne _ _ _ _ h, hl]
      exact ⟨_, _, rfl⟩
  · exact ⟨_, _, rfl⟩

theorem State.stageUp_only (s : State) (p : Port) : s.onlyStageYard p (s.stageUp p) := by
  unfold State.stageUp
  split
  · refine ⟨fun q hq hs => ?_, (s.isetFirst_globals p).trans (State.onPort_onlyYard _ p _).2⟩
    rw [State.stgCmd, State.onPort_port_ne _ _ _ _ hq, State.isetFirst_port_ne hs]
  · exact (s.onlyPortYard_refl p).stage

theorem State.stageUp_attemptKept (s : State) (p : Port) : s.attemptKept (s.stageUp p) := by
  obtain ⟨-, hd, -, ha, -, hc, -⟩ := s.stageUp_only p
  refine ⟨hd, ha, hc, fun q => ?_⟩
  obtain ⟨l, g, h⟩ := s.stageUp_port p q
  rw [h]
  rfl

theorem State.Poised.stageUp (h : s.Poised p t) : s.Poised p (t.stageUp p) where
  kept := h.kept.trans (t.stageUp_attemptKept p)
  stage q := by
    obtain ⟨l, g, e⟩ := t.stageUp_port p q
    rw [e]
    exact h.stage q
  only := by
    obtain ⟨ho, hg⟩ := t.stageUp_only p
    rw [h.kept.stageOf] at ho
    exact ⟨fun q hq hs => (ho q hq hs).trans (h.only.1 q hq hs), h.only.2.trans hg⟩
  low := by
    obtain ⟨l, g, e⟩ := t.stageUp_port p p
    rw [e]
    exact h.low

/-- VBC measured below vSafe0V, and a mark of the connection machine that no attempt is judged by, poise the port. -/
theorem State.seeVbc_poised (vbc : Nat) (hv : vbc < 800) (g : Tc → Tc)
    (hg : ∀ t : Tc, (g t).st = t.st ∧ (g t).cc1 = t.cc1 ∧ (g t).cc2 = t.cc2 ∧ (g t).pin = t.pin) :
    s.Poised p ((s.seeVbc p vbc).onPort p fun x => { x with tc := g x.tc }) := by
  obtain ⟨h₁, h₂, h₃, h₄⟩ := hg (s.port p).tc
  rw [State.seeVbc, State.onPort_onPort]
  refine ⟨s.onPort_attemptKept p ?_, fun q => ?_, (s.onPort_onlyYard p _).stage, ?_⟩
  · simp [PortState.attempt, PortState.credits, PortState.seeLow, h₁, h₂, h₃, h₄]
  · rw [State.onPort_port]
    split
    next h => exact h ▸ ⟨rfl, rfl, rfl, rfl⟩
    next => exact ⟨rfl, rfl, rfl, rfl⟩
  · rw [State.onPort_port_self]
    simp [PortState.seeLow, below0V, hv]

/-! ## The port attaches (R92, R95, R101, R201) -/

/-- Limits commanded: a port's sluice queue and its loop slot. -/
theorem State.limitsFor_port (s : State) (p q : Port) (c : Option Contract) (b : Bool) :
    ∃ l e, (s.limitsFor p c b).port q = { s.port q with loop := l, pd := { (s.port q).pd with slcq := e } } := by
  unfold State.limitsFor
  extract_lets x l t
  have ht : ∃ e, t.port q = { s.port q with pd := { (s.port q).pd with slcq := e } } := by
    unfold t
    split
    · exact ⟨_, rfl⟩
    · by_cases h : q = p
      · subst h
        rw [State.slcCmd, State.onPort_port_self]
        exact ⟨_, rfl⟩
      · rw [State.slcCmd, State.onPort_port_ne _ _ _ _ h]
        exact ⟨_, rfl⟩
  obtain ⟨e, he⟩ := ht
  split
  · exact ⟨_, e, he⟩
  · rw [State.onPort_port]
    split
    next h =>
      rw [← h, he]
      split <;> exact ⟨_, _, rfl⟩
    next => exact ⟨_, e, he⟩

/-- A source that supplies VCONN, or counts its cable as discovered. -/
theorem State.vconnTry_port (s : State) (p : Port) :
    ∃ v d m c l, (s.vconnTry p).port p = { s.port p with tc := { (s.port p).tc with vconn := v, dis := d }
                                                         pd := { (s.port p).pd with vconnSrc := m, cabled := c, live := l } } := by
  unfold State.vconnTry
  dsimp only
  split
  · simp only [State.vconnOn, State.arm_port, State.onPort_port_self]
    exact ⟨_, _, _, _, _, rfl⟩
  · rw [State.onPort_port_self]
    exact ⟨_, _, _, _, _, rfl⟩

/-- A port attached as source: in STARTUP, with the charge it had, its orientation by the pin with Rd, and its sluice asked on. -/
theorem State.attachSrc_spec (s : State) (p : Port) :
    let x := (s.attachSrc p).port p
    x.tc.st = .attSrc ∧ x.tc.backv = false ∧ x.pd.src = .startup ∧ x.pd.charge = (s.port p).pd.charge ∧
      x.tc.orient = (rdPin (s.port p).cfg.rp (s.port p).tc.cc1 (s.port p).tc.cc2 == some true) ∧
      x.pd.slcq.getLast? = some .on ∧ x.cfg = (s.port p).cfg := by
  unfold State.attachSrc
  extract_lets s₁ s₂ s₃ s₄ x
  obtain ⟨v, d, m, c, l, h₃⟩ := s₂.vconnTry_port p
  obtain ⟨l', e, h₄⟩ := s₃.limitsFor_port p p (s₃.port p).pd.contract false
  have hx : x = { s₄.port p with pd := { (s₄.port p).pd with slcq := (s₄.port p).pd.slcq ++ [.on] } } := by
    simp [x, State.slcCmd]
  have h₂ : s₂.port p = { s₁.port p with
      tc := { (s₁.port p).tc with evt := setBit (s₁.port p).tc.evt 0, cnt := bump (s₁.port p).tc.cnt 0 } } := by
    simp [s₂, State.tcEvt, State.tcCnt]
  rw [hx, show s₄.port p = _ from h₄, show s₃.port p = _ from h₃, h₂]
  simp [s₁]

/-- A port attached as sink: in STARTUP, its orientation by the pin with the higher voltage, waiting for capabilities. -/
theorem State.attachSnk_spec (s : State) (p : Port) :
    let t := s.attachSnk p
    (t.port p).tc.st = .attSnk ∧ (t.port p).tc.backv = false ∧ (t.port p).pd.snk = .startup ∧
      (t.port p).tc.orient = decide ((s.port p).tc.cc1 < (s.port p).tc.cc2) ∧ t.armed p .sinkWaitCap := by
  unfold State.attachSnk
  extract_lets s₁ s₂ s₃ s₄ s₅ t
  obtain ⟨l, e, h₄⟩ := s₃.limitsFor_port p p (s₃.port p).pd.contract false
  have h₅ : ∃ e, s₅.port p = { s₄.port p with pd := { (s₄.port p).pd with slcq := e } } := by
    unfold s₅
    split
    · exact ⟨_, rfl⟩
    · exact ⟨_, State.onPort_port_self ..⟩
  obtain ⟨e', h₅⟩ := h₅
  have h₂ : s₂.port p = { s₁.port p with
      tc := { (s₁.port p).tc with evt := setBit (s₁.port p).tc.evt 0, cnt := bump (s₁.port p).tc.cnt 0 } } := by
    simp [s₂, State.tcEvt, State.tcCnt]
  have ht : t.port p = s₅.port p := State.muxUpdate_port ..
  have h₃ : s₃.armed p .sinkWaitCap := s₂.arm_armed p _
  have harm : t.armed p .sinkWaitCap := State.armed_of_live (s := s₃) (by rw [ht, h₅, show s₄.port p = _ from h₄]) h₃
  rw [ht, h₅, show s₄.port p = _ from h₄, show s₃.port p = _ from State.arm_port .., h₂]
  exact ⟨by simp [s₁], by simp [s₁], by simp [s₁], by simp [s₁], harm⟩

/-! ## The attempt (R141, R170, R347) -/

theorem State.setReq_ports (s : State) (e : Bool) (r : Option LoanReq) : (s.setReq e r).ports = s.ports := by
  unfold State.setReq; split <;> rfl

theorem State.onSide_ports (s : State) (e : Bool) (f : LinkPort → LinkPort) : (s.onSide e f).ports = s.ports := by
  unfold State.onSide; split <;> rfl

theorem State.askSide_ports (s : State) (e : Bool) (m n : Nat) (x y : Bool) (o : Option (BitVec 16)) :
    (s.askSide e m n x y o).ports = s.ports :=
  (State.onSide_ports ..).trans (State.setReq_ports ..)

/-- The search for a loan touches no port. -/
theorem State.seek_port (s : State) (n : Nat) (q : Port) : (s.seek n).port q = s.port q := by
  have h : (s.seek n).ports = s.ports := by
    unfold State.seek
    dsimp only
    split
    · rfl
    split
    · rfl
    split
    · exact State.askSide_ports ..
    split
    · exact State.askSide_ports ..
    · rfl
  rw [State.port, h, State.port]

section
variable (hrd : (s.port p).rdSame = true) (hlow : (s.port p).slc.low0 = true) (hstop : s.dev.stop = none)
include hrd hlow hstop

/-- At the grant of the default charge the port attaches. -/
theorem State.tryAttach_granted (ht : s.twinHeld p false = false) (hf : (defaultCharge (s.port p).cfg.rp : Int) ≤ s.free)
    (hns : (s.port p).tc.isSrc = false) :
    let x := (s.tryAttach p).port p
    x.tc.st = .attSrc ∧ x.tc.backv = false ∧ x.pd.src = .startup ∧ x.pd.charge = defaultCharge (s.port p).cfg.rp ∧
      x.tc.orient = (rdPin (s.port p).cfg.rp (s.port p).tc.cc1 (s.port p).tc.cc2 == some true) ∧
      x.pd.slcq.getLast? = some .on ∧ x.cfg = (s.port p).cfg := by
  let f (s' : State) : State := s'.onPort p fun x => { x with pd := { x.pd with charge := defaultCharge (s.port p).cfg.rp } }
  have he : s.tryAttach p = ((s.ledgerOf p f).note 49 (some p) 3 .grant).attachSrc p := by
    simp [State.tryAttach, hrd, hlow, hstop, ht, Int.not_lt.2 hf, f]
  have hp : (f s).port p = { s.port p with pd := { (s.port p).pd with charge := defaultCharge (s.port p).cfg.rp } } :=
    s.onPort_port_self p _
  have hv : ((s.ledgerOf p f).note 49 (some p) 3 .grant).viewOf p = (f s).viewOf p :=
    State.ledgerOf_viewOf (s := s) (q := p) (f := f) (by rw [hp]; exact hns)
  rw [he]
  generalize (s.ledgerOf p f).note 49 (some p) 3 .grant = u at *
  have h := u.attachSrc_spec p
  rwa [State.cfg_of_viewOf hv, State.tc_of_viewOf hv, State.charge_of_viewOf hv, hp] at h

/-- A twin that its sibling holds waits. -/
theorem State.tryAttach_twinHeld (ht : s.twinHeld p false = true) :
    s.tryAttach p = s.onPort p fun x => { x with pd := { x.pd with holdTwin := true } } := by
  simp [State.tryAttach, hrd, hlow, hstop, ht]

/-- Where FREE does not suffice the port waits, which is reported once. -/
theorem State.tryAttach_short (ht : s.twinHeld p false = false) (hf : s.free < (defaultCharge (s.port p).cfg.rp : Int))
    (hh : (s.port p).pd.holdCred = false) :
    s.othersKept p (s.tryAttach p) ∧ ((s.tryAttach p).port p).tc.st = (s.port p).tc.st ∧
      ((s.tryAttach p).port p).pd.holdCred = true ∧ ((s.tryAttach p).port p).pd.evt = setBit (s.port p).pd.evt 4 := by
  simp only [State.tryAttach, hrd, hlow, hstop, ht, hf, hh, Bool.and_self, Bool.not_true, Option.isSome_none, Bool.or_self,
    Bool.false_eq_true, if_false, if_true, State.pdEvt, State.pdCnt, State.onPort_onPort]
  refine ⟨fun q hq => (State.seek_port ..).trans (s.onPort_port_ne p q _ hq), ?_⟩
  rw [State.seek_port, State.onPort_port_self]
  exact ⟨rfl, rfl, rfl⟩

end

end Sys2Proof.Machine
end

section
/-! SUPPORT. The commands that bring an attach attempt before the judgement, a period start among them (R92 to R94, R141, R196). -/

namespace Sys2Proof.Machine

variable {s t u : State} {p q : Port}

/-! ## Attempts from a state that has kept what they are judged by -/

section
variable (hrd : (s.port p).rdSame = true) (hstop : s.dev.stop = none)
include hrd hstop

theorem State.attemptKept.attaches (h : s.attemptKept t) (hl : (t.port p).slc.low0 = true) (hst : (s.port p).tc.st = .attwaitSrc)
    (ht : t.twinHeld p false = false) (hf : (defaultCharge (s.port p).cfg.rp : Int) ≤ s.free) :
    let x := (t.tryAttach p).port p
    x.tc.st = .attSrc ∧ x.tc.backv = false ∧ x.pd.src = .startup ∧ x.pd.charge = defaultCharge (s.port p).cfg.rp ∧
      x.tc.orient = (rdPin (s.port p).cfg.rp (s.port p).tc.cc1 (s.port p).tc.cc2 == some true) ∧
      x.pd.slcq.getLast? = some .on ∧ x.cfg = (s.port p).cfg := by
  have ha := State.tryAttach_granted (s := t) (p := p) (by rw [h.rdSame, hrd]) hl (by rw [h.1, hstop]) ht (by rwa [h.cfg, h.free])
    (by simp [Tc.isSrc, h.st, hst])
  rwa [h.cfg, h.cc1, h.cc2] at ha

variable (h : s.Poised p t) (hst : (s.port p).tc.st = .attwaitSrc)
include h hst

theorem State.Poised.attaches (ht : s.twinHeld p false = false) (hf : (defaultCharge (s.port p).cfg.rp : Int) ≤ s.free) :
    let x := (t.tryAttach p).port p
    x.tc.st = .attSrc ∧ x.tc.backv = false ∧ x.pd.src = .startup ∧ x.pd.charge = defaultCharge (s.port p).cfg.rp ∧
      x.tc.orient = (rdPin (s.port p).cfg.rp (s.port p).tc.cc1 (s.port p).tc.cc2 == some true) ∧
      x.pd.slcq.getLast? = some .on ∧ x.cfg = (s.port p).cfg :=
  h.kept.attaches hrd hstop h.low hst ((h.kept.twinHeld h.stage p false).trans ht) hf

theorem State.Poised.waitsForTwin (ht : s.twinHeld p false = true) :
    s.onlyStageYard p (t.tryAttach p) ∧ ((t.tryAttach p).port p).tc.st = .attwaitSrc ∧
      ((t.tryAttach p).port p).pd.holdTwin = true := by
  rw [State.tryAttach_twinHeld (by rw [h.kept.rdSame, hrd]) h.low (by rw [h.kept.1, hstop]) ((h.kept.twinHeld h.stage p false).trans ht)]
  obtain ⟨ho, hg⟩ := h.only
  refine ⟨⟨fun q hq hs => ?_, hg⟩, ?_⟩
  · rw [State.onPort_port_ne _ _ _ _ hq, ho q hq hs]
  · rw [State.onPort_port_self]
    exact ⟨(h.kept.st p).trans hst, rfl⟩

theorem State.Poised.waitsForCredits (ht : s.twinHeld p false = false) (hf : s.free < (defaultCharge (s.port p).cfg.rp : Int))
    (hh : (s.port p).pd.holdCred = false) :
    ((t.tryAttach p).port p).tc.st = .attwaitSrc ∧ ((t.tryAttach p).port p).pd.holdCred = true ∧
      ((t.tryAttach p).port p).pd.evt = setBit (s.port p).pd.evt 4 ∧
      ∀ q, q ≠ p → q ≠ s.stageOf p → (t.tryAttach p).port q = s.port q := by
  obtain ⟨ho, hs, hc, he⟩ := State.tryAttach_short (s := t) (p := p) (by rw [h.kept.rdSame, hrd]) h.low (by rw [h.kept.1, hstop])
    ((h.kept.twinHeld h.stage p false).trans ht) (by rwa [h.kept.cfg, h.kept.free]) (by rw [h.kept.holdCred, hh])
  exact ⟨hs.trans ((h.kept.st p).trans hst), hc, by rw [he, h.kept.evt], fun q hq hs => (ho q hq).trans (h.only.1 q hq hs)⟩

end

/-! ## The period itself (R218, R225, R234) -/

/-- The stage's own period changes the stage and the slot. -/
theorem PortState.period_eq (x : PortState) (T b : Nat) : ∃ g l, x.period T b = { x with stg := g, loop := l } := by
  have hd (x : PortState) : ∃ g l, x.denFall = { x with stg := g, loop := l } := ⟨_, _, rfl⟩
  unfold PortState.period
  dsimp only
  split
  · exact hd x
  split
  · exact ⟨_, _, rfl⟩
  split
  · exact ⟨_, _, rfl⟩
  split
  · exact ⟨_, _, rfl⟩
  · exact ⟨_, _, rfl⟩

/-- What a period start latches of a port: its stage's readings, and its sluice's view of VBC. -/
theorem PortState.latch_eq (x : PortState) (m : LoopMeas) (g : Stg) :
    ∃ g' c, x.latch m g = { x with stg := g', slc := c } ∧ c.low0 = decide (m.vbc < 800000) :=
  ⟨_, _, rfl, rfl⟩

/-- A ramp leaves what the sluice sees of VBC. -/
theorem State.tryRamp_low0 (s : State) (p : Port) : ((s.tryRamp p).port p).slc.low0 = (s.port p).slc.low0 := by
  unfold State.tryRamp
  extract_lets x a b
  have hb : (b.port p).slc.low0 = (s.port p).slc.low0 := by
    simp [b, a, State.slcCnt, State.slcTo_port, PortState.keepWas]
  split
  · split
    · simp [State.slcEvt, State.slcCnt, hb]
    · exact hb
  · rfl

theorem State.tryRamp_attemptKept (s : State) (p : Port) : s.attemptKept (s.tryRamp p) := by
  obtain ⟨ho, hd, -, ha, -, hc, -⟩ := s.tryRamp_onlyYard p
  refine ⟨hd, ha, hc, fun q => ?_⟩
  by_cases h : q = p
  · obtain ⟨c, w, e, -⟩ := s.tryRamp_port p
    rw [h, e]
    rfl
  · rw [ho q h]

/-- A port that has attached as source waits for no twin. -/
theorem State.twinRetry_of_attSrc (h : (s.port p).tc.st = .attSrc) : s.twinRetry p = s := by simp [State.twinRetry, h]

/-- A port without a twin whose VBC is found below vSafe0V after tCCDebounce attaches (R141). -/
theorem periodStart_attaches {m : LoopConv} (hw : s.works p = true) (hst : (s.port p).tc.st = .attwaitSrc)
    (hcc : (s.port p).tc.ccDone = true) (hbv : (s.port p).tc.backv = false) (hlow : (s.port p).slc.low0 = false)
    (hv : (s.loopMeas p m).vbc < 800000) (hrd : (s.port p).rdSame = true) (hstop : s.dev.stop = none)
    (htw : (s.port p).cfg.twin = false) (hl : (s.port p).cnt.limpWait = false)
    (hf : (defaultCharge (s.port p).cfg.rp : Int) ≤ s.free) :
    ∃ t, exec (.periodStart p m) s = .next t ∧ (t.port p).tc.st = .attSrc ∧
      (t.port p).pd.charge = defaultCharge (s.port p).cfg.rp := by
  show ∃ t, execPeriodStart p m s = .next t ∧ _
  unfold execPeriodStart
  rw [if_pos hw]
  extract_lets m' b q T g old s₁ s₂ s₃
  have h₁ : ∃ g' c l, s₁.port p = { s.port p with stg := g', slc := c, loop := l, prior := none } ∧ c.low0 = true := by
    obtain ⟨g₁, c, e, hc⟩ := (s.port p).latch_eq m' g
    have hc' : c.low0 = true := hc.trans (decide_eq_true hv)
    unfold s₁
    rw [State.onPort_port_self]
    dsimp only
    rw [e]
    split
    · obtain ⟨g₂, l, e₂⟩ := PortState.period_eq { s.port p with
        stg := { g₁ with k := (g₁.k + 1) % max (s.port p).cfg.fsw 1 }, slc := c, prior := none } T b
      exact ⟨g₂, c, l, e₂, hc'⟩
    · exact ⟨_, c, _, rfl, hc'⟩
  obtain ⟨g', c, l, e₁, hc⟩ := h₁
  have hk₁ : s.attemptKept s₁ := by
    refine ⟨rfl, rfl, rfl, fun q => ?_⟩
    by_cases hq : q = p
    · rw [hq, e₁]
      rfl
    · rw [show s₁.port q = s.port q from s.onPort_port_ne p q _ hq]
  have hfell : s₁.vbcFell old p = s₁ := by simp [State.vbcFell, Tc.isSrc, e₁, hst]
  have hgo : s₁.resetGo p = s₁ := State.resetGo_of_not_limpWait (by rw [e₁, hl])
  have e₂ : s₂ = (s₁.tryRamp p).stageUp p := by
    rw [show s₂ = (((s₁.vbcFell old p).resetGo p).tryRamp p).stageUp p from rfl, hfell, hgo]
  have hk₂ : s.attemptKept s₂ := e₂ ▸ hk₁.trans ((s₁.tryRamp_attemptKept p).trans (State.stageUp_attemptKept _ p))
  have h₂ : (s₂.port p).tc = (s.port p).tc ∧ (s₂.port p).slc.low0 = true := by
    obtain ⟨c, w, er, -⟩ := s₁.tryRamp_port p
    obtain ⟨l, g, eu⟩ := (s₁.tryRamp p).stageUp_port p p
    rw [e₂, eu]
    exact ⟨by rw [er, e₁], (s₁.tryRamp_low0 p).trans (by rw [e₁, hc])⟩
  obtain ⟨htc, hlow₂⟩ := h₂
  have hheld : s₂.twinHeld p false = false := by simp [State.twinHeld, hk₂.cfg, htw]
  obtain ⟨ha, -, -, hch, -, -, hcfg⟩ := hk₂.attaches hrd hstop hlow₂ hst hheld hf
  have hlow' : (old.port p).slc.low0 = false := hlow
  have hgone : s₂.vbcLow p = s₂.tryAttach p := by simp [State.vbcLow, htc, hst, hcc, hbv]
  clear_value s₁ s₂ old
  have e₃ : s₃ = s₂.tryAttach p := by
    unfold s₃
    rw [hlow₂, hlow', Bool.not_false, Bool.and_self, if_pos rfl, hgone, State.twinRetry_of_attSrc ha]
  have htw₃ : (s₃.port p).cfg.twin = false := by rw [e₃, hcfg, htw]
  rw [if_neg (by simp [htw₃]), e₃]
  exact ⟨_, rfl, ha, hch⟩

/-! ## The other commands that end in an attempt (R92 to R94) -/

section
variable {vbc : Nat} (hw : s.works p = true)
include hw

theorem exec_tccdebounceExpiry_src (hst : (s.port p).tc.st = .attwaitSrc) (hv : vbc < 800) :
    exec (.tccdebounceExpiry p vbc) s =
      .next ((((s.seeVbc p vbc).onPort p fun x => { x with tc := { x.tc with ccDone := true } }).stageUp p).tryAttach p) := by
  show execTccdebounceExpiry p vbc s = _
  simp [execTccdebounceExpiry, hw, hst, below0V, hv]

theorem exec_backvRelease_below0V (hst : (s.port p).tc.st = .attwaitSrc) (hb : (s.port p).tc.backv = true) (hv : vbc < 800) :
    exec (.backvRelease p vbc) s =
      .next ((((s.seeVbc p vbc).onPort p fun x => { x with tc := { x.tc with backv := false } }).stageUp p).tryAttach p) := by
  show execBackvRelease p vbc s = _
  simp [execBackvRelease, hw, hst, hb, below0V, hv]

variable (hst : (s.port p).tc.st = .attwaitSnk) (hrp : (s.port p).tc.rpOne = true) (hv : 4000 < vbc)
include hst hrp hv

theorem exec_tccdebounceExpiry_snk (ht : (s.seeVbc p vbc).twinHeld p true = false) :
    exec (.tccdebounceExpiry p vbc) s = .next ((s.seeVbc p vbc).attachSnk p) := by
  show execTccdebounceExpiry p vbc s = _
  simp [execTccdebounceExpiry, hw, hst, hrp, Nat.not_le.2 hv, ht]

theorem exec_sinkVbusDetect_attaches (hb : (s.port p).tc.backv = true) (ht : (s.seeVbc p vbc).twinHeld p true = false) :
    exec (.sinkVbusDetect p vbc) s = .next ((s.seeVbc p vbc).attachSnk p) := by
  show execSinkVbusDetect p vbc s = _
  simp [execSinkVbusDetect, hw, hst, hrp, hb, hv, ht]

end

/-- A measurement of VBC changes nothing that holds a twin. -/
theorem State.seeVbc_twinHeld (s : State) (p : Port) (vbc : Nat) (b : Bool) : (s.seeVbc p vbc).twinHeld p b = s.twinHeld p b := by
  refine State.attemptKept.twinHeld (t := s.seeVbc p vbc) (s.onPort_attemptKept p rfl) (fun q => ?_) p b
  rw [State.seeVbc, State.onPort_port]
  split
  next h => exact h ▸ ⟨rfl, rfl, rfl, rfl⟩
  next => exact ⟨rfl, rfl, rfl, rfl⟩

/-- Settles O2: the hand brings an attempt before the judgement with all that it rests on as it was, and the judgement's three answers are
the attach, the wait for the twin and the wait for credits. -/
theorem attach : Obligations.Attach := by
  unfold Obligations.Attach
  intro s p vbc hw
  refine ⟨fun hst hrd hv hstop => ?_, fun m hst hcc hbv hlow hv hrd hstop htw hl hf =>
    periodStart_attaches hw hst hcc hbv hlow hv hrd hstop htw hl hf, fun hst hrp hv ht => ?_⟩
  · have hcc := (State.seeVbc_poised (s := s) (p := p) vbc hv (fun t => { t with ccDone := true }) fun _ => ⟨rfl, rfl, rfl, rfl⟩).stageUp
    have hbv := (State.seeVbc_poised (s := s) (p := p) vbc hv (fun t => { t with backv := false }) fun _ => ⟨rfl, rfl, rfl, rfl⟩).stageUp
    refine ⟨fun ht hf => ⟨?_, fun hb => ?_⟩, fun ht => ?_, fun ht hf hh => ?_⟩
    · obtain ⟨h₁, -, h₂, h₃, h₄, h₅, -⟩ := hcc.attaches hrd hstop hst ht hf
      exact ⟨_, exec_tccdebounceExpiry_src hw hst hv, h₁, h₂, h₃, h₄, h₅⟩
    · obtain ⟨h₁, h₂, -⟩ := hbv.attaches hrd hstop hst ht hf
      exact ⟨_, exec_backvRelease_below0V hw hst hb hv, h₁, h₂⟩
    · exact ⟨_, exec_tccdebounceExpiry_src hw hst hv, hcc.waitsForTwin hrd hstop hst ht⟩
    · exact ⟨_, exec_tccdebounceExpiry_src hw hst hv, hcc.waitsForCredits hrd hstop hst ht hf hh⟩
  · have ht' := (s.seeVbc_twinHeld p vbc true).trans ht
    obtain ⟨h₁, h₂, h₃, h₄, h₅⟩ := (s.seeVbc p vbc).attachSnk_spec p
    rw [show ((s.seeVbc p vbc).port p).tc = (s.port p).tc by rw [State.seeVbc, State.onPort_port_self]; rfl] at h₄
    exact ⟨⟨_, exec_tccdebounceExpiry_snk hw hst hrp hv ht', h₁, h₃, h₄, h₅⟩,
      fun hb => ⟨_, exec_sinkVbusDetect_attaches hw hst hrp hv hb ht', h₁, h₂⟩⟩

end Sys2Proof.Machine
end

section
/-! SUPPORT. A hand at its next event: the step begins on the state as it is, but for the yard (R131, R133, R135). -/

namespace Sys2Proof.Machine

variable {s t u : State} {p q : Port} {h : Hand}

/-- A hand's choice that is not silent leaves nothing to skip. -/
theorem State.skipSilent_of_choose {r : YardRec} (hr : s.hnd.choose h = some r) (hs : r.silent = false) (n : Nat) :
    State.skipSilent h n s = s := by
  cases n with
  | zero => rfl
  | succ n => simp [State.skipSilent, hr, hs]

theorem State.handOn.running {c : EvCode} (hon : s.handOn h p c) : s.running = true := by
  have hb := hon.1
  simp only [State.bmcRuns, State.works, Bool.and_eq_true] at hb
  obtain ⟨⟨⟨hr, -⟩, -⟩, -⟩ := hb
  exact hr

theorem State.handOn.cisOn {c : EvCode} (hon : s.handOn h p c) : s.cisOn = true := State.cisOn_of_running hon.running

/-- Where nothing else follows from an event than what a hand's step does, the hand's command runs the step on the state as it was. -/
theorem State.handOn.handStep {c : EvCode} (hon : s.handOn h p c) (hs : ∀ r : YardRec, r.ev = c → r.dead = false → r.silent = false)
    {e : EvCode → Bool} (he : e c = true) (f : EvCode → State → State) :
    ∃ y d, y.timers = s.hnd.timers ∧ s.handStep h (some p) e f = .next (f c { s with hnd := y, draws := d }).endStep := by
  obtain ⟨hb, hst, hc⟩ := hon
  obtain ⟨r, hr, hrc⟩ := Option.map_eq_some_iff.1 hc
  obtain ⟨hp, hev, hd⟩ : r.port = some p ∧ r.ev = c ∧ r.dead = false := by simpa using hrc
  have hsil := hs r hev hd
  have hrun : s.running = true := State.handOn.running ⟨hb, hst, hc⟩
  refine ⟨(s.beginStep h r).hnd, (s.beginStep h r).draws, rfl, ?_⟩
  simp only [State.handStep, State.take, State.skipSilent_of_choose hr hsil, hr, hp, hev, he, hsil, hrun]
  rfl

/-- A GoodCRC that a hand takes. -/
theorem State.handOn.txGoodcrc {k : TxKind} (hon : s.handOn h p (.txOk k)) :
    ∃ y d, y.timers = s.hnd.timers ∧ exec (.txGoodcrc h p) s = .next (({ s with hnd := y, draws := d } : State).txOk p k).endStep := by
  obtain ⟨y, d, ht, he⟩ := hon.handStep (fun r he hd => by simp [YardRec.silent, he, hd])
    (e := fun e => match e with | .txOk _ => true | _ => false) rfl (fun c s => match c with
    | .txOk k => if s.bmcRuns p then s.txOk p k else s
    | _ => s)
  exact ⟨y, d, ht, he.trans (congrArg (fun t : State => (.next t.endStep : Res State)) (if_pos hon.1))⟩

/-- A failed transmission that a hand takes. -/
theorem State.handOn.txfail {k : TxKind} (hon : s.handOn h p (.txFail k)) :
    ∃ y d, y.timers = s.hnd.timers ∧ exec (.txfail h p) s = .next (({ s with hnd := y, draws := d } : State).txFail p k).endStep := by
  obtain ⟨y, d, ht, he⟩ := hon.handStep (fun r he hd => by simp [YardRec.silent, he, hd])
    (e := fun e => match e with | .txFail _ => true | _ => false) rfl (fun c s => match c with
    | .txFail k => if s.bmcRuns p then s.txFail p k else s
    | _ => s)
  exact ⟨y, d, ht, he.trans (congrArg (fun t : State => (.next t.endStep : Res State)) (if_pos hon.1))⟩

@[simp] theorem State.endStep_port (s : State) (q : Port) : s.endStep.port q = s.port q := rfl
@[simp] theorem State.endStep_lastTx (s : State) (q : Port) : s.endStep.lastTx q = s.lastTx q := rfl

end Sys2Proof.Machine
end

section
/-! SUPPORT. What messages, timers, VDM exchanges and offers leave of a port: its connection, its guard, its contract and its credits
(R138, R174, R179). -/

namespace Sys2Proof.Machine

variable {s t u : State} {p q : Port}

/-- What the exchange with the partner stands at: the connection and its guard, the contract, the credits and the count of Hard Resets. -/
def PortState.deal (x : PortState) : (Tc × GrdP) × Option Contract × (Nat × Nat × Nat) × Nat :=
  ((x.tc, x.grd), x.pd.contract, x.credits, x.pd.hrc)

/-- Only port p and the yard have changed, and not what p stands at with its partner. -/
def State.dealKept (s : State) (p : Port) (t : State) : Prop := s.onlyPortYard p t ∧ (t.port p).deal = (s.port p).deal

theorem State.dealKept_refl (s : State) (p : Port) : s.dealKept p s := ⟨s.onlyPortYard_refl p, rfl⟩

theorem State.dealKept.trans (h : s.dealKept p t) (k : t.dealKept p u) : s.dealKept p u := ⟨h.1.trans k.1, k.2.trans h.2⟩

theorem State.dealKept_ite {c : Prop} [Decidable c] (h : s.dealKept p t) (k : s.dealKept p u) : s.dealKept p (if c then t else u) := by
  split <;> assumption

theorem State.foldl_dealKept {α : Type} {f : State → α → State} (hf : ∀ (s : State) (a : α), s.dealKept p (f s a)) (l : List α)
    (s : State) : s.dealKept p (l.foldl f s) := by
  induction l generalizing s with
  | nil => exact s.dealKept_refl p
  | cons a l ih => exact (hf s a).trans (ih (f s a))

theorem State.onPort_dealKept (s : State) (p : Port) {f : PortState → PortState} (hf : (f (s.port p)).deal = (s.port p).deal) :
    s.dealKept p (s.onPort p f) :=
  ⟨s.onPort_onlyYard p f, by rw [State.onPort_port_self, hf]⟩

section
variable (h : s.dealKept p t)
include h

theorem State.dealKept.tc : (t.port p).tc = (s.port p).tc := congrArg (·.1.1) h.2
theorem State.dealKept.grd : (t.port p).grd = (s.port p).grd := congrArg (·.1.2) h.2
theorem State.dealKept.dev : t.dev = s.dev := h.1.2.1
theorem State.dealKept.cis : t.cis = s.cis := by
  obtain ⟨⟨-, -, -, -, -, hc, -⟩, -⟩ := h
  exact hc

theorem State.dealKept.free : t.free = s.free := by
  obtain ⟨⟨ho, hd, -, ha, -, hc, -⟩, hp⟩ := h
  refine State.free_congr hd ha hc fun q => ?_
  by_cases hq : q = p
  · exact hq ▸ congrArg (·.2.2.1) hp
  · rw [ho q hq]

theorem State.dealKept.calm (hs : s.calm) : t.calm := by rwa [State.calm, h.cis, h.free]

end

/-! ## Events, timers and messages -/

theorem State.onPd_port (s : State) (p : Port) (f : Pd → Pd) : (s.onPd p f).port p = { s.port p with pd := f (s.port p).pd } :=
  State.onPort_port_self ..
theorem State.onPd_port_ne (s : State) (f : Pd → Pd) (h : q ≠ p) : (s.onPd p f).port q = s.port q := s.onPort_port_ne p q _ h

theorem State.onVdm_dealKept (s : State) (p : Port) (f : VdmP → VdmP) : s.dealKept p (s.onVdm p f) := s.onPort_dealKept p rfl
theorem State.onPd_dealKept (s : State) (p : Port) {f : Pd → Pd}
    (hf : ∀ d : Pd, (f d).contract = d.contract ∧ (f d).charge = d.charge ∧ (f d).pledge = d.pledge ∧ (f d).inflow = d.inflow ∧
      (f d).hrc = d.hrc := by exact fun _ => ⟨rfl, rfl, rfl, rfl, rfl⟩) : s.dealKept p (s.onPd p f) := by
  obtain ⟨h₁, h₂, h₃, h₄, h₅⟩ := hf (s.port p).pd
  exact s.onPort_dealKept p (by simp only [PortState.deal, PortState.credits, h₁, h₂, h₃, h₄, h₅])
theorem State.pdEvt_dealKept (s : State) (p : Port) (i : Nat) : s.dealKept p (s.pdEvt p i) := s.onPort_dealKept p rfl
theorem State.pdCnt_dealKept (s : State) (p : Port) (i : Fin 13) : s.dealKept p (s.pdCnt p i) := s.onPort_dealKept p rfl
theorem State.vdmEvt_dealKept (s : State) (p : Port) (i : Nat) : s.dealKept p (s.vdmEvt p i) := s.onPort_dealKept p rfl
theorem State.vdmCnt_dealKept (s : State) (p : Port) (i : Fin 7) : s.dealKept p (s.vdmCnt p i) := s.onPort_dealKept p rfl
theorem State.arm_dealKept (s : State) (p : Port) (i : TimerId) : s.dealKept p (s.arm p i) :=
  ⟨s.arm_onlyYard p i, by rw [State.arm_port]; rfl⟩
theorem State.disarm_dealKept (s : State) (p : Port) (i : TimerId) : s.dealKept p (s.disarm p i) :=
  ⟨s.disarm_onlyYard p i, by rw [State.disarm_port]; rfl⟩
theorem State.send_dealKept (s : State) (p : Port) (k : Sop) (n : TxKind) (m : PdMsg) : s.dealKept p (s.send p k n m) :=
  State.dealKept_ite (s.dealKept_refl p) (s.onPort_dealKept p rfl)

/-! ## VDM exchanges (R177 to R180) -/

theorem State.vdmInterrupt_dealKept (s : State) (p : Port) : s.dealKept p (s.vdmInterrupt p) := by
  have hoff (l : List TimerId) (s : State) : s.dealKept p (l.foldl (fun s t => s.disarm p t) s) :=
    State.foldl_dealKept (fun s i => s.disarm_dealKept p i) l s
  unfold State.vdmInterrupt
  extract_lets m s₁ s₂
  have h₁ : s.dealKept p s₁ := State.dealKept_ite ((hoff _ s).trans (State.onPort_dealKept _ p rfl)) (s.dealKept_refl p)
  have h₂ : s₁.dealKept p s₂ := State.dealKept_ite ((hoff _ s₁).trans (State.onPort_dealKept _ p rfl)) (s₁.dealKept_refl p)
  exact State.dealKept_ite (h₁.trans <| h₂.trans <| (s₂.vdmEvt_dealKept p 7).trans (State.vdmCnt_dealKept _ p 4)) (s.dealKept_refl p)

theorem State.cabSend_dealKept (s : State) (p : Port) (st : VdmState) (v : Vdm) : s.dealKept p (s.cabSend p st v) :=
  (s.onVdm_dealKept p _).trans (State.send_dealKept ..)

theorem State.cabAgain_dealKept (s : State) (p : Port) : s.dealKept p (s.cabAgain p) :=
  State.dealKept_ite (s.cabSend_dealKept ..) ((s.onVdm_dealKept p _).trans (State.cabSend_dealKept ..))

theorem State.vdmAgain_dealKept (s : State) (p : Port) : s.dealKept p (s.vdmAgain p) := by
  unfold State.vdmAgain
  split
  · exact (s.onVdm_dealKept p _).trans (State.send_dealKept ..)
  · exact s.dealKept_refl p

/-! ## Alerts, offers and READY (R138, R165, R174) -/

theorem State.alertTry_dealKept (s : State) (p : Port) : s.dealKept p (s.alertTry p) := by
  unfold State.alertTry
  extract_lets d
  split
  · split
    · exact s.dealKept_refl p
    · exact (s.onPd_dealKept p).trans (State.send_dealKept ..)
  · exact s.dealKept_refl p

theorem State.readyTail_dealKept (s : State) (p : Port) : s.dealKept p (s.readyTail p) := by
  unfold State.readyTail
  extract_lets s₁ s₂
  have h₁ : s.dealKept p s₁ := State.dealKept_ite (s.cabAgain_dealKept p) (s.dealKept_refl p)
  have h₂ : s₁.dealKept p s₂ := State.dealKept_ite (s₁.vdmAgain_dealKept p) (s₁.dealKept_refl p)
  exact h₁.trans <| h₂.trans <| (s₂.onPd_dealKept p).trans (State.alertTry_dealKept _ p)

theorem State.firstReady_dealKept (s : State) (p : Port) : s.dealKept p (s.firstReady p) :=
  State.dealKept_ite ((s.onVdm_dealKept p _).trans (State.dealKept_ite (State.arm_dealKept ..) (State.dealKept_refl ..)))
    (s.dealKept_refl p)

theorem State.offerTry_dealKept (s : State) (p : Port) (n : Nat) : s.dealKept p (s.offerTry p n) := by
  unfold State.offerTry
  extract_lets s₁ o x s₂ s₃ s₄ c
  have h₂ : s.dealKept p s₂ := (s.vdmInterrupt_dealKept p).trans (s₁.onPort_dealKept p rfl)
  have h₃ : s₂.dealKept p s₃ := (s₂.arm_dealKept p _).trans (State.disarm_dealKept ..)
  have h₄ : s₃.dealKept p s₄ := State.dealKept_ite (s₃.arm_dealKept p _) (s₃.dealKept_refl p)
  exact h₂.trans <| h₃.trans <| h₄.trans <| State.dealKept_ite (s₄.send_dealKept ..) (s₄.send_dealKept ..)

/-- READY entered: the count of Hard Resets is back at 0, and contract and credits stand. -/
theorem State.enterReady_deal (s : State) (p : Port) :
    ((s.enterReady p).port p).deal = (((s.port p).tc, (s.port p).grd), (s.port p).pd.contract, (s.port p).credits, 0) := by
  unfold State.enterReady
  extract_lets s₁ d
  have h : (s.onPd p fun d => { d with src := .ready, hrc := 0 }).dealKept p
      (if d.trigger || (d.due && d.spacing) then s₁.offer p else s₁.readyTail p) :=
    (State.firstReady_dealKept ..).trans (State.dealKept_ite (s₁.offerTry_dealKept p 1) (s₁.readyTail_dealKept p))
  rw [h.2, State.onPd, State.onPort_port_self]
  rfl

/-! ## EPR mode (R150, R151, R159) -/

theorem State.eprLeft_dealKept (s : State) (p : Port) : s.dealKept p (s.eprLeft p) :=
  (s.disarm_dealKept ..).trans <| (State.disarm_dealKept ..).trans <|
    (State.onPd_dealKept _ p).trans (State.pdEvt_dealKept ..)

theorem State.vcsFailed_dealKept (s : State) (p : Port) : s.dealKept p (s.vcsFailed p) := by
  unfold State.vcsFailed
  extract_lets d s₁
  have h₁ : s.dealKept p s₁ := s.onPd_dealKept p
  have hf : s₁.dealKept p (s₁.eprFail p 2) := (s₁.disarm_dealKept ..).trans <|
    (State.onPd_dealKept _ p).trans (State.send_dealKept ..)
  exact State.dealKept_ite (h₁.trans (State.dealKept_ite hf (s₁.dealKept_refl p))) (s.dealKept_refl p)

/-- Limits commanded leave what the port stands at. -/
theorem State.limitsFor_deal (s : State) (p : Port) (c : Option Contract) (b : Bool) :
    ((s.limitsFor p c b).port p).deal = (s.port p).deal := by
  obtain ⟨l, e, h⟩ := s.limitsFor_port p p c b
  rw [h]
  rfl

end Sys2Proof.Machine
end

section
/-! SUPPORT. The obligation on the result of a transmission, one theorem for each result (R138, R146, R147, R161). -/

namespace Sys2Proof.Machine

variable {s t u : State} {p q : Port} {h : Hand} {c : Contract}

/-! ## GoodCRC -/

/-- Capabilities acknowledged: the answer is waited for. -/
theorem txGoodcrc_caps (hon : s.handOn h p (.txOk .caps)) (hsrc : (s.port p).pd.src = .sendCaps) :
    ∃ t, exec (.txGoodcrc h p) s = .next t ∧ (t.port p).pd.src = .negotiate ∧ t.armed p .senderResponse ∧ s.othersKept p t := by
  obtain ⟨y, d, -, he⟩ := hon.txGoodcrc
  let u : State := { s with hnd := y, draws := d }
  let v := u.onPd p fun d => { d with src := .negotiate }
  have e : u.txOk p .caps = v.arm p .senderResponse := if_pos hsrc
  rw [show ({ s with hnd := y, draws := d } : State) = u from rfl, e] at he
  have hv : v.port p = { s.port p with pd := { (s.port p).pd with src := .negotiate } } := State.onPort_port_self ..
  refine ⟨_, he, ?_, v.arm_armed p _, fun q hq => ?_⟩
  · rw [State.endStep_port, State.arm_port, hv]
  · rw [State.endStep_port, (v.arm_onlyYard p _).1 q hq]
    exact State.onPort_port_ne _ _ _ _ hq

/-- The pledge moved into the charge. -/
def Pd.accepted (d : Pd) : Pd := { d with charge := d.charge + d.pledge, pledge := 0 }

/-- An Accept acknowledged: the pledge is charge, and the transition runs under its limit. -/
theorem txGoodcrc_accept (hsrc : (s.port p).tc.isSrc = true) (hon : s.handOn h p (.txOk .accept)) (hw : (s.port p).pd.want = some c)
    (hc : s.calm) :
    ∃ t, exec (.txGoodcrc h p) s = .next t ∧ (t.port p).pd.src = .transition ∧
      (t.port p).pd.charge = (s.port p).pd.charge + (s.port p).pd.pledge ∧ (t.port p).pd.pledge = 0 ∧
      t.armed p .srcTransition ∧ s.othersKept p t := by
  obtain ⟨y, d, -, he⟩ := hon.txGoodcrc
  let u : State := { s with hnd := y, draws := d }
  have hpu : (u.onPd p Pd.accepted).port p = { s.port p with pd := (s.port p).pd.accepted } := State.onPort_port_self ..
  have hfree : u.free ≤ (u.onPd p Pd.accepted).free := by
    have := State.free_onPort (s := u) (p := p) (f := fun x => { x with pd := x.pd.accepted }) hon.cisOn rfl
    simp only [Pd.accepted] at this
    simp only [State.onPd, Pd.accepted]
    omega
  obtain ⟨k, hl⟩ := State.ledgerOf_calm (s := u) (p := p) (f := fun s => s.onPd p Pd.accepted) hc rfl hfree
  let v : State := { u.onPd p Pd.accepted with cis := k }
  let w := v.onPd p fun d => { d with src := .transition, psRdyOut := false }
  have hv : v.port p = { s.port p with pd := (s.port p).pd.accepted } := hpu
  have hw' : w.port p = { s.port p with pd := { (s.port p).pd.accepted with src := .transition, psRdyOut := false } } := by
    rw [show w.port p = _ from State.onPort_port_self .., hv]
  have e : u.txOk p .accept = (w.arm p .srcTransition).arm p .transitionLimit := by
    show u.acceptAcked p = _
    unfold State.acceptAcked
    rw [if_neg (by rw [show (u.port p).pd.want = some c from hw]; simp)]
    extract_lets v'
    have hv' : v' = v := hl
    clear_value v'
    rw [hv', if_neg (by rw [hv]; simp [hsrc])]
  rw [show ({ s with hnd := y, draws := d } : State) = u from rfl, e] at he
  have hp := State.arm_port (w.arm p .srcTransition) p .transitionLimit
  rw [State.arm_port w, hw'] at hp
  refine ⟨_, he, ?_, ?_, ?_, State.arm_armed_ne (w.arm_armed p _) (by decide), fun q hq => ?_⟩
  · rw [State.endStep_port, hp]
  · rw [State.endStep_port, hp]; rfl
  · rw [State.endStep_port, hp]; rfl
  · rw [State.endStep_port, ((w.arm_onlyYard p _).trans (State.arm_onlyYard _ p _)).1 q hq]
    have hvq : v.port q = s.port q := u.onPort_port_ne p q (fun x => { x with pd := x.pd.accepted }) hq
    exact (State.onPort_port_ne _ _ _ _ hq).trans hvq

/-- The contract in force, its charge taken and the surplus released. -/
def PortState.contracted (c : Contract) (shed : Bool) (x : PortState) : PortState :=
  { x with
    pd := { x.pd with contract := some c, want := none, charge := c.credits, pledge := 0
                      cut := if shed then 0 else x.pd.cut, shed := x.pd.shed && !shed }
    met := { x.met with contracts := min (x.met.contracts + 1) 0xFFFFFFFF } }

/-- The contract stands in the ledger, which then covers what is expected of it: an old shed may end with it. -/
theorem State.ledgerOf_contracted (u : State) (p : Port) (shed : Bool) (hon : u.cisOn = true)
    (hf : (u.cis.ahead : Int) + c.credits ≤ u.free + (u.port p).pd.charge + (u.port p).pd.pledge) :
    ((u.ledgerOf p fun s => s.onPort p (PortState.contracted c shed)).port p).deal =
      (((u.port p).tc, (u.port p).grd), some c, (c.credits, 0, (u.port p).pd.inflow), (u.port p).pd.hrc) := by
  have hp : (u.onPort p (PortState.contracted c shed)).port p = (u.port p).contracted c shed := State.onPort_port_self ..
  have hcov : ((u.onPort p (PortState.contracted c shed)).cis.ahead : Int) ≤ (u.onPort p (PortState.contracted c shed)).free := by
    have := State.free_onPort (s := u) (p := p) (f := PortState.contracted c shed) hon rfl
    simp only [PortState.contracted] at this
    simp only [State.onPort_cis]
    omega
  obtain ⟨k, e⟩ | ⟨-, k, e⟩ := State.ledgerOf_covered (s := u) (p := p) (f := fun s => s.onPort p (PortState.contracted c shed)) hcov
  · rw [e]
    exact congrArg PortState.deal hp
  · have hu : ({ (u.onPort p (PortState.contracted c shed)).onPorts PortState.uncut with cis := k } : State).port p =
        ((u.port p).contracted c shed).uncut := by
      rw [← hp]
      exact State.onPorts_port ..
    rw [e, hu]
    rfl

/-- A source's contract is in force: its charge is the contract's, and the count of Hard Resets is back at 0. -/
theorem State.contractReached_deal {u : State} (hsrc : (u.port p).tc.isSrc = true) (hw : (u.port p).pd.want = some c)
    (hon : u.cisOn = true) (hf : (u.cis.ahead : Int) + c.credits ≤ u.free + (u.port p).pd.charge + (u.port p).pd.pledge) :
    ((u.contractReached p).port p).deal = (((u.port p).tc, (u.port p).grd), some c, (c.credits, 0, (u.port p).pd.inflow), 0) := by
  unfold State.contractReached
  split
  next hn => rw [hw] at hn; cases hn
  next c' hc' =>
  obtain rfl : c = c' := Option.some.inj (hw.symm.trans hc')
  extract_lets shed s₁ s₂ s₃ s₄
  have h₁ : (s₁.port p).deal = (((u.port p).tc, (u.port p).grd), some c, (c.credits, 0, (u.port p).pd.inflow), (u.port p).pd.hrc) :=
    u.ledgerOf_contracted p shed hon hf
  have h₂ : s₁.dealKept p s₂ := (s₁.disarm_dealKept p _).trans (State.disarm_dealKept _ p _)
  have h₃ : s₂.dealKept p s₃ := State.dealKept_ite (s₂.dealKept_refl p) (s₂.disarm_dealKept p _)
  have h₄ : (s₄.port p).deal = (s₃.port p).deal :=
    (State.limitsFor_deal _ p _ _).trans ((s₃.pdEvt_dealKept p 0).trans (State.pdCnt_dealKept _ p 0)).2
  have hd := h₄.trans (h₃.2.trans (h₂.2.trans h₁))
  have hs₁ : (s₁.port p).tc.isSrc = true := by rw [show (s₁.port p).tc = _ from congrArg (·.1.1) h₁, hsrc]
  have hend {v : State} (hv : (v.port p).deal = (s₄.port p).deal) :
      ((v.enterReady p).port p).deal = (((u.port p).tc, (u.port p).grd), some c, (c.credits, 0, (u.port p).pd.inflow), 0) := by
    obtain ⟨⟨e₁, e₀⟩, e₂, e₃, -⟩ : ((v.port p).tc = (u.port p).tc ∧ (v.port p).grd = (u.port p).grd) ∧ (v.port p).pd.contract = some c ∧
        (v.port p).credits = (c.credits, 0, (u.port p).pd.inflow) ∧ (v.port p).pd.hrc = (u.port p).pd.hrc := by
      simpa only [PortState.deal, Prod.mk.injEq] using hv.trans hd
    rw [State.enterReady_deal, e₁, e₀, e₂, e₃]
  clear_value s₁ s₂ s₃ s₄
  rw [hs₁, Bool.not_true, if_neg Bool.false_ne_true]
  split
  · exact hend ((s₄.eprLeft_dealKept p).trans (State.onPd_dealKept _ p)).2
  · exact hend rfl

/-- PS_RDY acknowledged. -/
theorem txGoodcrc_psRdy (hsrc : (s.port p).tc.isSrc = true) (hon : s.handOn h p (.txOk .psRdy)) (hw : (s.port p).pd.want = some c)
    (hf : (s.cis.ahead : Int) + c.credits ≤ s.free + (s.port p).pd.charge + (s.port p).pd.pledge) :
    ∃ t, exec (.txGoodcrc h p) s = .next t ∧ (t.port p).pd.contract = some c ∧ (t.port p).pd.charge = c.credits ∧
      (t.port p).pd.pledge = 0 ∧ (t.port p).pd.hrc = 0 := by
  obtain ⟨y, d, -, he⟩ := hon.txGoodcrc
  have hd := State.contractReached_deal (u := { s with hnd := y, draws := d }) hsrc hw hon.cisOn hf
  simp only [PortState.deal, PortState.credits, Prod.mk.injEq] at hd
  obtain ⟨-, hcon, ⟨hch, hpl, -⟩, hhrc⟩ := hd
  exact ⟨_, he, hcon, hch, hpl, hhrc⟩

/-! ## A failed transmission -/

/-- Capabilities that nobody acknowledges: the next attempt is due, or there is none after attempt 50. -/
theorem txfail_caps (hon : s.handOn h p (.txFail .caps)) (hsrc : (s.port p).pd.src = .sendCaps) :
    ∃ t, exec (.txfail h p) s = .next t ∧ s.othersKept p t ∧ (t.port p).pd.capsTry = (s.port p).pd.capsTry ∧
      (if 50 ≤ (s.port p).pd.capsTry then (t.port p).pd.src = .typecOnly
       else (t.port p).pd.src = .sendCaps ∧ t.armed p .typeCSendSourceCap) := by
  obtain ⟨y, d, -, he⟩ := hon.txfail
  let u : State := { s with hnd := y, draws := d }
  have e : u.txFail p .caps =
      if 50 ≤ (s.port p).pd.capsTry then u.onPd p fun d => { d with src := .typecOnly } else u.arm p .typeCSendSourceCap :=
    if_neg (not_not.2 hsrc)
  rw [show ({ s with hnd := y, draws := d } : State) = u from rfl, e] at he
  refine ⟨_, he, ?_⟩
  split
  · have hp : (u.onPd p fun d => { d with src := .typecOnly }).port p =
        { s.port p with pd := { (s.port p).pd with src := .typecOnly } } := State.onPort_port_self ..
    rw [State.endStep_port, hp]
    exact ⟨fun q hq => u.onPd_port_ne (fun d => { d with src := .typecOnly }) hq, rfl, rfl⟩
  · have hp := u.arm_port p .typeCSendSourceCap
    rw [State.endStep_port, hp]
    exact ⟨(u.arm_onlyYard p _).1, rfl, hsrc, u.arm_armed p _⟩

/-- After a PS_RDY that fails nothing has changed but that the event is gone. -/
theorem txfail_psRdy (hon : s.handOn h p (.txFail .psRdy)) :
    ∃ t, exec (.txfail h p) s = .next t ∧ t.ports = s.ports ∧ t.hnd.timers = s.hnd.timers := by
  obtain ⟨y, d, ht, he⟩ := hon.txfail
  exact ⟨_, he, rfl, ht⟩

/-- Soft_Reset leads a source out of whatever its contract was at: no pledge stands, and the message waits to go. -/
theorem State.softReset_spec (hc : s.calm) (hon : s.cisOn = true) (hstop : s.dev.stop = none) (hsrc : (s.port p).tc.isSrc = true) :
    ((s.softReset p).port p).pd.src = .softReset ∧ ((s.softReset p).port p).pd.pledge = 0 ∧
      (s.softReset p).lastTx p = some ⟨.sop, .softReset, .softReset⟩ := by
  unfold State.softReset
  extract_lets s₁ s₂ s₃ s₄
  have h₂ : s.dealKept p s₂ := (s.vdmInterrupt_dealKept p).trans <| (State.vcsFailed_dealKept _ p).trans <|
    State.foldl_dealKept (fun s i => s.disarm_dealKept p i) _ _
  clear_value s₁ s₂
  have hp : (s₂.onPd p fun d => { d with pledge := 0, want := none }).port p = _ := s₂.onPd_port p _
  have hfree : s₂.free ≤ (s₂.onPd p fun d => { d with pledge := 0, want := none }).free := by
    have := State.free_onPort (s := s₂) (p := p) (f := fun x => { x with pd := { x.pd with pledge := 0, want := none } })
      (by rwa [State.cisOn, h₂.dev]) rfl
    simp only [State.onPd]
    dsimp only at this
    omega
  obtain ⟨k, hl⟩ := State.ledgerOf_calm (s := s₂) (p := p) (f := fun s => s.onPd p fun d => { d with pledge := 0, want := none })
    (h₂.calm hc) rfl hfree
  have e₃ : s₃ = { s₂.onPd p fun d => { d with pledge := 0, want := none } with cis := k } := hl
  have h₃ : s₃.port p = { s₂.port p with pd := { (s₂.port p).pd with pledge := 0, want := none } } := by rw [e₃]; exact hp
  have hs₃ : s₃.dev.stop = none := by rw [e₃]; exact (congrArg Dev.stop h₂.dev).trans hstop
  have htc : (s₃.port p).tc.isSrc = true := by rw [h₃, h₂.tc, hsrc]
  clear_value s₃
  have h₄ : s₄.port p = { s₃.port p with prot := (s₃.port p).prot.idsReset
                                         pd := { (s₃.port p).pd with src := .softReset, vcs := 0, waits := 0, twinWaits := 0 } } := by
    unfold s₄
    rw [State.onPort_port_self, htc, if_pos rfl]
  have hs₄ : s₄.dev.stop = none := hs₃
  clear_value s₄
  rw [if_neg (by simp [Tc.attached, htc])]
  simp [State.send, State.pdEvt, State.pdCnt, State.lastTx, hs₄, h₄, h₃]

/-- An Accept that fails. -/
theorem txfail_accept (hsrc : (s.port p).tc.isSrc = true) (hon : s.handOn h p (.txFail .accept)) (hc : s.calm) :
    ∃ t, exec (.txfail h p) s = .next t ∧ (t.port p).pd.src = .softReset ∧ (t.port p).pd.pledge = 0 ∧
      t.lastTx p = some ⟨.sop, .softReset, .softReset⟩ := by
  obtain ⟨y, d, -, he⟩ := hon.txfail
  let u : State := { s with hnd := y, draws := d }
  obtain ⟨h₁, h₂, h₃⟩ := State.softReset_spec (s := u) (p := p) hc hon.cisOn hon.2.1 hsrc
  rw [show ({ s with hnd := y, draws := d } : State) = u from rfl, show u.txFail p .accept = u.softReset p from rfl] at he
  generalize u.softReset p = v at *
  exact ⟨_, he, h₁, h₂, h₃⟩

/-- Settles O25: one theorem for each result. -/
theorem transmissionResults : Obligations.TransmissionResults := by
  unfold Obligations.TransmissionResults
  intro s h p c hsrc
  exact ⟨txGoodcrc_caps, txGoodcrc_accept hsrc, txGoodcrc_psRdy hsrc, txfail_accept hsrc, txfail_psRdy, txfail_caps⟩

end Sys2Proof.Machine
end

section
/-! SUPPORT. The guard's own operations on a port: its record, the notice, and the ways into and out of GUARD_OFF (R115 to R117, R125,
R128). -/

namespace Sys2Proof.Machine

variable {s t u : State} {p q : Port} {h : Hand} {F : GrdP → GrdP}

/-! ## The guard's record -/

/-- The temperatures of the dies are not a port's. -/
theorem State.onlyPortYard.grdG (h : s.onlyPortYard p t) : t.grd = s.grd := by
  obtain ⟨-, -, -, -, -, -, -, -, -, -, hg, -⟩ := h
  exact hg

theorem State.grdG_of_viewOf (h : t.viewOf p = s.viewOf p) : t.grd = s.grd := congrArg (·.2.2.2.1) h

theorem State.onGrd_port (s : State) (p : Port) (F : GrdP → GrdP) :
    (s.onGrd p F).port p = { s.port p with grd := F (s.port p).grd } := State.onPort_port_self ..

theorem State.onGrd_only (s : State) (p : Port) (F : GrdP → GrdP) : s.onlyPort p (s.onGrd p F) := s.onPort_only p _

theorem State.onGrd_onGrd (s : State) (p : Port) (F G : GrdP → GrdP) : (s.onGrd p F).onGrd p G = s.onGrd p fun g => G (F g) :=
  State.onPort_onPort ..

theorem State.grdEvt_eq (s : State) (p : Port) (i : Nat) : s.grdEvt p i = s.onGrd p fun g => { g with evt := setBit g.evt i } := rfl
theorem State.grdCnt_eq (s : State) (p : Port) (i : Fin 5) : s.grdCnt p i = s.onGrd p fun g => { g with cnt := bump g.cnt i } := rfl

theorem State.guardPost_port (s : State) (p : Port) (b : Bool) :
    (s.guardPost p b).port p = { s.port p with grd := { (s.port p).grd with notice := (s.port p).grd.notice || b } } :=
  s.onGrd_port p fun g => { g with notice := g.notice || b }

theorem State.guardPost_onlyYard (s : State) (p : Port) (b : Bool) : s.onlyPortYard p (s.guardPost p b) :=
  s.onPort_post_onlyYard p _ _ _ _ _

/-- The port factor follows a port's own record. -/
theorem State.factor_onGrd (s : State) (p : Port) (F : GrdP → GrdP) :
    (s.onGrd p F).factor p = min ({ s.port p with grd := F (s.port p).grd } : PortState).fNtcNow (s.fDie p) := by
  rw [← s.onGrd_port p F]
  rfl

/-! ## Into GUARD_OFF (R116, R125) -/

theorem State.guardOff_grd (s : State) (p : Port) : ((s.guardOff p).port p).grd = (s.port p).grd := by
  unfold State.guardOff
  split
  · rfl
  · rfl
  · rfl
  · exact (s.leave_pathKept p .guardOff).grd p

/-- A port that no guard condition can cut: it is out of use already. -/
def ConnState.out (c : ConnState) : Prop := c = .disabled ∨ c = .fault ∨ c = .guardOff

theorem State.guardOff_out (s : State) (p : Port) : ((s.guardOff p).port p).tc.st.out := by
  unfold State.guardOff
  split
  next h => exact .inl h
  next h => exact .inr (.inl h)
  next h => exact .inr (.inr h)
  next => exact .inr (.inr (s.leave_st p _))

theorem State.guardCut_grd (s : State) (p : Port) : ((s.guardCut p).port p).grd = (s.port p).grd :=
  (State.grd_of_viewOf (s.guardCut_viewOf p)).trans (s.guardOff_grd p)

theorem State.guardCut_out (s : State) (p : Port) : ((s.guardCut p).port p).tc.st.out := by
  rw [State.tc_of_viewOf (s.guardCut_viewOf p)]
  exact s.guardOff_out p

theorem State.guardCut_grdG (s : State) (p : Port) : (s.guardCut p).grd = s.grd := by
  have h : (s.guardCut p).grd = (s.guardOff p).grd := State.grdG_of_viewOf (s.guardCut_viewOf p)
  rw [h]
  unfold State.guardOff
  split
  · rfl
  · rfl
  · rfl
  · exact State.grdG_of_viewOf (State.leave_viewOf (s := s) (sibOf_ne p).symm .guardOff)

/-- An attached port that is cut has no contract and no charge. -/
theorem State.guardCut_attached (h : (s.port p).tc.attached = true) :
    ((s.guardCut p).port p).tc.st = .guardOff ∧ ((s.guardCut p).port p).pd.contract = none ∧
      ((s.guardCut p).port p).pd.charge = 0 := by
  have hg : s.guardOff p = s.leave p .guardOff := by
    rcases Bool.or_eq_true_iff.1 h with h | h <;> simp_all [State.guardOff, Tc.isSrc, Tc.isSnk]
  have hv := s.guardCut_viewOf p
  rw [hg] at hv
  obtain ⟨hcon, hch, -⟩ := s.leave_left p .guardOff
  exact ⟨by rw [State.tc_of_viewOf hv, s.leave_st], (State.contract_of_viewOf hv).trans hcon, (State.charge_of_viewOf hv).trans hch⟩

/-! ## Out of GUARD_OFF (R128) -/

theorem State.toUnatt_grd (s : State) (p : Port) : ((s.toUnatt p).port p).grd = (s.port p).grd := by
  rw [State.toUnatt, State.noteFrom_port, State.onPort_port_self]

theorem State.guardFree_grd (s : State) (p : Port) : ((s.guardFree p).port p).grd = (s.port p).grd := by
  unfold State.guardFree
  split
  · exact s.toUnatt_grd p
  · rfl

theorem State.guardFree_onlyYard (s : State) (p : Port) : s.onlyPortYard p (s.guardFree p) :=
  State.onlyPortYard_ite (s.toUnatt_only p) (s.onlyPortYard_refl p)

/-- While a guard condition stands a port stays cut. -/
theorem State.guardFree_of_off (h : (s.port p).grd.off = true) : s.guardFree p = s := by simp [State.guardFree, h]

/-! ## F at 0 without a cut (R125) -/

/-- Where F at 0 is known as it stands nothing follows. -/
theorem State.judgeZero_known
    (hz : (s.port p).grd.zeroF = (decide (s.factor p = 0) && !(s.port p).grd.hot && !(s.port p).grd.dieHot)) : s.judgeZero p = s := by
  unfold State.judgeZero
  extract_lets g zero t
  have ht : t = s := State.onPort_of_eq (by rw [show zero = (s.port p).grd.zeroF from hz.symm])
  rw [show zero = g.zeroF from hz.symm, ht]
  cases g.zeroF <;> rfl

/-- F falls to 0: the port is cut. -/
theorem State.judgeZero_falls (hf : s.factor p = 0) (hh : (s.port p).grd.hot = false) (hd : (s.port p).grd.dieHot = false)
    (hz : (s.port p).grd.zeroF = false) :
    s.judgeZero p = ((s.onGrd p fun g => { g with zeroF := true }).guardPost p false).guardCut p := by
  simp [State.judgeZero, hf, hh, hd, hz]

/-- Under a connector cut F at 0 adds nothing: only the guard's record can change. -/
theorem State.judgeZero_of_hot (hh : (s.port p).grd.hot = true) :
    ∃ g, (s.judgeZero p).port p = { s.port p with grd := g } ∧ g.hot = true := by
  unfold State.judgeZero
  extract_lets g zero t
  have hz : zero = false := by simp [zero, g, hh]
  have ht : t.port p = { s.port p with grd := { g with zeroF := zero } } := s.onGrd_port p _
  clear_value t
  rw [hz, Bool.false_and, if_neg Bool.false_ne_true]
  split
  · have hp : (t.guardPost p false).port p = _ := t.guardPost_port p false
    rw [ht] at hp
    rw [State.guardFree_of_off (by rw [hp]; simp [GrdP.off, g, hh]), hp]
    exact ⟨_, rfl, hh⟩
  · rw [ht]
    exact ⟨_, rfl, hh⟩

theorem State.judgeZero_grdG (s : State) (p : Port) : (s.judgeZero p).grd = s.grd := by
  unfold State.judgeZero
  extract_lets g zero t
  split
  · exact State.guardCut_grdG _ p
  split
  · exact ((t.guardPost_onlyYard p false).trans (State.guardFree_onlyYard _ p)).grdG
  · rfl

end Sys2Proof.Machine
end

section
/-! SUPPORT. Readings of the dowser and of the thermistor (R113 to R116, R121, R126). -/

namespace Sys2Proof.Machine

variable {s t u : State} {p q : Port} {z ohm : Nat}

/-! ## What a judgement of WET leaves of the reading (R115 to R117) -/

/-- The last reading of the dowser, its time and its frame. -/
def GrdP.reading (g : GrdP) : Nat × Nat × Nat × Option Bool := (g.z, g.us, g.frame, g.ccFrame)

theorem State.setWet_reading (s : State) (p : Port) : ((s.setWet p).port p).grd.reading = (s.port p).grd.reading := by
  unfold State.setWet
  extract_lets s₁ on s₂
  have h₁ : (s₁.port p).grd.reading = (s.port p).grd.reading := by
    simp only [s₁, State.grdEvt_eq, State.grdCnt_eq, State.onGrd_onGrd, State.onGrd_port]
    rfl
  have h₂ : (s₂.port p).grd.reading = (s.port p).grd.reading := by
    unfold s₂
    rw [State.guardPost_port]
    exact h₁
  split
  · exact h₂
  · rw [State.guardCut_grd, h₂]

theorem State.setFlood_reading (s : State) (p : Port) : ((s.setFlood p).port p).grd.reading = (s.port p).grd.reading := by
  unfold State.setFlood
  rw [State.guardCut_grd, State.guardPost_port]
  simp only [State.grdEvt_eq, State.grdCnt_eq, State.onGrd_onGrd, State.onGrd_port]
  rfl

theorem State.judgeWet_reading (s : State) (p : Port) : ((s.judgeWet p).port p).grd.reading = (s.port p).grd.reading := by
  have hpost (s : State) (F : GrdP → GrdP) (b : Bool) (hF : ∀ g : GrdP, (F g).reading = g.reading) :
      (((s.onGrd p F).guardPost p b).port p).grd.reading = (s.port p).grd.reading := by
    rw [State.guardPost_port, State.onGrd_port]
    exact hF _
  unfold State.judgeWet
  extract_lets c g s₁ s₂ s₃ s₄ s₅
  have h₁ : (s₁.port p).grd.reading = (s.port p).grd.reading := by
    unfold s₁
    split
    · exact s.setWet_reading p
    · rfl
  have h₂ : (s₂.port p).grd.reading = (s₁.port p).grd.reading := by
    unfold s₂
    split
    · exact s₁.setFlood_reading p
    · rfl
  have h₃ : (s₃.port p).grd.reading = (s₂.port p).grd.reading := by
    unfold s₃
    split
    · exact hpost s₂ _ _ fun _ => rfl
    · rfl
  have h₅ : (s₅.port p).grd.reading = (s₃.port p).grd.reading := by
    unfold s₅
    split
    · unfold s₄
      rw [State.grdEvt_eq, State.onGrd_onGrd]
      exact hpost s₃ _ _ fun _ => rfl
    · rfl
  rw [State.guardFree_grd, h₅, h₃, h₂, h₁]

/-! ## The dowser's frame (R113, R114) -/

/-- A frame's reading on the moisture pin: its time and its run. -/
def GrdP.sampled (g : GrdP) (z zWet zDry : Nat) : GrdP := ({ g with us := g.us + 16000 } : GrdP).impedance z zWet zDry

theorem GrdP.sampled_reading {g : GrdP} (h : g.ccFrame = none) (z zWet zDry : Nat) :
    (g.sampled z zWet zDry).reading = (z, g.us + 16000, g.frame, none) := by
  simp [GrdP.sampled, GrdP.impedance, GrdP.reading, h]

section
variable (hw : s.works p = true) (hq : (s.port p).quiet = false)
include hw hq

theorem exec_dowserFrame_impedance (hd : (s.port p).cfg.dowser = true) (hf : (s.port p).grd.frame ≠ 0)
    (hc : (s.port p).grd.ccFrame = none) :
    exec (.dowserFrame p (.impedance z false)) s =
      .next (((s.onGrd p fun g => g.sampled (if 2000 < z then 0xFFFF else z) s.alm.cfg.zWet s.alm.cfg.zDry).judgeWet p).onPort p
        fun y => { y with grd := y.grd.nextFrame y.tc.st }) := by
  show execDowserFrame p (.impedance z false) s = _
  unfold execDowserFrame
  rw [if_neg (by simp [hw, hd, hq])]
  dsimp only
  rw [hc, if_neg (by simp), if_neg (by simp [hf]), State.onGrd_onGrd]
  rfl

/-- An impedance frame on the moisture pin records its reading and its time, and the next frame follows. -/
theorem dowserFrame_impedance (hd : (s.port p).cfg.dowser = true) (hf : (s.port p).grd.frame ≠ 0) (hc : (s.port p).grd.ccFrame = none) :
    ∃ t, exec (.dowserFrame p (.impedance z false)) s = .next t ∧ (t.port p).grd.z = (if 2000 < z then 0xFFFF else z) ∧
      (t.port p).grd.us = (s.port p).grd.us + 16000 ∧ (t.port p).grd.frame = ((s.port p).grd.frame + 1) % 64 ∧ s.memKept t := by
  refine ⟨_, exec_dowserFrame_impedance hw hq hd hf hc, ?_⟩
  generalize (if 2000 < z then 0xFFFF else z) = z'
  have hu : ((s.onGrd p fun g => g.sampled z' s.alm.cfg.zWet s.alm.cfg.zDry).port p).grd.reading =
      (z', (s.port p).grd.us + 16000, (s.port p).grd.frame, none) := by
    rw [State.onGrd_port]
    exact GrdP.sampled_reading hc ..
  have hk : s.Same (s.onGrd p fun g => g.sampled z' s.alm.cfg.zWet s.alm.cfg.zDry) := s.onGrd_kept p _
  generalize (s.onGrd p fun g => g.sampled z' s.alm.cfg.zWet s.alm.cfg.zDry) = u at hu hk
  have hr := (u.judgeWet_reading p).trans hu
  have hm := (hk.trans ((u.judgeWet_kept p).trans (State.onPort_kept _ p fun y => { y with grd := y.grd.nextFrame y.tc.st }))).memKept
  simp only [GrdP.reading, Prod.mk.injEq] at hr
  obtain ⟨h₁, h₂, h₃, -⟩ := hr
  rw [State.onPort_port_self]
  exact ⟨h₁, h₂, by simp only [GrdP.nextFrame, h₃], hm⟩

/-! ## The thermistor (R121, R126) -/

/-- A reading outside its bounds is a fault of the thermistor. -/
def GrdP.ntcFails (g : GrdP) (l : List (Nat × Option Int)) : GrdP :=
  { g with readings := l, ntcOk := 0, ntcf := true, evt := setBit g.evt 4, cnt := bump g.cnt 4 }

theorem exec_ntcMeasure_outOfBounds (hn : (s.port p).cfg.ntc = true) (hb : ntcInBounds (s.port p).cfg.therm ohm = false)
    (hf : (s.port p).grd.ntcf = false) :
    ∃ l, exec (.ntcMeasure p ohm) s =
      .next ((s.onGrd p fun g => (g.ntcFails l).filter (s.port p).cfg.therm.tCut s.dev.us).judgeZero p) := by
  refine ⟨?l, ?_⟩
  rotate_left
  · show execNtcMeasure p ohm s = _
    unfold execNtcMeasure
    rw [if_neg (by simp [hw, hn, hq])]
    dsimp only
    rw [if_pos (by simp [hb, hf]), hb, State.grdEvt_eq, State.grdCnt_eq]
    simp only [State.onGrd_onGrd]
    rfl

/-- With P_MIN above 0 the port goes on under it. -/
theorem ntcMeasure_outOfBounds (hn : (s.port p).cfg.ntc = true) (hb : ntcInBounds (s.port p).cfg.therm ohm = false)
    (hf : (s.port p).grd.ntcf = false) (hm : 0 < (s.port p).cfg.therm.pMin) (hd : 0 < s.fDie p) (hz : (s.port p).grd.zeroF = false) :
    ∃ t, exec (.ntcMeasure p ohm) s = .next t ∧ s.onlyPort p t ∧ (t.port p).grd.ntcf = true ∧
      (t.port p).grd.evt = setBit (s.port p).grd.evt 4 ∧ (t.port p).grd.ntcOk = 0 := by
  obtain ⟨l, he⟩ := exec_ntcMeasure_outOfBounds hw hq hn hb hf
  rw [State.judgeZero_known] at he
  · refine ⟨_, he, s.onGrd_only p _, ?_⟩
    rw [State.onGrd_port]
    exact ⟨rfl, rfl, rfl⟩
  · rw [State.factor_onGrd, State.onGrd_port]
    cases hh : (s.port p).grd.hot
    · simp [PortState.fNtcNow, GrdP.filter, GrdP.ntcFails, hn, hh, hz, hm.ne', hd.ne']
    · simp [GrdP.filter, GrdP.ntcFails, hh, hz]

theorem exec_ntcMeasure_first (hn : (s.port p).cfg.ntc = true) (hb : ntcInBounds (s.port p).cfg.therm ohm = true)
    (hf : (s.port p).grd.ntcf = false) (hr : (s.port p).grd.readings = []) :
    ∃ n, exec (.ntcMeasure p ohm) s =
      .next ((s.onGrd p fun g => ({ g with readings := [(s.dev.aon, some (ntcTemp (s.port p).cfg.therm ohm))], ntcOk := n } : GrdP).filter
        (s.port p).cfg.therm.tCut s.dev.us).judgeZero p) := by
  refine ⟨?l, ?_⟩
  rotate_left
  · show execNtcMeasure p ohm s = _
    unfold execNtcMeasure
    rw [if_neg (by simp [hw, hn, hq])]
    dsimp only
    rw [if_neg (by simp [hb]), if_neg (by simp [hf]), hb, GrdP.lastSecond, hr, State.onGrd_onGrd]
    rfl

/-- The first reading within bounds is the temperature. -/
theorem ntcMeasure_first (hn : (s.port p).cfg.ntc = true) (hb : ntcInBounds (s.port p).cfg.therm ohm = true)
    (hf : (s.port p).grd.ntcf = false) (hr : (s.port p).grd.readings = [])
    (hz : (s.port p).grd.zeroF = (decide (s.factor p = 0) && !(s.port p).grd.hot && !(s.port p).grd.dieHot)) :
    ∃ t, exec (.ntcMeasure p ohm) s = .next t ∧ s.onlyPort p t ∧ (t.port p).grd.ntcf = false ∧
      (t.port p).grd.temp = ntcTemp (s.port p).cfg.therm ohm := by
  obtain ⟨n, he⟩ := exec_ntcMeasure_first hw hq hn hb hf hr
  rw [State.judgeZero_known] at he
  · refine ⟨_, he, s.onGrd_only p _, ?_⟩
    rw [State.onGrd_port]
    exact ⟨hf, by simp [GrdP.filter, meanInt]⟩
  · rw [State.factor_onGrd, State.onGrd_port]
    exact hz

end

end Sys2Proof.Machine
end

section
/-! SUPPORT. The thermal evaluation of a port: the connector cut, and F at 0 without a cut (R122, R125). -/

namespace Sys2Proof.Machine

variable {s t u : State} {p q : Port}

/-- The guard's record once a port's factor has been evaluated: F_ntc, the connector cut, if it comes now, and OTP_WARN. -/
def GrdP.evaluated (g : GrdP) (f : Nat) (cut warn : Bool) (now : Nat) : GrdP :=
  let g := { g with fNtc := f }
  let g := if cut then { g with hot := true, hotBelow := none, evt := setBit g.evt 3, cnt := bump g.cnt 3 } else g
  let g := if warn then { g with evt := setBit g.evt 5 } else g
  { g with wasF := now }

theorem GrdP.evaluated_kept (g : GrdP) (f : Nat) (cut warn : Bool) (now : Nat) :
    (g.evaluated f cut warn now).hot = (cut || g.hot) ∧ (g.evaluated f cut warn now).fNtc = f ∧
      (g.evaluated f cut warn now).ntcf = g.ntcf ∧ (g.evaluated f cut warn now).dieHot = g.dieHot ∧
      (g.evaluated f cut warn now).zeroF = g.zeroF := by
  cases cut <;> cases warn <;> exact ⟨rfl, rfl, rfl, rfl, rfl⟩

/-- F_ntc as it is evaluated. -/
def PortState.fNtcNext (x : PortState) : Nat := if x.cfg.ntc then fNtcOf x.cfg.therm x.grd.temp else 100

/-- The connector cut is due (R125). -/
def PortState.cutDue (x : PortState) (aon : Nat) : Bool :=
  x.cfg.ntc && !x.grd.ntcf && !x.grd.hot && decide (1000 * (x.cfg.therm.tCut : Int) ≤ x.grd.temp) &&
    (x.grd.lastSecond aon).any (·.2.isSome)

/-- An evaluation that leaves the port unattached ends with what the cut, or F at 0, did. -/
theorem exec_thermalEvaluation (hw : s.works p = true) (hq : (s.port p).quiet = false) :
    ∃ w n, let v := s.onGrd p fun g => g.evaluated (s.port p).fNtcNext ((s.port p).cutDue s.dev.aon) w n
      let t := (if (s.port p).cutDue s.dev.aon then (v.guardPost p false).guardCut p else v).judgeZero p
      (t.port p).tc.attached = false → exec (.thermalEvaluation p) s = .next t := by
  have he : exec (.thermalEvaluation p) s = execThermalEvaluation p s := rfl
  unfold execThermalEvaluation at he
  rw [if_neg (by simp [hw, hq])] at he
  extract_lets f cut s₁ s₂ now s₃ s₄ s₅ at he
  have h₄ : ∃ w, s₄ = s.onGrd p fun g => g.evaluated f cut w now := by
    refine ⟨decide (now < 100 ∧ (s.port p).grd.wasF = 100), ?_⟩
    have h₃ : s₃ = if decide (now < 100 ∧ (s.port p).grd.wasF = 100) = true then s₂.grdEvt p 5 else s₂ := by
      simp only [s₃, decide_eq_true_eq]
    unfold s₄
    rw [h₃]
    clear_value now cut
    unfold s₂ s₁
    generalize decide (now < 100 ∧ (s.port p).grd.wasF = 100) = w
    cases cut <;> cases w <;> simp only [State.grdEvt_eq, State.grdCnt_eq, State.onGrd_onGrd, Bool.false_eq_true, if_false, if_true] <;> rfl
  obtain ⟨w, h₄⟩ := h₄
  refine ⟨w, now, ?_⟩
  intro v t ht
  have h₅ : s₅ = t := by
    unfold s₅
    rw [h₄]
    rfl
  rw [h₅, ht] at he
  exact he

section
variable (hw : s.works p = true) (hq : (s.port p).quiet = false) (hat : (s.port p).tc.attached = true)
include hw hq hat

/-- The connector cut ends the attachment. -/
theorem thermalEvaluation_cut (hn : (s.port p).cfg.ntc = true) (hf : (s.port p).grd.ntcf = false) (hh : (s.port p).grd.hot = false)
    (ht : 1000 * ((s.port p).cfg.therm.tCut : Int) ≤ (s.port p).grd.temp)
    (hl : ((s.port p).grd.lastSecond s.dev.aon).any (·.2.isSome) = true) :
    ∃ t, exec (.thermalEvaluation p) s = .next t ∧ (t.port p).grd.hot = true ∧ (t.port p).tc.st = .guardOff ∧
      (t.port p).pd.contract = none ∧ (t.port p).pd.charge = 0 := by
  obtain ⟨w, n, he⟩ := exec_thermalEvaluation hw hq
  have hc : (s.port p).cutDue s.dev.aon = true := by simp only [PortState.cutDue, hn, hf, hh, ht, hl, decide_true]; rfl
  extract_lets v t at he
  obtain ⟨e₁, -⟩ := (s.port p).grd.evaluated_kept (s.port p).fNtcNext ((s.port p).cutDue s.dev.aon) w n
  let u := v.guardPost p false
  have hv : v.port p = _ := s.onGrd_port p _
  have hu : u.port p = _ := v.guardPost_port p false
  rw [hv] at hu
  have hhot : (u.port p).grd.hot = true := by
    rw [hu]
    exact e₁.trans (by rw [hc, Bool.true_or])
  obtain ⟨hst, hcon, hch⟩ := u.guardCut_attached (p := p) (by rw [hu]; exact hat)
  obtain ⟨g, hp, hg⟩ := State.judgeZero_of_hot (s := u.guardCut p) (p := p) (by rw [State.guardCut_grd, hhot])
  have ht : t = (u.guardCut p).judgeZero p := by
    unfold t
    rw [if_pos hc]
  rw [← ht] at hp
  have hst' : (t.port p).tc.st = .guardOff := by rw [hp, hst]
  exact ⟨t, he (by simp [Tc.attached, Tc.isSrc, Tc.isSnk, hst']), by rw [hp, hg], hst', by rw [hp, hcon], by rw [hp, hch]⟩

/-- F at 0 without a cut ends the attachment in the same way. -/
theorem thermalEvaluation_zero (hn : (s.port p).cfg.ntc = true) (hf : (s.port p).grd.ntcf = false) (hh : (s.port p).grd.hot = false)
    (hd : (s.port p).grd.dieHot = false) (hz : (s.port p).grd.zeroF = false)
    (ht : (s.port p).grd.temp < 1000 * ((s.port p).cfg.therm.tCut : Int))
    (h0 : fNtcOf (s.port p).cfg.therm (s.port p).grd.temp = 0) :
    ∃ t, exec (.thermalEvaluation p) s = .next t ∧ (t.port p).grd.zeroF = true ∧ (t.port p).grd.hot = false ∧
      (t.port p).tc.st = .guardOff ∧ (t.port p).pd.contract = none := by
  obtain ⟨w, n, he⟩ := exec_thermalEvaluation hw hq
  have hc : (s.port p).cutDue s.dev.aon = false := by
    simp only [PortState.cutDue, decide_eq_false (Int.not_le.2 ht), Bool.and_false, Bool.false_and]
  have hf0 : (s.port p).fNtcNext = 0 := by rw [PortState.fNtcNext, if_pos hn, h0]
  extract_lets v t at he
  obtain ⟨k₁, e₂, e₃, e₄, e₅⟩ := (s.port p).grd.evaluated_kept (s.port p).fNtcNext ((s.port p).cutDue s.dev.aon) w n
  have hv : v.port p = _ := s.onGrd_port p _
  have e₁ := k₁.trans (show ((s.port p).cutDue s.dev.aon || (s.port p).grd.hot) = false by rw [hc, hh, Bool.or_self])
  have hfac : v.factor p = 0 := by
    rw [State.factor_onGrd]
    simp only [PortState.fNtcNow, hn, e₁, e₂.trans hf0, e₃, hf, Bool.not_true, Bool.false_eq_true, if_false, Nat.zero_min]
  have htv : t = ((v.onGrd p fun g => { g with zeroF := true }).guardPost p false).guardCut p := by
    unfold t
    rw [if_neg (by simp [hc]), State.judgeZero_falls hfac]
    · rw [hv]; exact e₁
    · rw [hv]; exact e₄.trans hd
    · rw [hv]; exact e₅.trans hz
  let u := (v.onGrd p fun g => { g with zeroF := true }).guardPost p false
  have hu : u.port p = _ := State.guardPost_port _ p false
  rw [State.onGrd_port, hv] at hu
  obtain ⟨hst, hcon, -⟩ := u.guardCut_attached (p := p) (by rw [hu]; exact hat)
  have hg : (t.port p).grd = (u.port p).grd := by rw [htv, State.guardCut_grd]
  have hst' : (t.port p).tc.st = .guardOff := by rw [htv, hst]
  exact ⟨t, he (by simp [Tc.attached, Tc.isSrc, Tc.isSnk, hst']), by rw [hg, hu], by rw [hg, hu]; exact e₁, hst', by rw [htv, hcon]⟩

end

end Sys2Proof.Machine
end

section
/-! SUPPORT. The die cut and the ends of the cuts (R123, R125, R128). -/

namespace Sys2Proof.Machine

variable {s t u : State} {p q : Port}

/-! ## A port out of use stays so while others are cut -/

theorem ConnState.out.ne {c d : ConnState} (h : c.out) (hd : d ≠ .disabled) (hf : d ≠ .fault) (hg : d ≠ .guardOff) : c ≠ d := by
  rintro rfl
  rcases h with h | h | h
  · exact hd h
  · exact hf h
  · exact hg h

theorem Tc.isSrc_of_out {x : Tc} (h : x.st.out) : x.isSrc = false := decide_eq_false (h.ne (by decide) (by decide) (by decide))
theorem Tc.isSnk_of_out {x : Tc} (h : x.st.out) : x.isSnk = false := decide_eq_false (h.ne (by decide) (by decide) (by decide))
theorem Tc.attached_of_out {x : Tc} (h : x.st.out) : x.attached = false := by simp [Tc.attached, Tc.isSrc_of_out h, Tc.isSnk_of_out h]

/-- A sibling out of use has nothing to resume when its twin leaves. -/
theorem State.twinFreed_sib_tc (ho : (s.port (sibOf p)).tc.st.out) : ((s.twinFreed p).port (sibOf p)).tc = (s.port (sibOf p)).tc := by
  unfold State.twinFreed
  split
  · extract_lets q s₁ s₂ y s₃
    have h₁ : (s₁.port q).tc = (s.port q).tc := by rw [show s₁.port q = _ from s.onPort_port_self q _]
    have ho₁ : (s₁.port q).tc.st.out := by rw [h₁]; exact ho
    have hs := Tc.isSrc_of_out ho₁
    have hw := ho₁.ne (d := .attwaitSrc) (by decide) (by decide) (by decide)
    have h₂ : s₂ = s₁ := by simp [s₂, State.twinStart, hs, hw]
    have hr : s₂.twinRetry q = s₁ := by
      have hk := ho₁.ne (d := .attwaitSnk) (by decide) (by decide) (by decide)
      rw [h₂]
      unfold State.twinRetry
      dsimp only
      split
      · rfl
      split
      next h => exact absurd h hw
      next h => exact absurd h hk
      next => rfl
    rw [if_neg (by simp [y, h₂, hs]), if_neg (by simp [y, h₂, Tc.isSnk_of_out ho₁]), hr, h₁]
  · rfl

/-- A port that is neither the twin nor its sibling sees nothing of it. -/
theorem State.twinFreed_viewOf_ne (hn : (s.port q).tc.isSrc = false) (hq : sibOf p ≠ q) : (s.twinFreed p).viewOf q = s.viewOf q := by
  unfold State.twinFreed
  split
  · extract_lets r s₁ s₂ y s₃
    have h₂ : s₂.viewOf q = s.viewOf q := (State.twinStart_viewOf hq).trans (State.onPort_viewOf_ne hq _)
    have h₃ : s₃.viewOf q = s.viewOf q := by
      refine Eq.trans ?_ h₂
      unfold s₃
      split
      · rfl
      · exact State.slcCmd_viewOf hq _
    have hret := (State.twinRetry_viewOf (State.isSrc_of_viewOf h₂ hn) hq).trans h₂
    rw [State.ite_viewOf, State.ite_viewOf, State.ite_viewOf, (State.offerDue_viewOf hq).trans h₂, (State.evaluate_viewOf hq).trans h₃, h₃,
      hret, ite_self, ite_self, ite_self]
  · rfl

/-- The cut of another port leaves a port out of use as it was connected. -/
theorem State.guardCut_tc_of_out (hne : q ≠ p) (ho : (s.port q).tc.st.out) : ((s.guardCut p).port q).tc = (s.port q).tc := by
  have hg : (s.guardOff p).viewOf q = s.viewOf q := by
    unfold State.guardOff
    split
    · rfl
    · rfl
    · rfl
    · exact State.leave_viewOf hne.symm _
  have hs := State.isSrc_of_viewOf hg (Tc.isSrc_of_out ho)
  have hl : (s.ledgerOf p fun s => s.guardOff p).viewOf q = s.viewOf q := (State.ledgerOf_viewOf (f := fun s => s.guardOff p) hs).trans hg
  have htc := State.tc_of_viewOf hl
  unfold State.guardCut
  by_cases hsib : sibOf p = q
  · subst hsib
    rw [State.twinFreed_sib_tc (by rw [htc]; exact ho), htc]
  · exact (State.tc_of_viewOf (State.twinFreed_viewOf_ne (State.isSrc_of_viewOf hl (Tc.isSrc_of_out ho)) hsib)).trans htc

/-! ## The die cut (R123, R125) -/

/-- What the die cut does before the port goes to GUARD_OFF touches its guard's record alone. -/
theorem State.dieHotOn_eq (s : State) (p : Port) : ∃ F, s.dieHotOn p = (s.onGrd p F).guardCut p := by
  unfold State.dieHotOn
  split
  · have hid : s.onGrd p id = s := State.onPort_of_eq rfl
    exact ⟨id, by rw [hid]⟩
  · exact ⟨_, by rw [State.grdEvt_eq, State.onGrd_onGrd]⟩

theorem State.dieHotOn_grdG (s : State) (p : Port) : (s.dieHotOn p).grd = s.grd := by
  obtain ⟨F, h⟩ := s.dieHotOn_eq p
  rw [h, State.guardCut_grdG]
  rfl

theorem State.dieHotOn_out (s : State) (p : Port) : ((s.dieHotOn p).port p).tc.st.out := by
  obtain ⟨F, h⟩ := s.dieHotOn_eq p
  rw [h]
  exact State.guardCut_out _ p

theorem State.dieHotOn_keeps_out (p : Port) (h : (s.port q).tc.st.out) : ((s.dieHotOn p).port q).tc.st.out := by
  by_cases hq : q = p
  · exact hq ▸ s.dieHotOn_out p
  · obtain ⟨F, he⟩ := s.dieHotOn_eq p
    have ho : (s.onGrd p F).port q = s.port q := s.onPort_port_ne p q _ hq
    rw [he, State.guardCut_tc_of_out hq (by rw [ho]; exact h), ho]
    exact h

/-- Every port that the die cut reaches is out of use, whatever it set off on the others. -/
theorem State.forPorts_dieHotOn (s : State) {l : List Port} :
    (s.forPorts l State.dieHotOn).grd = s.grd ∧ ∀ q ∈ l, ((s.forPorts l State.dieHotOn).port q).tc.st.out := by
  refine ⟨State.forPorts_induct (R := fun s t => t.grd = s.grd) (fun _ => rfl) (fun h k => k.trans h) State.dieHotOn_grdG s l,
    fun q hq => ?_⟩
  obtain ⟨l₁, l₂, -, h⟩ := State.forPorts_at (f := State.dieHotOn) hq s
  rw [h]
  exact State.forPorts_induct (R := fun s t => (s.port q).tc.st.out → (t.port q).tc.st.out) (fun _ => id) (fun h k => k ∘ h)
    (fun s p => State.dieHotOn_keeps_out p) _ l₂ (State.dieHotOn_out _ q)

/-- A report at or above DIE_CUT ends every attachment on the die. -/
theorem dieTempReport_cut {d : Die} {k : Fin 8} {temp : Int} (hr : s.running = true) (ht : 10 * (s.alm.cfg.dieCut : Int) ≤ temp)
    (hc : s.grd.dies[Die.idx d].cut = false) :
    ∃ t, exec (.dieTempReport d k temp) s = .next t ∧ t.grd.dies[Die.idx d].cut = true ∧
      t.grd.dies[Die.idx d].temp = temp ∧ t.grd.cutCnt = satInc s.grd.cutCnt ∧
      ∀ q, dieHits d q = true → (s.port q).live = true → s.lost q = false → (t.port q).tc.attached = false := by
  have he : exec (.dieTempReport d k temp) s = execDieTempReport d k temp s := rfl
  unfold execDieTempReport at he
  rw [if_neg (by simp [hr])] at he
  extract_lets i c o der cut back n g s₁ s₂ at he
  have hcut : cut = true := decide_eq_true ht
  have ho : o.cut = false := hc
  rw [if_pos (by simp [hcut, ho])] at he
  have hn : n.cut = true ∧ n.temp = temp := ⟨by simp [n, hcut], rfl⟩
  have h₁ : s₁.grd.dies[Die.idx d] = n ∧ s₁.grd.cutCnt = satInc s.grd.cutCnt :=
    ⟨Vector.getElem_set_self .., if_pos (by simp [hcut, ho])⟩
  have h₂ : s₂ = s₁.note 51 none 3 (.dieTemp d) := if_pos (by simp [hcut, ho])
  have hg₂ : s₂.grd = s₁.grd := by rw [h₂]; rfl
  have hp₂ (q : Port) : s₂.port q = s.port q ∧ s₂.lost q = s.lost q := by rw [h₂]; exact ⟨rfl, rfl⟩
  clear_value s₁ s₂ n
  obtain ⟨hg, hout⟩ := s₂.forPorts_dieHotOn (l := allPorts.filter fun p => dieHits d p && (s₂.port p).live && !s₂.lost p)
  obtain ⟨hd, hcnt⟩ := h₁
  rw [← hg₂, ← hg] at hd hcnt
  refine ⟨_, he, by rw [hd, hn.1], by rw [hd, hn.2], hcnt, fun q hq hl hlost => Tc.attached_of_out (hout q ?_)⟩
  exact List.mem_filter.2 ⟨mem_allPorts q, by simp [hp₂, hq, hl, hlost]⟩

/-! ## The ends of the cuts (R125, R126, R128) -/

/-- The end of a connector cut, where no other guard condition holds, frees the port. -/
theorem cutClear_connector (hh : (s.port p).grd.hot = true) (hf : (s.port p).grd.ntcf = false) (hb : (s.port p).grd.hotBelow ≠ none)
    (hst : (s.port p).tc.st = .guardOff) (hw : (s.port p).grd.wet = false) (hfl : (s.port p).grd.flood = false)
    (hd : (s.port p).grd.dieHot = false) (hz : (s.port p).grd.zeroF = false) (hn : (s.port p).grd.fNtc ≠ 0) (hi : s.fDie p ≠ 0) :
    ∃ t, exec (.cutClear (.connector p)) s = .next t ∧ s.onlyPortYard p t ∧ (t.port p).grd.hot = false ∧
      (t.port p).tc.st = unattOf (s.port p).cfg.role := by
  let u := (s.onGrd p fun g => { g with hot := false, hotBelow := none }).guardPost p false
  have he : exec (.cutClear (.connector p)) s = .next ((u.judgeZero p).guardFree p) := by
    show execCutClear (.connector p) s = _
    unfold execCutClear
    dsimp only
    rw [if_pos (by simp [hh, hf, Option.isSome_iff_ne_none.2 hb])]
  have hu : u.port p = { s.port p with
      grd := { (s.port p).grd with hot := false, hotBelow := none, notice := (s.port p).grd.notice || false } } := by
    rw [show u.port p = _ from State.guardPost_port _ p false, State.onGrd_port]
  have hy : s.onlyPortYard p u := (s.onGrd_only p _).1.trans (State.guardPost_onlyYard _ p false)
  have hfac : u.factor p ≠ 0 := by
    have hx : (u.port p).fNtcNow ≠ 0 := by
      rw [hu]
      simp only [PortState.fNtcNow, hf]
      split
      · decide
      · exact hn
    have hi' : u.fDie p ≠ 0 := hi
    simp only [State.factor]
    omega
  have hfree : u.guardFree p = u.toUnatt p := if_pos ⟨by rw [hu, hst], by rw [hu]; simp [GrdP.off, hw, hfl, hd, hz]⟩
  rw [State.judgeZero_of_pos hfac (by rw [hu]; exact hz), hfree] at he
  refine ⟨_, he, hy.trans (u.toUnatt_only p), by rw [State.toUnatt_grd, hu], ?_⟩
  rw [State.toUnatt_st, hu]
  simp [GrdP.off, hw, hfl, hd, hz]

/-- The end of a die cut at a port: DIEHOT as the dies now stand, F at 0 judged anew, and the way out of GUARD_OFF. -/
def State.dieFreedOn (s : State) (p : Port) : State :=
  let s := s.onGrd p fun g => { g with dieHot := s.dieCut p }
  (if s.works p && !(s.port p).quiet then s.judgeZero p else s).guardFree p

theorem State.dieFreedOn_kept (s : State) (p : Port) : s.Same (s.dieFreedOn p) := by
  unfold State.dieFreedOn
  extract_lets u
  have hu : s.Same u := s.onGrd_kept p _
  refine hu.trans (State.Same.trans ?_ (State.guardFree_kept _ p))
  split
  · exact u.judgeZero_kept p
  · exact u.onGrd_kept p id

theorem State.dieFreedOn_grdG (s : State) (p : Port) : (s.dieFreedOn p).grd = s.grd := by
  unfold State.dieFreedOn
  extract_lets u
  have h (t : State) : (t.guardFree p).grd = t.grd := (t.guardFree_onlyYard p).grdG
  rw [h]
  split
  · exact u.judgeZero_grdG p
  · rfl

theorem cutClear_die {d : Die} (hc : s.grd.dies[Die.idx d].cut = true) (hb : s.grd.dies[Die.idx d].below ≠ none) :
    ∃ t, exec (.cutClear (.die d)) s = .next t ∧ t.grd.dies[Die.idx d].cut = false ∧ t.grd.dies[Die.idx d].below = none ∧
      s.memKept t := by
  let n : DieTemp := { s.grd.dies[Die.idx d] with cut := false, below := none }
  let u : State := { s with grd := { s.grd with dies := s.grd.dies.set (Die.idx d) n } }.note 51 none 3 (.dieTemp d)
  have he : exec (.cutClear (.die d)) s = .next (u.forPorts (allPorts.filter fun p => dieHits d p) State.dieFreedOn) := by
    show execCutClear (.die d) s = _
    unfold execCutClear
    dsimp only
    exact if_pos (Bool.and_eq_true_iff.2 ⟨hc, Option.isSome_iff_ne_none.2 hb⟩)
  have hg : (u.forPorts (allPorts.filter fun p => dieHits d p) State.dieFreedOn).grd = u.grd :=
    State.forPorts_induct (R := fun s t => t.grd = s.grd) (fun _ => rfl) (fun h k => k.trans h) State.dieFreedOn_grdG u _
  have hu : u.grd.dies[Die.idx d] = n := Vector.getElem_set_self ..
  have hk : s.Same u := ⟨rfl, rfl, rfl, rfl, rfl, rfl, rfl⟩
  exact ⟨_, he, by rw [hg, hu], by rw [hg, hu], (hk.trans (u.forPorts_kept _ _ State.dieFreedOn_kept)).memKept⟩

end Sys2Proof.Machine
end

section
/-! SUPPORT. A notice of the guard that a hand takes (R117, R124, R174), and the obligation on the guard. -/

namespace Sys2Proof.Machine

variable {s t u : State} {p q : Port} {h : Hand}

/-- An offer puts the source in SEND_CAPS. -/
theorem State.offerTry_src (s : State) (p : Port) (n : Nat) : ((s.offerTry p n).port p).pd.src = .sendCaps := by
  have hsend (s : State) (k : TxKind) (m : PdMsg) : ((s.send p .sop k m).port p).pd = (s.port p).pd := by
    unfold State.send
    split
    · rfl
    · rw [State.onPort_port_self]
  unfold State.offerTry
  extract_lets s₁ o x s₂ s₃ s₄ c
  have h₂ : (s₂.port p).pd.src = .sendCaps := by
    unfold s₂
    rw [State.onPort_port_self]
  have h₃ : (s₃.port p).pd.src = .sendCaps := by
    unfold s₃
    rw [State.disarm_port, State.arm_port]
    exact h₂
  have h₄ : (s₄.port p).pd.src = .sendCaps := by
    unfold s₄
    split
    · rw [State.arm_port]
      exact h₃
    · exact h₃
  split <;> rw [hsend, h₄]

/-- Outside READY an Operating Condition Change waits: of the policy machine nothing but what waits changes. -/
theorem State.alertTemp_waits (b : Bool) (h : (s.port p).alertReady = false) :
    s.dealKept p (s.alertTemp p b) ∧ ((s.alertTemp p b).port p).pd.src = (s.port p).pd.src := by
  unfold State.alertTemp
  extract_lets d
  split
  · exact ⟨s.dealKept_refl p, rfl⟩
  split
  · exact ⟨s.onPd_dealKept p, by rw [State.onPd_port]⟩
  · let v := s.onPd p fun d => { d with otpLast := b, alerts := d.alerts ++ [.operatingCondition] }
    have hv : v.port p = _ := s.onPd_port p _
    have ht : v.alertTry p = v := by
      have ha : (v.port p).alertReady = false := by rw [hv]; exact h
      simp [State.alertTry, ha]
    show s.dealKept p (v.alertTry p) ∧ ((v.alertTry p).port p).pd.src = (s.port p).pd.src
    rw [ht]
    exact ⟨s.onPd_dealKept p, by rw [hv]⟩

/-- What a hand does with a notice of the guard. -/
def State.guardTold (s : State) (p : Port) : State :=
  let due := (s.port p).grd.notice
  let s := s.onGrd p fun g => { g with notice := false }
  if !s.bmcRuns p then s else
  let s :=
    if !due then s
    else if (s.port p).tc.isSrc then s.offerDue p
    else if (s.port p).pd.snk = .ready then s.evaluate p
    else s.onPort p fun x => { x with pd := { x.pd with sinkDue := true } }
  s.alertTemp p (decide (s.factor p < 100))

/-- A source in READY offers, and an Alert that is due waits for the new contract. -/
theorem State.guardTold_offers (hb : s.bmcRuns p = true) (hn : (s.port p).grd.notice = true) (hsrc : (s.port p).tc.isSrc = true)
    (hr : (s.port p).pd.src = .ready) :
    ((s.guardTold p).port p).pd.src = .sendCaps ∧ ((s.guardTold p).port p).grd.notice = false ∧ s.othersKept p (s.guardTold p) := by
  let u := s.onGrd p fun g => { g with notice := false }
  have hu : u.port p = { s.port p with grd := { (s.port p).grd with notice := false } } := s.onGrd_port p _
  have hbu : u.bmcRuns p = true := by
    rw [← hb]
    simp only [State.bmcRuns, State.works, hu]
    rfl
  have ho : u.offerDue p = u.offerTry p 1 := by
    rw [State.offerDue, hu]
    simp only [hsrc, hr]
    rfl
  have he : s.guardTold p = (u.offerTry p 1).alertTemp p (decide ((u.offerTry p 1).factor p < 100)) := by
    unfold State.guardTold
    extract_lets due w
    have hw : w = u.offerTry p 1 := by
      unfold w
      rw [if_neg (by simp [due, hn]), if_pos (by rw [hu]; exact hsrc), ← ho]
    rw [if_neg (by rw [hbu]; decide), hw]
  have hk := u.offerTry_dealKept p 1
  have hs := u.offerTry_src p 1
  have htc : ((u.offerTry p 1).port p).tc = (s.port p).tc := by rw [hk.tc, hu]
  have hg : ((u.offerTry p 1).port p).grd.notice = false := by rw [hk.grd, hu]
  have hy := (s.onGrd_only p fun g => { g with notice := false }).1.trans hk.1
  rw [he]
  clear_value u
  generalize u.offerTry p 1 = v at *
  have hsnk : (v.port p).tc.isSnk = false := by
    rw [htc]
    simp_all [Tc.isSrc, Tc.isSnk]
  obtain ⟨hd, hsd⟩ := State.alertTemp_waits (s := v) (p := p) (decide (v.factor p < 100)) (by simp [PortState.alertReady, hs, hsnk])
  exact ⟨hsd.trans hs, by rw [hd.grd, hg], (hy.trans hd.1).1⟩

/-- A notice of the guard makes a source in READY offer. -/
theorem guardNotice_offers (hon : s.handOn h p .guard) (hn : (s.port p).grd.notice = true) (hsrc : (s.port p).tc.isSrc = true)
    (hr : (s.port p).pd.src = .ready) :
    ∃ t, exec (.guardNotice h p) s = .next t ∧ (t.port p).pd.src = .sendCaps ∧ (t.port p).grd.notice = false ∧ s.othersKept p t := by
  obtain ⟨y, d, -, he⟩ := hon.handStep (fun r he hd => by simp [YardRec.silent, he, hd]) (e := fun e => decide (e = .guard)) rfl
    fun _ s => s.guardTold p
  let u : State := { s with hnd := y, draws := d }
  obtain ⟨h₁, h₂, h₃⟩ := State.guardTold_offers (s := u) (p := p) hon.1 hn hsrc hr
  rw [show ({ s with hnd := y, draws := d } : State) = u from rfl] at he
  generalize u.guardTold p = v at *
  exact ⟨_, he, h₁, h₂, h₃⟩

/-- Settles O34: one theorem for each reading, each cut and the notice. -/
theorem guardReadingsAndCuts : Obligations.GuardReadingsAndCuts := by
  unfold Obligations.GuardReadingsAndCuts
  refine ⟨fun s p z ohm hw hq => ⟨dowserFrame_impedance hw hq, ntcMeasure_outOfBounds hw hq, ntcMeasure_first hw hq⟩,
    fun s p d h temp k => ⟨thermalEvaluation_cut, fun hw hq hat hn hf hh hd hz => thermalEvaluation_zero hw hq hat hn hf hh hd hz,
      dieTempReport_cut, cutClear_connector, cutClear_die, guardNotice_offers⟩⟩

end Sys2Proof.Machine
end

section
/-! SUPPORT. What a hand's step finds of its port: its policy machines as they were, beside the VDM machine, the messages and the timers
(R132, R133, R135, R179). -/

namespace Sys2Proof.Machine

variable {s t u : State} {p q : Port} {h : Hand}

/-! ## A port but for its exchanges -/

/-- A port but for its VDM machine, its messages and its timers. -/
def PortState.policy (x : PortState) : PortState :=
  { x with vdm := VdmP.reset, prot := Prot.reset, pd := { x.pd with live := [] } }

theorem PortState.eq_of_policy {x y : PortState} (h : x.policy = y.policy) :
    ∃ v r l, x = { y with vdm := v, prot := r, pd := { y.pd with live := l } } := by
  refine ⟨x.vdm, x.prot, x.pd.live, ?_⟩
  have e : x = { x.policy with vdm := x.vdm, prot := x.prot, pd := { x.policy.pd with live := x.pd.live } } := rfl
  rw [e, h]
  rfl

/-- Nothing but port p and the yard has changed, and of the port its VDM machine, its messages and its timers alone. -/
def State.policyKept (s : State) (p : Port) (t : State) : Prop := s.onlyPortYard p t ∧ (t.port p).policy = (s.port p).policy

theorem State.policyKept_refl (s : State) (p : Port) : s.policyKept p s := ⟨s.onlyPortYard_refl p, rfl⟩

theorem State.policyKept.trans (h : s.policyKept p t) (k : t.policyKept p u) : s.policyKept p u := ⟨h.1.trans k.1, k.2.trans h.2⟩

theorem State.policyKept_ite {c : Prop} [Decidable c] (h : s.policyKept p t) (k : s.policyKept p u) :
    s.policyKept p (if c then t else u) := by
  split <;> assumption

theorem State.foldl_policyKept {α : Type} {f : State → α → State} (hf : ∀ (s : State) (a : α), s.policyKept p (f s a)) (l : List α)
    (s : State) : s.policyKept p (l.foldl f s) := by
  induction l generalizing s with
  | nil => exact s.policyKept_refl p
  | cons a l ih => exact (hf s a).trans (ih (f s a))

theorem State.onPort_policyKept (s : State) (p : Port) {f : PortState → PortState} (hf : (f (s.port p)).policy = (s.port p).policy) :
    s.policyKept p (s.onPort p f) :=
  ⟨s.onPort_onlyYard p f, by rw [State.onPort_port_self, hf]⟩

section
variable (k : s.policyKept p t)
include k

theorem State.policyKept.port : ∃ v r l, t.port p = { s.port p with vdm := v, prot := r, pd := { (s.port p).pd with live := l } } :=
  PortState.eq_of_policy k.2

theorem State.policyKept.dealKept : s.dealKept p t := by
  have e := congrArg PortState.deal k.2
  exact ⟨k.1, e⟩

theorem State.policyKept.othersKept : s.othersKept p t := k.1.1

theorem State.policyKept.policyAt (q : Port) : (t.port q).policy = (s.port q).policy := by
  by_cases hq : q = p
  · rw [hq, k.2]
  · rw [k.1.1 q hq]

end

/-! ## Timers and messages -/

theorem State.arm_policyKept (s : State) (p : Port) (i : TimerId) : s.policyKept p (s.arm p i) :=
  ⟨s.arm_onlyYard p i, by rw [State.arm_port]; rfl⟩
theorem State.disarm_policyKept (s : State) (p : Port) (i : TimerId) : s.policyKept p (s.disarm p i) :=
  ⟨s.disarm_onlyYard p i, by rw [State.disarm_port]; rfl⟩
theorem State.disarms_policyKept (s : State) (p : Port) (l : List TimerId) :
    s.policyKept p (l.foldl (fun s i => s.disarm p i) s) :=
  State.foldl_policyKept (fun s i => s.disarm_policyKept p i) l s
theorem State.send_policyKept (s : State) (p : Port) (k : Sop) (n : TxKind) (m : PdMsg) : s.policyKept p (s.send p k n m) :=
  State.policyKept_ite (s.policyKept_refl p) (s.onPort_policyKept p rfl)
theorem State.onVdm_policyKept (s : State) (p : Port) (f : VdmP → VdmP) : s.policyKept p (s.onVdm p f) := s.onPort_policyKept p rfl
theorem State.vdmEvt_policyKept (s : State) (p : Port) (i : Nat) : s.policyKept p (s.vdmEvt p i) := s.onPort_policyKept p rfl
theorem State.vdmCnt_policyKept (s : State) (p : Port) (i : Fin 7) : s.policyKept p (s.vdmCnt p i) := s.onPort_policyKept p rfl

/-- A VDM exchange that gives way leaves the policy machines alone. -/
theorem State.vdmInterrupt_policyKept (s : State) (p : Port) : s.policyKept p (s.vdmInterrupt p) := by
  unfold State.vdmInterrupt
  extract_lets m s₁ s₂
  have h₁ : s.policyKept p s₁ :=
    State.policyKept_ite ((s.disarms_policyKept p _).trans (State.onPort_policyKept _ p rfl)) (s.policyKept_refl p)
  have h₂ : s₁.policyKept p s₂ :=
    State.policyKept_ite ((s₁.disarms_policyKept p _).trans (State.onPort_policyKept _ p rfl)) (s₁.policyKept_refl p)
  exact State.policyKept_ite (h₁.trans <| h₂.trans <| (s₂.vdmEvt_policyKept p 7).trans (State.vdmCnt_policyKept _ p 4))
    (s.policyKept_refl p)

/-! ## The step on a message (R133, R135) -/

/-- A hand's command on the oldest message of a port, of its own row, runs its step, before which a VDM exchange gives way to a message on
SOP that is no VDM. -/
theorem State.msgOn.step {m : RxMsg} (hon : s.msgOn h p m) {c : Instr} {row : MsgRow} {f : RxMsg → State → State}
    (hc : exec c s = s.onMsg h p row f) (hr : rowOf m = row) :
    ∃ u, s.policyKept p u ∧
      (m.isOther = false → (u.port p).vdm = (s.port p).vdm ∧ ∃ l, (u.port p).prot = { (s.port p).prot with rx := l }) ∧
      exec c s = .next (f m u).endStep := by
  obtain ⟨⟨hb, hst, hch⟩, hrx, hsrc⟩ := hon
  have hrun : s.running = true := State.handOn.running ⟨hb, hst, hch⟩
  obtain ⟨l, hl⟩ : ∃ l, (s.port p).prot.rx = m :: l := by
    cases e : (s.port p).prot.rx with
    | nil => simp [e] at hrx
    | cons a l => exact ⟨l, by simpa [e] using hrx⟩
  obtain ⟨r, hr', hrc⟩ := Option.map_eq_some_iff.1 hch
  obtain ⟨hp, hev, hd⟩ : r.port = some p ∧ r.ev = .msg ∧ r.dead = false := by simpa using hrc
  have hsil : r.silent = false := by simp [YardRec.silent, hev, hd]
  let v := (s.beginStep h r).onPort p fun x => { x with prot.rx := l }
  have hv : v.port p = { s.port p with prot.rx := l } := State.onPort_port_self ..
  have hvk : s.policyKept p v := ⟨⟨fun q hq => State.onPort_port_ne _ _ _ _ hq, s.globalsKept_refl⟩, by rw [hv]; rfl⟩
  have hbv : v.bmcRuns p = true := by
    rw [← hb]
    simp only [State.bmcRuns, State.works, hv]
    rfl
  have htake : s.takeMsg h p (fun m => decide (rowOf m = row)) = some (m, v) := by
    simp only [State.takeMsg, hl, hr, decide_true, if_true, State.take, State.skipSilent_of_choose hr' hsil, hr', hp, hev, hsil]
    rfl
  let u := (if m.isOther then v.vdmInterrupt p else v).disarm p .receiverResponse
  refine ⟨u, hvk.trans ((State.policyKept_ite (v.vdmInterrupt_policyKept p) (v.policyKept_refl p)).trans
    (State.disarm_policyKept _ p _)), fun hm => ?_, ?_⟩
  · have hu : u.port p = _ := State.disarm_port _ p _
    rw [hu, if_neg (by simp [hm]), hv]
    exact ⟨rfl, l, rfl⟩
  · rw [hc, State.onMsg, hrun, htake]
    have hw : (v.port p).pd.src ≠ .typecOnly := by rw [hv]; exact hsrc
    simp [hbv, hw]
    rfl

/-! ## The step on a timer (R132) -/

/-- A hand's command on the expiry of a timer that is the context's runs its step. -/
theorem State.timerOn.timerStep {i : TimerId} (hon : s.timerOn h p i) (hb : timerBound i = false) {c : Instr} {f : State → State}
    (hc : exec c s = s.timerStep h p i f) :
    ∃ u, s.policyKept p u ∧ (u.port p).vdm = (s.port p).vdm ∧ exec c s = .next (f u).endStep := by
  obtain ⟨e, he, rfl, hon⟩ := hon
  obtain ⟨y, d, -, hx⟩ := hon.handStep (fun r hr hd => by simp [YardRec.silent, hr, hd, hb])
    (e := fun e' => match e' with | .timer u _ => decide (u = e.1) | _ => false) (by simp) (fun c s =>
    match c with
    | .timer t tag =>
      if (s.port p).pd.live.contains (t, tag) then
        f (s.onPort p fun x => { x with pd := { x.pd with live := x.pd.live.filter fun e => e.1 ≠ t } })
      else s
    | _ => s)
  let v : State := { s with hnd := y, draws := d }
  let u := v.onPort p fun x => { x with pd := { x.pd with live := x.pd.live.filter fun e' => e'.1 ≠ e.1 } }
  have hu : u.port p = { s.port p with pd := { (s.port p).pd with live := (s.port p).pd.live.filter fun e' => e'.1 ≠ e.1 } } :=
    State.onPort_port_self ..
  refine ⟨u, ⟨v.onPort_onlyYard p _, by rw [hu]; rfl⟩, by rw [hu], hc.trans (hx.trans ?_)⟩
  have hin : (s.port p).pd.live.contains (e.1, e.2) = true := by simpa using he
  exact congrArg (fun t : State => (.next t.endStep : Res State)) (if_pos hin)

theorem State.policyKept.bmcRuns (hk : s.policyKept p t) : t.bmcRuns p = s.bmcRuns p := by
  obtain ⟨v, r, l, hp⟩ := hk.port
  obtain ⟨⟨-, hd, hc, -⟩, -⟩ := hk
  simp only [State.bmcRuns, State.works, State.running, State.lost, State.d2, hd, hc, hp]

/-- The same of a timer of the policy machines. -/
theorem State.timerOn.step {i : TimerId} (hon : s.timerOn h p i) (hb : timerBound i = false) {c : Instr} {f : State → State}
    (hc : exec c s = s.onTimer h p i f) :
    ∃ u, s.policyKept p u ∧ (u.port p).vdm = (s.port p).vdm ∧ exec c s = .next (f u).endStep := by
  obtain ⟨u, hk, hv, he⟩ := hon.timerStep hb hc
  obtain ⟨e, -, -, hb, -⟩ := hon
  exact ⟨u, hk, hv, by rw [he, hk.bmcRuns, hb, if_pos rfl]⟩

end Sys2Proof.Machine
end

section
/-! SUPPORT. What an offer, a sink's request and an Alert rest on, and what they leave of the port (R142, R154, R165, R174, R179). -/

namespace Sys2Proof.Machine

variable {s t u : State} {p q : Port}

/-! ## What is computed from the policy machines -/

theorem PortState.cnt_of_policy {x y : PortState} (h : x.policy = y.policy) : x.pd.cnt = y.pd.cnt := congrArg (·.pd.cnt) h

/-- What a sink's choice reads of its own port (R154, R172). -/
def PortState.bids (x : PortState) : PortCfg × GrdP × Option Contract × List Pdo := (x.cfg, x.grd, x.pd.contract, x.pd.srcCaps)

theorem State.pAllow_congr (hy : s.onlyPortYard p t) (hc : (t.port p).cfg = (s.port p).cfg) (hg : (t.port p).grd = (s.port p).grd) :
    t.pAllow p = s.pAllow p := by
  obtain ⟨-, hy⟩ := hy
  have hf : t.factor p = s.factor p := State.factor_congr hy (by simp only [PortState.fNtcNow, hc, hg])
  obtain ⟨-, -, ha, -⟩ := hy
  simp only [State.pAllow, hf, ha, hc]

theorem State.sibAttached_congr (hy : s.onlyPortYard p t) (hc : (t.port p).cfg = (s.port p).cfg) :
    t.sibAttached p = s.sibAttached p := by
  simp only [State.sibAttached, hc, hy.1 _ (sibOf_ne p)]

/-- The sink's choice rests on its own bids and on what lies outside its port. -/
theorem State.choose_congr (hy : s.onlyPortYard p t) (h : (t.port p).bids = (s.port p).bids) : t.choose p = s.choose p := by
  obtain ⟨hc, hg, hk, hl⟩ : (t.port p).cfg = (s.port p).cfg ∧ (t.port p).grd = (s.port p).grd ∧
      (t.port p).pd.contract = (s.port p).pd.contract ∧ (t.port p).pd.srcCaps = (s.port p).pd.srcCaps := by
    simpa only [PortState.bids, Prod.mk.injEq] using h
  simp only [State.choose, State.sinkWants, State.stageApart, hc, hg, hk, hl, hy.1 _ (sibOf_ne p), State.pAllow_congr hy hc hg,
    State.sibAttached_congr hy hc]
  rfl

section
variable (k : s.policyKept p t)
include k

theorem State.policyKept.dev : t.dev = s.dev := k.1.2.1
theorem State.policyKept.alm : t.alm = s.alm := by
  obtain ⟨⟨-, -, -, ha, -⟩, -⟩ := k
  exact ha
theorem State.policyKept.cfg : (t.port p).cfg = (s.port p).cfg := congrArg (·.cfg) k.2
theorem State.policyKept.tc : (t.port p).tc = (s.port p).tc := congrArg (·.tc) k.2
theorem State.policyKept.grd : (t.port p).grd = (s.port p).grd := congrArg (·.grd) k.2
theorem State.policyKept.works : t.works p = s.works p := by
  obtain ⟨v, r, l, hp⟩ := k.port
  obtain ⟨⟨-, hd, hc, -⟩, -⟩ := k
  simp only [State.works, State.running, State.lost, State.d2, hd, hc, hp]
theorem State.policyKept.sibAttached : t.sibAttached p = s.sibAttached p := State.sibAttached_congr k.1 k.cfg
theorem State.policyKept.pAllow : t.pAllow p = s.pAllow p := State.pAllow_congr k.1 k.cfg k.grd
theorem State.policyKept.stageOf : t.stageOf p = s.stageOf p := State.stageOf_congr k.cfg
theorem State.policyKept.factor : t.factor p = s.factor p :=
  State.factor_congr k.1.2 (by simp only [PortState.fNtcNow, k.cfg, k.grd])
theorem State.policyKept.stg (q : Port) : (t.port q).stg = (s.port q).stg := congrArg (·.stg) (k.policyAt q)
theorem State.policyKept.ccLoop : t.ccLoop p = s.ccLoop p := by
  have hl (q : Port) : (t.port q).loop = (s.port q).loop := congrArg (·.loop) (k.policyAt q)
  simp only [State.ccLoop, k.stageOf, hl]
theorem State.policyKept.choose : t.choose p = s.choose p := by
  have hb := congrArg PortState.bids k.2
  exact State.choose_congr k.1 hb
theorem State.policyKept.wantsEpr : t.wantsEpr p = s.wantsEpr p := by
  obtain ⟨v, r, l, hp⟩ := k.port
  simp only [State.wantsEpr, k.sibAttached, k.alm, hp]

theorem State.policyKept.cableNow : t.cableNow p = s.cableNow p := by
  obtain ⟨v, r, l, hp⟩ := k.port
  have hv : t.vconnOk p = s.vconnOk p := by simp only [State.vconnOk, k.dev]
  simp only [State.cableNow, hv, hp]

theorem State.policyKept.offerEnv : t.offerEnv p = s.offerEnv p := by
  obtain ⟨v, r, l, hp⟩ := k.port
  simp only [State.offerEnv, k.dealKept.free, k.pAllow, k.cableNow, k.sibAttached, k.stageOf, k.stg, k.alm,
    k.othersKept _ (sibOf_ne p), hp]

theorem State.policyKept.eprOffered : t.eprOffered p = s.eprOffered p := by simp only [State.eprOffered, k.offerEnv, k.cfg]
theorem State.policyKept.eprClass : t.eprClass p = s.eprClass p := by simp only [State.eprClass, k.cfg, k.alm]

theorem State.policyKept.buildOffer : t.buildOffer p = s.buildOffer p := by
  obtain ⟨v, r, l, hp⟩ := k.port
  simp only [State.buildOffer, State.pAllowUw, k.offerEnv, k.factor, k.alm, hp]

theorem State.policyKept.capsMsg (o : Offer) : t.capsMsg p o = s.capsMsg p o := by
  simp only [State.capsMsg, k.dealKept.cis, k.cfg, k.eprClass, k.cableNow]

theorem State.policyKept.statusOf : t.statusOf p = s.statusOf p := by
  obtain ⟨v, r, l, hp⟩ := k.port
  have hc := k.ccLoop
  have hf := k.factor
  obtain ⟨⟨-, -, hclk, -, hsup, -, -, -, -, -, hg, -⟩, -⟩ := k
  simp only [State.statusOf, State.supSeen, State.heard, hc, hf, hclk, hsup, hg, hp]

end

/-! ## Messages that wait -/

/-- Every message that waits on port p waits on, but for those of a VDM exchange. -/
def State.queueKept (s : State) (p : Port) (t : State) : Prop :=
  ∀ m ∈ (s.port p).prot.txq, m.kind ≠ .vdm → m.kind ≠ .cable → m ∈ (t.port p).prot.txq

theorem State.queueKept.trans (h : s.queueKept p t) (k : t.queueKept p u) : s.queueKept p u :=
  fun m hm hv hc => k m (h m hm hv hc) hv hc

theorem State.queueKept_of_prot (h : (t.port p).prot = (s.port p).prot) : s.queueKept p t := fun m hm _ _ => by rwa [h]

theorem State.queueKept_ite {c : Prop} [Decidable c] (h : s.queueKept p t) (k : s.queueKept p u) : s.queueKept p (if c then t else u) := by
  split <;> assumption

theorem State.onPd_queueKept (s : State) (p : Port) (f : Pd → Pd) : s.queueKept p (s.onPd p f) :=
  State.queueKept_of_prot (by rw [State.onPd_port])
theorem State.onVdm_queueKept (s : State) (p : Port) (f : VdmP → VdmP) : s.queueKept p (s.onVdm p f) :=
  State.queueKept_of_prot (by rw [State.onVdm, State.onPort_port_self])
theorem State.arm_queueKept (s : State) (p : Port) (i : TimerId) : s.queueKept p (s.arm p i) :=
  State.queueKept_of_prot (by rw [State.arm_port])
theorem State.disarm_queueKept (s : State) (p : Port) (i : TimerId) : s.queueKept p (s.disarm p i) :=
  State.queueKept_of_prot (by rw [State.disarm_port])
theorem State.send_queueKept (s : State) (p : Port) (k : Sop) (n : TxKind) (m : PdMsg) : s.queueKept p (s.send p k n m) :=
  State.queueKept_ite (State.queueKept_of_prot rfl) fun m hm _ _ => by rw [State.onPort_port_self]; exact List.mem_append_left _ hm

theorem State.disarms_port (s : State) (p : Port) (l : List TimerId) :
    ∃ v, (l.foldl (fun s i => s.disarm p i) s).port p = { s.port p with pd := { (s.port p).pd with live := v } } := by
  induction l generalizing s with
  | nil => exact ⟨_, rfl⟩
  | cons i l ih =>
    obtain ⟨v, hv⟩ := ih (s.disarm p i)
    exact ⟨v, by rw [List.foldl_cons, hv, State.disarm_port]⟩

theorem State.disarms_prot (s : State) (p : Port) (l : List TimerId) :
    ((l.foldl (fun s i => s.disarm p i) s).port p).prot = (s.port p).prot := by
  obtain ⟨v, hv⟩ := s.disarms_port p l
  rw [hv]

theorem Prot.withdraw_txq (t : Prot) (gone : TxKind → Bool) : (t.withdraw gone).txq = t.txq.filter fun m => !gone m.kind := by
  unfold Prot.withdraw
  extract_lets u tried
  clear_value tried
  cases tried
  · rfl
  · dsimp only
    split <;> rfl

/-- Messages of a kind of VDM exchange withdrawn. -/
theorem State.withdraw_queueKept {k : TxKind} (hk : k = .vdm ∨ k = .cable)
    (h : (t.port p).prot = (s.port p).prot.withdraw (· = k)) : s.queueKept p t := fun m hm hv hc => by
  rw [h, Prot.withdraw_txq]
  rcases hk with rfl | rfl <;> simp [hm, hv, hc]

theorem State.vdmInterrupt_queueKept (s : State) (p : Port) : s.queueKept p (s.vdmInterrupt p) := by
  unfold State.vdmInterrupt
  extract_lets m s₁ s₂
  have h₁ : s.queueKept p s₁ := State.queueKept_ite
    (State.withdraw_queueKept (.inl rfl) (by rw [State.onPort_port_self, State.vdmTimersOff, State.disarms_prot])) (State.queueKept_of_prot rfl)
  have h₂ : s₁.queueKept p s₂ := State.queueKept_ite
    (State.withdraw_queueKept (.inr rfl) (by rw [State.onPort_port_self, State.cableTimersOff, State.disarms_prot])) (State.queueKept_of_prot rfl)
  refine State.queueKept_ite (h₁.trans (h₂.trans (State.queueKept_of_prot ?_))) (State.queueKept_of_prot rfl)
  simp [State.vdmEvt, State.vdmCnt]

/-- The message sent last waits last, where the hands still start messages (R49). -/
theorem State.send_port (hs : s.dev.stop = none) (k : Sop) (n : TxKind) (m : PdMsg) :
    (s.send p k n m).port p = { s.port p with prot.txq := (s.port p).prot.txq ++ [⟨k, n, m⟩] } := by
  rw [State.send, if_neg (by simp [hs]), State.onPort_port_self]

theorem State.send_lastTx (hs : s.dev.stop = none) (k : Sop) (n : TxKind) (m : PdMsg) :
    (s.send p k n m).lastTx p = some ⟨k, n, m⟩ := by
  simp [State.lastTx, State.send_port hs]

theorem State.mem_send (hs : s.dev.stop = none) (k : Sop) (n : TxKind) (m : PdMsg) :
    ⟨k, n, m⟩ ∈ ((s.send p k n m).port p).prot.txq := by
  simp [State.send_port hs]

theorem State.lastTx_of_prot (h : (t.port p).prot = (s.port p).prot) : t.lastTx p = s.lastTx p := by rw [State.lastTx, h, State.lastTx]

@[simp] theorem State.arm_lastTx (s : State) (p : Port) (i : TimerId) : (s.arm p i).lastTx p = s.lastTx p :=
  State.lastTx_of_prot (by rw [State.arm_port])
@[simp] theorem State.disarm_lastTx (s : State) (p : Port) (i : TimerId) : (s.disarm p i).lastTx p = s.lastTx p :=
  State.lastTx_of_prot (by rw [State.disarm_port])
@[simp] theorem State.onPd_lastTx (s : State) (p : Port) (f : Pd → Pd) : (s.onPd p f).lastTx p = s.lastTx p :=
  State.lastTx_of_prot (by rw [State.onPd_port])

/-! ## Offers (R138, R142, R165, R167) -/

/-- A port that has made an offer as attempt n. -/
def PortState.offered (x : PortState) (o : Offer) (n : Nat) : PortState :=
  { x with pd := { x.pd with src := .sendCaps, offer := o, capsTry := n, due := false, trigger := false, spacing := false } }

theorem PortState.offered_cnt (x : PortState) (o : Offer) (n : Nat) : (x.offered o n).pd.cnt = x.pd.cnt := rfl

theorem State.offerTry_policy (s : State) (p : Port) (n : Nat) :
    ((s.offerTry p n).port p).policy = ((s.port p).offered (s.buildOffer p) n).policy := by
  unfold State.offerTry
  extract_lets s₁ o x s₂ s₃ s₄ c
  have h₁ : s.policyKept p s₁ := s.vdmInterrupt_policyKept p
  have h₂ : (s₂.port p).policy = ((s.port p).offered (s.buildOffer p) n).policy := by
    obtain ⟨v, r, l, hp⟩ := h₁.port
    unfold s₂ o
    rw [State.onPort_port_self, h₁.buildOffer, hp]
    rfl
  have h₄ : s₂.policyKept p s₄ := ((s₂.arm_policyKept p _).trans (State.disarm_policyKept _ p _)).trans
    (State.policyKept_ite (s₃.arm_policyKept p _) (s₃.policyKept_refl p))
  exact (h₄.trans (State.policyKept_ite (s₄.send_policyKept ..) (s₄.send_policyKept ..))).2.trans h₂

theorem State.offerTry_port (s : State) (p : Port) (n : Nat) :
    ∃ v r l, (s.offerTry p n).port p = { s.port p with vdm := v, prot := r, pd := { (s.port p).pd with
      src := .sendCaps, offer := s.buildOffer p, capsTry := n, due := false, trigger := false, spacing := false, live := l } } :=
  PortState.eq_of_policy (s.offerTry_policy p n)

theorem State.offerDue_ready (hsrc : (s.port p).tc.isSrc = true) (hr : (s.port p).pd.src = .ready) :
    s.offerDue p = s.offerTry p 1 := by
  simp only [State.offerDue, State.offer, hsrc, hr, Bool.not_true, Bool.false_eq_true, if_false, if_true]

theorem State.offerTry_onlyYard (s : State) (p : Port) (n : Nat) : s.onlyPortYard p (s.offerTry p n) := (s.offerTry_dealKept p n).1

theorem State.disarm_armed_ne {i j : TimerId} (h : s.armed p i) (hne : i ≠ j) : (s.disarm p j).armed p i := by
  obtain ⟨e, he, rfl⟩ := h
  exact ⟨e, by simp [State.disarm_port, he, hne], rfl⟩

theorem State.send_armed {i : TimerId} (h : s.armed p i) (k : Sop) (n : TxKind) (m : PdMsg) : (s.send p k n m).armed p i := by
  refine State.armed_of_live ?_ h
  unfold State.send
  split
  · rfl
  · rw [State.onPort_port_self]

/-- An offer starts the spacing of the next one. -/
theorem State.offerTry_armed (s : State) (p : Port) (n : Nat) : (s.offerTry p n).armed p .reofferSpacing := by
  unfold State.offerTry
  extract_lets s₁ o x s₂ s₃ s₄ c
  have h₃ : s₃.armed p .reofferSpacing := State.disarm_armed_ne (s₂.arm_armed p _) (by decide)
  have h₄ : s₄.armed p .reofferSpacing := by
    unfold s₄
    split
    · exact State.arm_armed_ne h₃ (by decide)
    · exact h₃
  split <;> exact State.send_armed h₄ ..

theorem State.offerTry_queueKept (s : State) (p : Port) (n : Nat) : s.queueKept p (s.offerTry p n) := by
  unfold State.offerTry
  extract_lets s₁ o x s₂ s₃ s₄ c
  have h₂ : s₁.queueKept p s₂ := State.queueKept_of_prot (by unfold s₂; rw [State.onPort_port_self])
  have h₄ : s₂.queueKept p s₄ := ((s₂.arm_queueKept p _).trans (State.disarm_queueKept _ p _)).trans
    (State.queueKept_ite (s₃.arm_queueKept p _) (State.queueKept_of_prot rfl))
  exact (s.vdmInterrupt_queueKept p).trans (h₂.trans (h₄.trans (State.queueKept_ite (s₄.send_queueKept p _ _ _) (s₄.send_queueKept p _ _ _))))

/-- Cable discovery before the first offer gives way to nothing (R179). -/
theorem State.vdmInterrupt_startup (h : (s.port p).pd.src = .startup) : s.vdmInterrupt p = s := by
  simp [State.vdmInterrupt, h]

theorem State.send_vdm (s : State) (p : Port) (k : Sop) (n : TxKind) (m : PdMsg) :
    ((s.send p k n m).port p).vdm = (s.port p).vdm := by
  unfold State.send
  split
  · rfl
  · rw [State.onPort_port_self]

/-- The first offer leaves the VDM machine alone. -/
theorem State.offerTry_vdm (h : (s.port p).pd.src = .startup) (n : Nat) : ((s.offerTry p n).port p).vdm = (s.port p).vdm := by
  unfold State.offerTry
  rw [State.vdmInterrupt_startup h]
  extract_lets s₁ o x s₂ s₃ s₄ c
  have h₃ : (s₃.port p).vdm = (s.port p).vdm := by
    unfold s₃ s₂
    rw [State.disarm_port, State.arm_port, State.onPort_port_self]
  have h₄ : (s₄.port p).vdm = (s.port p).vdm := by
    unfold s₄
    split
    · rw [State.arm_port, h₃]
    · exact h₃
  split <;> rw [State.send_vdm, h₄]

/-! ## A sink's request (R153 to R155) -/

/-- A sink that has asked for a contract, with P_ALLOW of the moment. -/
def PortState.requested (x : PortState) (c : Contract) (a : Nat) : PortState :=
  { x with pd := { x.pd with snk := .select, want := some c, offer := { x.pd.offer with allow := a } } }

/-- The Request of a choice, in the form that is in force. -/
def Pd.requestMsg (d : Pd) (r : Rdo) : PdMsg := if d.eprMsgs then .eprRequest r else .request r

/-- A sink that does not ask for EPR mode first sends the Request of its choice. -/
theorem State.evaluate_eq (hw : s.wantsEpr p = false) :
    s.evaluate p = ((s.disarm p .sinkRequest).onPort p fun x => x.requested (s.choose p).1 (s.pAllowUw p)).send p .sop .request
      ((s.port p).pd.requestMsg (s.choose p).2) := by
  have k := s.disarm_policyKept p .sinkRequest
  have ha : (s.disarm p .sinkRequest).pAllowUw p = s.pAllowUw p := by simp only [State.pAllowUw, k.factor, k.alm, k.cfg]
  have he (c : Contract) (n : Nat) :
      (((s.disarm p .sinkRequest).onPort p fun x => x.requested c n).port p).pd.eprMsgs = (s.port p).pd.eprMsgs := by
    rw [State.onPort_port_self, State.disarm_port]
    rfl
  unfold State.evaluate
  simp only [k.wantsEpr, hw, k.choose, ha, Bool.false_eq_true, if_false]
  rw [Pd.requestMsg, ← he (s.choose p).1 (s.pAllowUw p)]
  exact (apply_ite (State.send _ p .sop .request) ..).symm

/-- A sink that does not ask for EPR mode first requests what it chooses, as it would choose after it too. -/
theorem State.evaluate_requests (hs : s.dev.stop = none) (hw : s.wantsEpr p = false) :
    s.onlyPortYard p (s.evaluate p) ∧
      ((s.evaluate p).port p).policy = ((s.port p).requested ((s.evaluate p).choose p).1 (s.pAllowUw p)).policy ∧
      (s.evaluate p).lastTx p = some ⟨.sop, .request, (s.port p).pd.requestMsg ((s.evaluate p).choose p).2⟩ := by
  have k := s.disarm_policyKept p .sinkRequest
  have he := State.evaluate_eq hw
  generalize hu : (s.disarm p .sinkRequest).onPort p (fun x => x.requested (s.choose p).1 (s.pAllowUw p)) = u at he
  have hyu : s.onlyPortYard p u := hu ▸ k.1.trans (State.onPort_onlyYard _ p _)
  have hpu : (u.port p).policy = ((s.port p).requested (s.choose p).1 (s.pAllowUw p)).policy := by
    rw [← hu, State.onPort_port_self, State.disarm_port]
    rfl
  have hsu : u.dev.stop = none := by rw [hyu.2.1, hs]
  have hy : s.onlyPortYard p (s.evaluate p) := he ▸ hyu.trans (u.send_policyKept ..).1
  have hpol : ((s.evaluate p).port p).policy = ((s.port p).requested (s.choose p).1 (s.pAllowUw p)).policy := by
    rw [he, (u.send_policyKept ..).2, hpu]
  have hc : (s.evaluate p).choose p = s.choose p := by
    have hb := congrArg PortState.bids hpol
    exact State.choose_congr hy hb
  refine ⟨hy, hc ▸ hpol, ?_⟩
  rw [hc, he]
  exact State.send_lastTx hsu ..

/-! ## Alerts and READY (R138, R153, R174) -/

/-- A port with other Alerts that wait, or that are out. -/
def PortState.alerting (x : PortState) (a : List AlertKind) (b : Bool) : PortState :=
  { x with pd := { x.pd with alerts := a, alertOut := b } }

theorem PortState.alerting_cnt (x : PortState) (a : List AlertKind) (b : Bool) : (x.alerting a b).pd.cnt = x.pd.cnt := rfl

theorem State.alertTry_policy (s : State) (p : Port) :
    ∃ a b, ((s.alertTry p).port p).policy = ((s.port p).alerting a b).policy := by
  unfold State.alertTry
  extract_lets d
  split
  · split
    · exact ⟨_, _, rfl⟩
    · next k l _ =>
      refine ⟨l, true, ?_⟩
      rw [(State.send_policyKept ..).2, State.onPd_port]
      rfl
  · exact ⟨_, _, rfl⟩

theorem State.alertTry_queueKept (s : State) (p : Port) : s.queueKept p (s.alertTry p) := by
  unfold State.alertTry
  extract_lets d
  split
  · split
    · exact State.queueKept_of_prot rfl
    · exact (s.onPd_queueKept p _).trans (State.send_queueKept _ p _ _ _)
  · exact State.queueKept_of_prot rfl

theorem State.vdmAgain_policyKept (s : State) (p : Port) : s.policyKept p (s.vdmAgain p) := by
  unfold State.vdmAgain
  split
  · exact (s.onVdm_policyKept p _).trans (State.send_policyKept ..)
  · exact s.policyKept_refl p

theorem State.cabSend_policyKept (s : State) (p : Port) (st : VdmState) (v : Vdm) : s.policyKept p (s.cabSend p st v) :=
  (s.onVdm_policyKept p _).trans (State.send_policyKept ..)

theorem State.cabAgain_policyKept (s : State) (p : Port) : s.policyKept p (s.cabAgain p) :=
  State.policyKept_ite (s.cabSend_policyKept ..) ((s.onVdm_policyKept p _).trans (State.cabSend_policyKept ..))

theorem State.vdmAgain_queueKept (s : State) (p : Port) : s.queueKept p (s.vdmAgain p) := by
  unfold State.vdmAgain
  split
  · exact (s.onVdm_queueKept p _).trans (State.send_queueKept _ p _ _ _)
  · exact State.queueKept_of_prot rfl

theorem State.cabAgain_queueKept (s : State) (p : Port) : s.queueKept p (s.cabAgain p) :=
  State.queueKept_ite ((s.onVdm_queueKept p _).trans (State.send_queueKept _ p _ _ _))
    ((s.onVdm_queueKept p _).trans ((State.onVdm_queueKept _ p _).trans (State.send_queueKept _ p _ _ _)))

/-- What a port does in READY touches, of its policy machines, its Alerts alone; what waits to be sent waits on. -/
theorem State.readyTail_spec (s : State) (p : Port) :
    (∃ a b, ((s.readyTail p).port p).policy = ((s.port p).alerting a b).policy) ∧ s.queueKept p (s.readyTail p) := by
  unfold State.readyTail
  extract_lets s₁ s₂
  have k : s.policyKept p s₂ := (State.policyKept_ite (s.cabAgain_policyKept p) (s.policyKept_refl p)).trans
    (State.policyKept_ite (s₁.vdmAgain_policyKept p) (s₁.policyKept_refl p))
  have hq : s.queueKept p s₂ := (State.queueKept_ite (s.cabAgain_queueKept p) (State.queueKept_of_prot rfl)).trans
    (State.queueKept_ite (s₁.vdmAgain_queueKept p) (State.queueKept_of_prot rfl))
  obtain ⟨a, b, h⟩ := (s₂.onPd p fun d => { d with alerts := d.alertsNow s₂.causeStands }).alertTry_policy p
  obtain ⟨v, r, l, hp⟩ := k.port
  refine ⟨⟨a, b, h.trans ?_⟩, hq.trans ((s₂.onPd_queueKept p _).trans (State.alertTry_queueKept _ p))⟩
  rw [State.onPd_port, hp]
  rfl

theorem State.firstReady_policyKept (s : State) (p : Port) : s.policyKept p (s.firstReady p) :=
  State.policyKept_ite ((s.onVdm_policyKept p _).trans (State.policyKept_ite (State.arm_policyKept ..) (State.policyKept_refl ..)))
    (s.policyKept_refl p)

theorem State.firstReady_queueKept (s : State) (p : Port) : s.queueKept p (s.firstReady p) :=
  State.queueKept_ite ((s.onVdm_queueKept p _).trans (State.queueKept_ite (State.arm_queueKept _ p _) (State.queueKept_of_prot rfl)))
    (State.queueKept_of_prot rfl)

/-- READY entered by a source touches no counter and takes back no message. -/
theorem State.enterReady_spec (s : State) (p : Port) :
    s.onlyPortYard p (s.enterReady p) ∧ ((s.enterReady p).port p).pd.contract = (s.port p).pd.contract ∧
      ((s.enterReady p).port p).pd.cnt = (s.port p).pd.cnt ∧ s.queueKept p (s.enterReady p) := by
  have hcon : ((s.enterReady p).port p).pd.contract = (s.port p).pd.contract := congrArg (·.2.1) (s.enterReady_deal p)
  refine ⟨?_, hcon, ?_⟩
  · exact (s.onPort_onlyYard p _).trans <| (State.firstReady_policyKept ..).1.trans <|
      State.onlyPortYard_ite (State.offerTry_onlyYard ..) (State.readyTail_dealKept ..).1
  unfold State.enterReady
  extract_lets s₁ d
  have k := (s.onPd p fun d => { d with src := .ready, hrc := 0 }).firstReady_policyKept p
  have hq : s.queueKept p s₁ := (s.onPd_queueKept p _).trans (State.firstReady_queueKept _ p)
  have h₁ : (s₁.port p).pd.cnt = (s.port p).pd.cnt := by
    obtain ⟨v, r, l, hp⟩ := k.port
    rw [hp, State.onPd_port]
  split
  · refine ⟨?_, hq.trans (s₁.offerTry_queueKept p 1)⟩
    rw [State.offer, PortState.cnt_of_policy (s₁.offerTry_policy p 1), PortState.offered_cnt, h₁]
  · obtain ⟨⟨a, b, hr⟩, hr'⟩ := s₁.readyTail_spec p
    refine ⟨?_, hq.trans hr'⟩
    rw [PortState.cnt_of_policy hr, PortState.alerting_cnt, h₁]

/-- READY entered by a sink for which nothing is due. -/
theorem State.sinkReady_policy (h : (s.port p).pd.sinkDue = false) :
    ∃ a b, ((s.sinkReady p).port p).policy =
      (({ s.port p with pd := { (s.port p).pd with snk := .ready, hrc := 0, sinkDue := false } } : PortState).alerting a b).policy := by
  unfold State.sinkReady
  extract_lets due s₁
  obtain ⟨⟨a, b, hr⟩, -⟩ := s₁.readyTail_spec p
  refine ⟨a, b, ?_⟩
  rw [if_neg (by simp [due, h]), hr]
  unfold s₁
  rw [State.onPd_port]

end Sys2Proof.Machine
end

section
/-! SUPPORT. The obligation on resets received: the sluice of a sink keeps the commands that wait for it. -/

namespace Sys2Proof.Machine

/-- Port 0 is attached as sink, and an inflow limit of 5 credits waits for its sluice. -/
def limitWaits : PortState :=
  let x := PortState.reset 0
  { x with live := true
           tc := { x.tc with st := .attSnk }
           pd := { x.pd with slcq := [.ilim 5] } }

/-- A running device with `limitWaits` at port 0, whose partner's Hard Reset is the one ready event. -/
def hardResetAtSink : State :=
  let s := State.reset
  { s with dev := { s.dev with phase := .run }
           hnd := { s.hnd with ready := [⟨some 0, 0, .hardReset, false, 0, false⟩] }
           ports := s.ports.set 0 limitWaits }

/-- The commands that wait for the sluice of port 0 after an outcome. -/
def sluiceWaits : Res State → List SlcCmd
  | .next t => (t.port 0).pd.slcq
  | _ => []

theorem hardResetAtSink_handOn : hardResetAtSink.handOn 0 0 .hardReset := by decide +kernel

/-- A Hard Reset withdraws the sink's inflow at once and leaves what waits for its sluice (R161, R163). -/
theorem hardResetAtSink_slcq : sluiceWaits (exec (.hardResetReceived 0 0) hardResetAtSink) = [.ilim 5] := by decide +kernel

/-- Refutes O22: the clause on a sink's Hard Reset says that the inflow limits that wait for its sluice are dropped. In `hardResetAtSink`
one such limit waits, and it waits still after the Hard Reset. The statement does not exclude this state; a run is not known to reach it. -/
theorem not_resetsReceived : ¬ Obligations.ResetsReceived := by
  unfold Obligations.ResetsReceived
  intro h
  obtain ⟨-, -, hsnk⟩ := h hardResetAtSink 0 0
  obtain ⟨t, ht, -, -, -, -, -, hq, -⟩ := hsnk hardResetAtSink_handOn (by decide)
  have hkept : sluiceWaits (.next t) = [.ilim 5] := ht ▸ hardResetAtSink_slcq
  exact absurd (hkept.symm.trans hq) (by decide)

end Sys2Proof.Machine
end

section
/-! SUPPORT. The obligation on the answers to queries and swaps. -/

namespace Sys2Proof.Machine

variable {s t u : State} {p q : Port} {h : Hand}

theorem State.msgOn.stop {m : RxMsg} (hon : s.msgOn h p m) : s.dev.stop = none := by
  obtain ⟨⟨-, hs, -⟩, -⟩ := hon
  exact hs

/-! ## A message that is answered at once -/

/-- A hand's step on a message that sends one message to the partner touches nothing else of the policy machines. -/
theorem State.msgOn.answered {m : RxMsg} (hon : s.msgOn h p m) {c : Instr} {row : MsgRow} {f : RxMsg → State → State}
    (hc : exec c s = s.onMsg h p row f) (hr : rowOf m = row) {n : TxKind} {x : PdMsg}
    (hf : ∀ u, s.policyKept p u → f m u = u.send p .sop n x) :
    ∃ t, exec c s = .next t ∧ s.othersKept p t ∧ t.lastTx p = some ⟨.sop, n, x⟩ := by
  obtain ⟨u, k, -, he⟩ := hon.step hc hr
  refine ⟨_, he, fun q hq => ?_, ?_⟩
  · rw [hf u k, State.endStep_port]
    exact (k.trans (u.send_policyKept ..)).othersKept q hq
  · rw [hf u k, State.endStep_lastTx]
    exact State.send_lastTx (by rw [k.dev, hon.stop]) ..

/-! ## Queries (R142, R149, R157, R160, R173) -/

theorem getRevision_spec (hon : s.msgOn h p ⟨.sop, .getRevision⟩) :
    ∃ t, exec (.getRevision h p) s = .next t ∧ s.othersKept p t ∧ t.lastTx p = some ⟨.sop, .answer, .revision⟩ :=
  hon.answered (show exec (.getRevision h p) s = execGetRevision h p s from rfl) rfl fun _ _ => rfl

theorem unsupportedMessage_spec {n : Nat} (hon : s.msgOn h p ⟨.sop, .other n⟩) :
    ∃ t, exec (.unsupportedMessage h p) s = .next t ∧ s.othersKept p t ∧ t.lastTx p = some ⟨.sop, .answer, .notSupported⟩ :=
  hon.answered (show exec (.unsupportedMessage h p) s = execUnsupportedMessage h p s from rfl) rfl fun _ _ => rfl

theorem getSinkCap_spec (hon : s.msgOn h p ⟨.sop, .getSinkCap⟩) :
    ∃ t, exec (.getSinkCap h p) s = .next t ∧ s.othersKept p t ∧ t.lastTx p = some ⟨.sop, .answer,
      if (s.port p).tc.isSnk = true ∨ (s.port p).cfg.role = 2 then
        .sinkCap (if (s.port p).cfg.snkV = 0 then 5000 else 100 * (s.port p).cfg.snkV) (10 * (s.port p).cfg.snkI)
      else .notSupported⟩ := by
  refine hon.answered (show exec (.getSinkCap h p) s = execGetSinkCap h p s from rfl) rfl fun u k => ?_
  simp only [Bool.or_eq_true, decide_eq_true_eq, k.tc, k.cfg]
  exact (apply_ite (u.send p .sop .answer) ..).symm

theorem getSourceCap_sink (hon : s.msgOn h p ⟨.sop, .getSourceCap⟩) (hsrc : (s.port p).tc.isSrc = false) :
    ∃ t, exec (.getSourceCap h p) s = .next t ∧ s.othersKept p t ∧ t.lastTx p = some ⟨.sop, .answer,
      if (s.port p).cfg.role = 2 then .sourceCap (s.capsMsg p (s.buildOffer p)) else .notSupported⟩ := by
  refine hon.answered (show exec (.getSourceCap h p) s = execGetSourceCap h p s from rfl) rfl fun u k => ?_
  simp only [k.tc, hsrc, k.cfg, k.buildOffer, k.capsMsg, Bool.false_eq_true, if_false]
  exact (apply_ite (u.send p .sop .answer) ..).symm

theorem getPpsStatus_spec (hon : s.msgOn h p ⟨.sop, .getPpsStatus⟩) (hsrc : (s.port p).tc.isSrc = true) :
    ∃ t, exec (.getPpsStatus h p) s = .next t ∧ s.othersKept p t ∧ t.lastTx p = some ⟨.sop, .answer, .ppsStatus
      ⟨(s.port p).vbcMv / 20, ((s.port p).stg.meas.i / 50000).toNat, ptfOf (s.factor p), s.ccLoop p⟩⟩ := by
  refine hon.answered (show exec (.getPpsStatus h p) s = execGetPpsStatus h p s from rfl) rfl fun u k => ?_
  have hv : (u.port p).vbcMv = (s.port p).vbcMv := by simp only [PortState.vbcMv, k.stg]
  simp only [k.tc, hsrc, hv, k.stg, k.factor, k.ccLoop, if_true]
  rfl

/-- The capabilities message does not read the port's last offer. -/
theorem State.capsMsg_onPd_offer (s : State) (p : Port) (o x : Offer) :
    (s.onPd p fun d => { d with offer := o }).capsMsg p x = s.capsMsg p x := by
  simp only [State.capsMsg, State.eprClass, State.cableNow, State.vconnOk, State.onPd_port]
  rfl

/-- A source that answers Get_Source_Cap sends the offer of the moment and stays where it is. -/
theorem getSourceCap_source (hon : s.msgOn h p ⟨.sop, .getSourceCap⟩) (hsrc : (s.port p).tc.isSrc = true) :
    ∃ t, exec (.getSourceCap h p) s = .next t ∧ s.othersKept p t ∧ (t.port p).pd.src = (s.port p).pd.src ∧
      (t.port p).pd.contract = (s.port p).pd.contract ∧ t.lastTx p = some ⟨.sop, .answer,
        if (s.port p).pd.eprMsgs then .eprSourceCap (s.capsMsg p (s.buildOffer p))
        else .sourceCap (s.capsMsg p (s.buildOffer p))⟩ := by
  obtain ⟨u, k, -, he⟩ := hon.step (show exec (.getSourceCap h p) s = execGetSourceCap h p s from rfl) rfl
  obtain ⟨v, r, l, hp⟩ := k.port
  have hm : (u.port p).pd.eprMsgs = (s.port p).pd.eprMsgs := by rw [hp]; rfl
  simp only [k.tc, hsrc, if_true, k.buildOffer, hm, State.capsMsg_onPd_offer, k.capsMsg] at he
  generalize hw : u.onPd p (fun d => { d with offer := s.buildOffer p }) = w at he
  have hwy : s.onlyPortYard p w := hw ▸ k.1.trans (u.onPort_onlyYard p _)
  have hwp : w.port p = { u.port p with pd := { (u.port p).pd with offer := s.buildOffer p } } := by rw [← hw, State.onPd_port]
  obtain ⟨v', r', l', hq⟩ := (w.send_policyKept p .sop .answer
    (if (s.port p).pd.eprMsgs then .eprSourceCap (s.capsMsg p (s.buildOffer p)) else .sourceCap (s.capsMsg p (s.buildOffer p)))).port
  refine ⟨_, he, fun q hq => ?_, ?_, ?_, ?_⟩
  · rw [State.endStep_port]
    exact (hwy.trans (w.send_policyKept ..).1).1 q hq
  · rw [State.endStep_port, State.say, hq, hwp, hp]
  · rw [State.endStep_port, State.say, hq, hwp, hp]
  · rw [State.endStep_lastTx, State.say, State.send_lastTx (by rw [hwy.2.1, hon.stop])]

/-- The answer to Get_Status waits behind nothing but an Alert, and the over-current report of R173 is over. -/
theorem getStatus_spec (hon : s.msgOn h p ⟨.sop, .getStatus⟩) :
    ∃ t, exec (.getStatus h p) s = .next t ∧ (t.port p).pd.ocp = false ∧
      ⟨.sop, .answer, .status (s.statusOf p)⟩ ∈ (t.port p).prot.txq := by
  obtain ⟨u, k, -, he⟩ := hon.step (show exec (.getStatus h p) s = execGetStatus h p s from rfl) rfl
  simp only [k.statusOf] at he
  let w := u.say p (.status (s.statusOf p))
  let x := (w.disarm p .alertWait).onPd p fun d => { d with ocp := false, alertOut := false }
  have hmem := State.mem_send (p := p) (show u.dev.stop = none by rw [k.dev, hon.stop]) .sop .answer (.status (s.statusOf p))
  have hq : w.queueKept p (x.alertTry p) :=
    (w.disarm_queueKept p _).trans ((State.onPd_queueKept _ p _).trans (x.alertTry_queueKept p))
  obtain ⟨a, b, ha⟩ := x.alertTry_policy p
  obtain ⟨v, r, l, hx⟩ := PortState.eq_of_policy ha
  refine ⟨_, he, ?_, ?_⟩
  · rw [State.endStep_port, hx]
    change (x.port p).pd.ocp = false
    rw [State.onPd_port]
  · rw [State.endStep_port]
    exact hq _ hmem (by simp) (by simp)

/-! ## Swaps (R158, R160) -/

/-- A refused swap is counted and reported. -/
theorem State.refuseSwap_spec (hs : s.dev.stop = none) :
    s.onlyPortYard p (s.refuseSwap p) ∧ (s.refuseSwap p).lastTx p = some ⟨.sop, .answer, .notSupported⟩ ∧
      ((s.refuseSwap p).port p).pd = { (s.port p).pd with evt := setBit (s.port p).pd.evt 9, cnt := bump (s.port p).pd.cnt 6 } := by
  let u := (s.pdEvt p 9).pdCnt p 6
  have hu : u.port p = { s.port p with
      pd := { (s.port p).pd with evt := setBit (s.port p).pd.evt 9, cnt := bump (s.port p).pd.cnt 6 } } := by
    simp [u, State.pdEvt, State.pdCnt]
  have hy : s.onlyPortYard p u := (s.onPort_onlyYard p _).trans (State.onPort_onlyYard _ p _)
  have hsu : u.dev.stop = none := by rw [hy.2.1, hs]
  refine ⟨hy.trans (u.send_policyKept ..).1, State.send_lastTx hsu .., ?_⟩
  rw [State.refuseSwap, State.notSupported, State.say, State.send_port hsu, hu]

/-- A hand's step on a swap that is refused. -/
theorem State.msgOn.swapRefused {m : RxMsg} (hon : s.msgOn h p m) {c : Instr} {row : MsgRow} {f : RxMsg → State → State}
    (hc : exec c s = s.onMsg h p row f) (hr : rowOf m = row) (hf : ∀ u, s.policyKept p u → f m u = u.refuseSwap p) :
    ∃ t, exec c s = .next t ∧ s.othersKept p t ∧ t.lastTx p = some ⟨.sop, .answer, .notSupported⟩ ∧
      (t.port p).pd.evt = setBit (s.port p).pd.evt 9 ∧ (t.port p).pd.cnt[6] = satInc (s.port p).pd.cnt[6] ∧
      (t.port p).pd.contract = (s.port p).pd.contract := by
  obtain ⟨u, k, -, he⟩ := hon.step hc hr
  obtain ⟨hy, hl, hpd⟩ := State.refuseSwap_spec (s := u) (p := p) (by rw [k.dev, hon.stop])
  obtain ⟨v, r, l, hp⟩ := k.port
  rw [hf u k] at he
  refine ⟨_, he, fun q hq => ?_, ?_, ?_⟩
  · rw [State.endStep_port]
    exact (k.1.trans hy).1 q hq
  · rw [State.endStep_lastTx, hl]
  · rw [State.endStep_port, hpd, hp]
    simp [bump]

/-- A swap that the device does not support, or VCONN_Swap where the feature is off, is refused. -/
theorem swap_refused {c : Instr} {m : PdMsg}
    (hc : (c, m) ∈ [(Instr.prSwap h p, PdMsg.prSwap), (.drSwap h p, .drSwap), (.frSwap h p, .frSwap), (.dataReset h p, .dataReset)] ∨
      (c, m) = (.vconnSwap h p, .vconnSwap) ∧ s.alm.cfg.feat.testBit 4 = false)
    (hon : s.msgOn h p ⟨.sop, m⟩) :
    ∃ t, exec c s = .next t ∧ s.othersKept p t ∧ t.lastTx p = some ⟨.sop, .answer, .notSupported⟩ ∧
      (t.port p).pd.evt = setBit (s.port p).pd.evt 9 ∧ (t.port p).pd.cnt[6] = satInc (s.port p).pd.cnt[6] ∧
      (t.port p).pd.contract = (s.port p).pd.contract := by
  simp only [List.mem_cons, Prod.mk.injEq, List.not_mem_nil, or_false] at hc
  rcases hc with (⟨rfl, rfl⟩ | ⟨rfl, rfl⟩ | ⟨rfl, rfl⟩ | ⟨rfl, rfl⟩) | ⟨⟨rfl, rfl⟩, hf⟩
  · exact hon.swapRefused (show exec (.prSwap h p) s = execPrSwap h p s from rfl) rfl fun _ _ => rfl
  · exact hon.swapRefused (show exec (.drSwap h p) s = execDrSwap h p s from rfl) rfl fun _ _ => rfl
  · exact hon.swapRefused (show exec (.frSwap h p) s = execFrSwap h p s from rfl) rfl fun _ _ => rfl
  · exact hon.swapRefused (show exec (.dataReset h p) s = execDataReset h p s from rfl) rfl fun _ _ => rfl
  · exact hon.swapRefused (show exec (.vconnSwap h p) s = execVconnSwap h p s from rfl) rfl fun u k => by
      simp only [k.alm, hf, Bool.not_false, if_true]

theorem vconnSwap_accepted (hon : s.msgOn h p ⟨.sop, .vconnSwap⟩) (hf : s.alm.cfg.feat.testBit 4 = true)
    (hv : (s.port p).pd.vconnSrc = true) :
    ∃ t, exec (.vconnSwap h p) s = .next t ∧ s.othersKept p t ∧ t.lastTx p = some ⟨.sop, .acceptVcs, .accept⟩ :=
  hon.answered (show exec (.vconnSwap h p) s = execVconnSwap h p s from rfl) rfl fun u k => by
    obtain ⟨v, r, l, hp⟩ := k.port
    have hvu : (u.port p).pd.vconnSrc = true := by rw [hp, hv]
    simp only [k.alm, hf, hvu, Bool.not_true, Bool.false_eq_true, if_false, if_true]

/-- Settles O20: each answer is the one message that the step sends, in a state whose policy machines are those the event found; a refused
swap is counted beside it. -/
theorem answersGiven : Obligations.AnswersGiven := by
  unfold Obligations.AnswersGiven
  refine ⟨fun s h p n => ⟨fun hon => ?_, getSinkCap_spec, getSourceCap_sink, getSourceCap_source, getPpsStatus_spec, getStatus_spec,
    unsupportedMessage_spec⟩, fun s h p c m => ⟨swap_refused, vconnSwap_accepted⟩⟩
  obtain ⟨t, ht, hk, hl⟩ := getRevision_spec hon
  exact ⟨t, ht, hl, hk⟩

end Sys2Proof.Machine
end

section
/-! SUPPORT. The obligation on EPR mode: the four checks of R150, and how the mode ends. -/

namespace Sys2Proof.Machine

variable {s t u : State} {p q : Port} {h : Hand}

/-! ## The checks (R150) -/

/-- A source whose waiting Enter has been taken up. -/
def State.answering (s : State) (p : Port) : State := s.onPd p fun d => { d with eprPend := false }

theorem State.answering_port (s : State) (p : Port) :
    (s.answering p).port p = { s.port p with pd := { (s.port p).pd with eprPend := false } } := State.onPd_port ..

theorem State.answering_dealKept (s : State) (p : Port) : s.dealKept p (s.answering p) :=
  s.onPd_dealKept p fun _ => ⟨rfl, rfl, rfl, rfl, rfl⟩

theorem State.answering_eprClass (s : State) (p : Port) : (s.answering p).eprClass p = s.eprClass p := by
  simp only [State.eprClass, State.answering_port]
  rfl

theorem State.answering_cableNow (s : State) (p : Port) : (s.answering p).cableNow p = s.cableNow p := by
  simp only [State.cableNow, State.vconnOk, State.answering_port]
  rfl

theorem State.answering_eprOffered (s : State) (p : Port) : (s.answering p).eprOffered p = s.eprOffered p := by
  have k := s.answering_dealKept p
  have hp := s.answering_port p
  have hs : (s.answering p).stageOf p = s.stageOf p := State.stageOf_congr (by rw [hp])
  have ha : (s.answering p).pAllow p = s.pAllow p := State.pAllow_congr k.1 (by rw [hp]) (by rw [hp])
  have hb : (s.answering p).sibAttached p = s.sibAttached p := State.sibAttached_congr k.1 (by rw [hp])
  have hg (q : Port) : ((s.answering p).port q).stg = (s.port q).stg := by
    by_cases hq : q = p
    · rw [hq, hp]
    · rw [k.1.1 q hq]
  obtain ⟨-, -, -, hal, -⟩ := k.1
  simp only [State.eprOffered, State.offerEnv, k.free, ha, hb, hs, hg, hal, s.answering_cableNow p, k.1.1 _ (sibOf_ne p), hp]

/-- Enter Failed, with its reason. -/
theorem State.eprFail_spec (hs : s.dev.stop = none) (n : Nat) :
    s.onlyPortYard p (s.eprFail p n) ∧ (s.eprFail p n).lastTx p = some ⟨.sop, .eprFailed, .eprMode (.enterFailed n)⟩ ∧
      ((s.eprFail p n).port p).pd.epr = if (s.port p).pd.epr = .entry then .spr else (s.port p).pd.epr := by
  let u := (s.disarm p .enterEpr).onPd p fun d => { d.entryOff with eprPend := false }
  have hy : s.onlyPortYard p u := (s.disarm_onlyYard p _).trans (State.onPort_onlyYard _ p _)
  have hsu : u.dev.stop = none := by rw [hy.2.1, hs]
  refine ⟨hy.trans (u.send_policyKept ..).1, State.send_lastTx hsu .., ?_⟩
  have hu : (u.port p).pd.epr = (s.port p).pd.entryOff.epr := by rw [State.onPd_port, State.disarm_port]; rfl
  rw [State.eprFail, State.send_port hsu, hu, Pd.entryOff]

/-- Enter Acknowledged and Enter Succeeded. -/
theorem State.eprAnswer_succeeds (hs : s.dev.stop = none) (hc : s.eprClass p = true) (ho : s.eprOffered p = true)
    (hca : (s.cableNow p).epr = true) (hk : (s.port p).pd.sprContract = true) (he : (s.port p).pd.epr = .spr) :
    s.onlyPortYard p (s.eprAnswer p) ∧ ((s.eprAnswer p).port p).pd.epr = .entry ∧
      (s.eprAnswer p).lastTx p = some ⟨.sop, .eprSucceeded, .eprMode .enterSucceeded⟩ ∧
      ⟨.sop, .eprEnterAck, .eprMode .enterAck⟩ ∈ ((s.eprAnswer p).port p).prot.txq := by
  let u := (s.answering p).onPd p fun d => { d with epr := if d.eprMsgs then d.epr else .entry }
  let v := u.send p .sop .eprEnterAck (.eprMode .enterAck)
  have hyu : s.onlyPortYard p u := (s.answering_dealKept p).1.trans (State.onPort_onlyYard _ p _)
  have hyv : s.onlyPortYard p (v.disarm p .enterEpr) := (hyu.trans (u.send_policyKept ..).1).trans (v.disarm_onlyYard p _)
  have hsu : u.dev.stop = none := by rw [hyu.2.1, hs]
  have hsv : (v.disarm p .enterEpr).dev.stop = none := by rw [hyv.2.1, hs]
  have heq : s.eprAnswer p = (v.disarm p .enterEpr).send p .sop .eprSucceeded (.eprMode .enterSucceeded) := by
    unfold State.eprAnswer
    rw [show (s.onPd p fun d => { d with eprPend := false }) = s.answering p from rfl]
    simp only [State.answering_eprClass, State.answering_eprOffered, State.answering_cableNow, hc, ho, hca, hk]
    rfl
  have hu : (u.port p).pd.epr = .entry := by
    rw [State.onPd_port, State.answering_port]
    simp [Pd.eprMsgs, he]
  rw [heq]
  refine ⟨hyv.trans (State.send_policyKept ..).1, ?_, State.send_lastTx hsv .., ?_⟩
  · rw [State.send_port hsv, State.disarm_port, State.send_port hsu, hu]
  · exact State.send_queueKept _ p _ _ _ _ (by rw [State.disarm_port]; exact State.mem_send hsu ..) (by simp) (by simp)

/-- A port of no EPR class. -/
theorem State.eprAnswer_class (hc : s.eprClass p = false) : s.eprAnswer p = (s.answering p).eprFail p 4 := by
  unfold State.eprAnswer
  rw [show (s.onPd p fun d => { d with eprPend := false }) = s.answering p from rfl]
  simp only [State.answering_eprClass, hc]
  rfl

/-- The last check: no explicit SPR contract. -/
theorem State.eprAnswer_contract (hc : s.eprClass p = true) (ho : s.eprOffered p = true) (hca : (s.cableNow p).epr = true)
    (hk : (s.port p).pd.sprContract = false) : s.eprAnswer p = (s.answering p).eprFail p 0 := by
  unfold State.eprAnswer
  rw [show (s.onPd p fun d => { d with eprPend := false }) = s.answering p from rfl]
  simp only [State.answering_eprClass, State.answering_eprOffered, State.answering_cableNow, hc, ho, hca, hk]
  rfl

/-! ## The messages (R150, R151, R155) -/

/-- A source that keeps VCONN, or never gave it up, answers an Enter at once, with its entry timer armed. -/
theorem eprModeEnter_answers (hon : s.msgOn h p ⟨.sop, .eprMode .enter⟩) (hsrc : (s.port p).tc.isSrc = true)
    (hpend : (s.port p).pd.eprPend = false) (hv : (s.port p).pd.gaveVconn = false ∨ (s.port p).pd.vconnSrc = true) :
    ∃ u, s.policyKept p u ∧ exec (.eprModeEnter h p) s = .next (u.eprAnswer p).endStep := by
  obtain ⟨u, k, -, he⟩ := hon.step (show exec (.eprModeEnter h p) s = execEprModeEnter h p s from rfl) rfl
  refine ⟨u.arm p .enterEpr, k.trans (u.arm_policyKept p _), ?_⟩
  obtain ⟨v, r, l, hp⟩ := k.port
  have hgv : ((s.port p).pd.gaveVconn && !(s.port p).pd.vconnSrc) = false := by rcases hv with hv | hv <;> simp [hv]
  simpa only [hp, hsrc, hpend, hgv, Bool.not_true, Bool.false_eq_true, if_false] using he

theorem eprModeEnter_succeeds (hon : s.msgOn h p ⟨.sop, .eprMode .enter⟩) (hsrc : (s.port p).tc.isSrc = true)
    (hpend : (s.port p).pd.eprPend = false) (hv : (s.port p).pd.gaveVconn = false ∨ (s.port p).pd.vconnSrc = true)
    (hc : s.eprClass p = true) (ho : s.eprOffered p = true) (hca : (s.cableNow p).epr = true)
    (hk : (s.port p).pd.sprContract = true) (hspr : (s.port p).pd.epr = .spr) :
    ∃ t, exec (.eprModeEnter h p) s = .next t ∧ (t.port p).pd.epr = .entry ∧
      t.lastTx p = some ⟨.sop, .eprSucceeded, .eprMode .enterSucceeded⟩ ∧
      ⟨.sop, .eprEnterAck, .eprMode .enterAck⟩ ∈ (t.port p).prot.txq ∧ s.othersKept p t := by
  obtain ⟨u, k, he⟩ := eprModeEnter_answers hon hsrc hpend hv
  obtain ⟨v, r, l, hp⟩ := k.port
  obtain ⟨hy, hepr, hl, hm⟩ := State.eprAnswer_succeeds (s := u) (p := p) (by rw [k.dev, hon.stop]) (by rw [k.eprClass, hc])
    (by rw [k.eprOffered, ho]) (by rw [k.cableNow, hca]) (by rw [hp]; exact hk) (by rw [hp, hspr])
  exact ⟨_, he, hepr, hl, hm, fun q hq => (k.1.trans hy).1 q hq⟩

/-- A refused entry leaves the state that EPR mode had, but for an entry under way. -/
theorem eprModeEnter_fails (hon : s.msgOn h p ⟨.sop, .eprMode .enter⟩) (hsrc : (s.port p).tc.isSrc = true)
    (hpend : (s.port p).pd.eprPend = false) (hv : (s.port p).pd.gaveVconn = false ∨ (s.port p).pd.vconnSrc = true) {n : Nat}
    (hf : ∀ u, s.policyKept p u → u.eprAnswer p = (u.answering p).eprFail p n) :
    ∃ t, exec (.eprModeEnter h p) s = .next t ∧
      (t.port p).pd.epr = (if (s.port p).pd.epr = .entry then .spr else (s.port p).pd.epr) ∧
      t.lastTx p = some ⟨.sop, .eprFailed, .eprMode (.enterFailed n)⟩ ∧ s.othersKept p t := by
  obtain ⟨u, k, he⟩ := eprModeEnter_answers hon hsrc hpend hv
  obtain ⟨v, r, l, hp⟩ := k.port
  have hy := k.1.trans (u.answering_dealKept p).1
  obtain ⟨hyf, hl, hepr⟩ := State.eprFail_spec (s := u.answering p) (p := p) (by rw [hy.2.1, hon.stop]) n
  rw [hf u k] at he
  refine ⟨_, he, ?_, hl, fun q hq => (hy.trans hyf).1 q hq⟩
  rw [State.endStep_port, hepr, State.answering_port, hp]

theorem State.eprLeft_port (s : State) (p : Port) : ∃ l, (s.eprLeft p).port p = { s.port p with
    pd := { (s.port p).pd with epr := .spr, exitPend := false, evt := setBit (s.port p).pd.evt 12, live := l } } := by
  simp only [State.eprLeft, State.pdEvt, State.onPort_port_self, State.onPd_port, State.disarm_port]
  exact ⟨_, rfl⟩

theorem State.eprLeft_onlyYard (s : State) (p : Port) : s.onlyPortYard p (s.eprLeft p) :=
  ((s.disarm_onlyYard p _).trans (State.disarm_onlyYard _ p _)).trans
    ((State.onPort_onlyYard _ p _).trans (State.onPort_onlyYard _ p _))

theorem eprModeExit_sink (hon : s.msgOn h p ⟨.sop, .eprMode .exit⟩) (hsnk : (s.port p).tc.isSrc = false)
    (hepr : (s.port p).pd.epr = .epr) :
    ∃ t, exec (.eprModeExit h p) s = .next t ∧ (t.port p).pd.epr = .spr ∧
      (t.port p).pd.evt = setBit (s.port p).pd.evt 12 ∧ s.othersKept p t := by
  obtain ⟨u, k, -, he⟩ := hon.step (show exec (.eprModeExit h p) s = execEprModeExit h p s from rfl) rfl
  obtain ⟨v, r, l, hp⟩ := k.port
  obtain ⟨l', hl⟩ := u.eprLeft_port p
  simp only [hp, hsnk, hepr, ne_eq, not_true_eq_false, Bool.false_eq_true, if_false] at he
  refine ⟨_, he, ?_, ?_, fun q hq => (k.1.trans (u.eprLeft_onlyYard p)).1 q hq⟩
  · rw [State.endStep_port, hl]
  · rw [State.endStep_port, hl, hp]

/-- A source without a contract leaves EPR mode with a fresh offer. -/
theorem eprModeExit_source (hon : s.msgOn h p ⟨.sop, .eprMode .exit⟩) (hsrc : (s.port p).tc.isSrc = true)
    (hepr : (s.port p).pd.epr = .epr) (hk : (s.port p).pd.contract = none) (hr : (s.port p).pd.src = .ready) :
    ∃ t, exec (.eprModeExit h p) s = .next t ∧ (t.port p).pd.epr = .spr ∧ (t.port p).pd.src = .sendCaps ∧ s.othersKept p t := by
  obtain ⟨u, k, -, he⟩ := hon.step (show exec (.eprModeExit h p) s = execEprModeExit h p s from rfl) rfl
  obtain ⟨v, r, l, hp⟩ := k.port
  obtain ⟨l', hl⟩ := u.eprLeft_port p
  have hoff : (u.eprLeft p).offerDue p = (u.eprLeft p).offerTry p 1 :=
    State.offerDue_ready (by rw [hl, hp, hsrc]) (by rw [hl, hp, hr])
  simp only [hp, hsrc, hepr, hk, hoff, ne_eq, not_true_eq_false, if_false, if_true] at he
  obtain ⟨v', r', l'', ho⟩ := (u.eprLeft p).offerTry_port p 1
  have hy := (k.1.trans (u.eprLeft_onlyYard p)).trans ((u.eprLeft p).offerTry_onlyYard p 1)
  refine ⟨_, he, ?_, ?_, fun q hq => ?_⟩
  · rw [State.endStep_port, ho, hl]
  · rw [State.endStep_port, ho]
  · rw [State.endStep_port, hy.1 q hq]

/-- The source has let a sink into EPR mode, which the sink keeps alive. -/
theorem eprModeResponse_succeeded (hon : s.msgOn h p ⟨.sop, .eprMode .enterSucceeded⟩) (hsnk : (s.port p).tc.isSnk = true)
    (hepr : (s.port p).pd.epr = .entry) :
    ∃ t, exec (.eprModeResponse h p) s = .next t ∧ (t.port p).pd.epr = .epr ∧ t.armed p .sinkEprKeepAlive ∧ s.othersKept p t := by
  obtain ⟨u, k, -, he⟩ := hon.step (show exec (.eprModeResponse h p) s = execEprModeResponse h p s from rfl) rfl
  obtain ⟨v, r, l, hp⟩ := k.port
  simp only [hp, hsnk, hepr, decide_true, Bool.and_self, if_true] at he
  generalize hw : ((u.disarm p .senderResponse).onPd p fun d => { d with epr := .epr }).pdEvt p 11 = w at he
  have hy : s.onlyPortYard p w :=
    hw ▸ (k.1.trans (u.disarm_onlyYard p _)).trans ((State.onPort_onlyYard _ p _).trans (State.onPort_onlyYard _ p _))
  obtain ⟨v', r', l', hs⟩ := (w.send_policyKept p .sop .keepAlive .eprKeepAlive).port
  refine ⟨_, he, ?_, State.arm_armed .., fun q hq =>
    (hy.trans ((w.send_policyKept ..).1.trans (State.arm_onlyYard _ p _))).1 q hq⟩
  rw [State.endStep_port, State.arm_port, hs]
  simp [← hw, State.pdEvt, State.onPd_port]

theorem eprModeResponse_failed {n : Nat} (hon : s.msgOn h p ⟨.sop, .eprMode (.enterFailed n)⟩) (hsnk : (s.port p).tc.isSnk = true)
    (hepr : (s.port p).pd.epr = .entry) :
    ∃ t, exec (.eprModeResponse h p) s = .next t ∧ (t.port p).pd.epr = .spr ∧ s.othersKept p t := by
  obtain ⟨u, k, -, he⟩ := hon.step (show exec (.eprModeResponse h p) s = execEprModeResponse h p s from rfl) rfl
  obtain ⟨v, r, l, hp⟩ := k.port
  simp only [hp, hsnk, hepr, decide_true, Bool.and_self, if_true] at he
  refine ⟨_, he, ?_, fun q hq => ?_⟩
  · rw [State.endStep_port, State.onPd_port]
  · rw [State.endStep_port]
    exact ((k.1.trans (u.disarm_onlyYard p _)).trans (State.onPort_onlyYard _ p _)).1 q hq

theorem eprKeepalive_spec (hon : s.msgOn h p ⟨.sop, .eprKeepAlive⟩) (hsrc : (s.port p).tc.isSrc = true)
    (hepr : (s.port p).pd.epr = .epr) :
    ∃ t, exec (.eprKeepalive h p) s = .next t ∧ t.lastTx p = some ⟨.sop, .answer, .eprKeepAliveAck⟩ ∧
      t.armed p .sourceEprKeepAlive ∧ s.othersKept p t := by
  obtain ⟨u, k, -, he⟩ := hon.step (show exec (.eprKeepalive h p) s = execEprKeepalive h p s from rfl) rfl
  obtain ⟨v, r, l, hp⟩ := k.port
  have hm : (u.port p).pd.eprMsgs = true := by
    rw [hp]
    simp [Pd.eprMsgs, hepr]
  simp only [k.tc, hsrc, hm, Bool.and_self, if_true] at he
  refine ⟨_, he, ?_, State.arm_armed .., fun q hq => (k.trans ((u.send_policyKept ..).trans (State.arm_policyKept ..))).othersKept q hq⟩
  rw [State.endStep_lastTx, State.arm_lastTx]
  exact State.send_lastTx (by rw [k.dev, hon.stop]) ..

/-- Settles O24: an Enter is answered by the first check that fails, on a port whose policy machines are those the message found. -/
theorem eprMode : Obligations.EprMode := by
  unfold Obligations.EprMode
  refine fun s h p n => ⟨fun hon hsrc hspr hpend hv => ⟨fun hc ho hca hk => eprModeEnter_succeeds hon hsrc hpend hv hc ho hca hk hspr,
    fun hc => ?_⟩, fun hon hsrc hpend hv hc ho hca hk => ?_, fun hon hsnk hepr => ?_, eprModeExit_source, eprModeResponse_succeeded,
    eprModeResponse_failed, eprKeepalive_spec⟩
  · have hf (u : State) (k : s.policyKept p u) : u.eprAnswer p = (u.answering p).eprFail p 4 :=
      State.eprAnswer_class (by rw [k.eprClass, hc])
    simpa only [hspr, reduceCtorEq, if_false] using eprModeEnter_fails hon hsrc hpend hv hf
  · refine eprModeEnter_fails hon hsrc hpend hv fun u k => ?_
    obtain ⟨v, r, l, hp⟩ := k.port
    exact State.eprAnswer_contract (by rw [k.eprClass, hc]) (by rw [k.eprOffered, ho]) (by rw [k.cableNow, hca]) (by rw [hp]; exact hk)
  · have hsrc : (s.port p).tc.isSrc = false := by
      revert hsnk
      simp only [Tc.isSnk, Tc.isSrc]
      cases (s.port p).tc.st <;> simp
    exact eprModeExit_sink hon hsrc hepr

end Sys2Proof.Machine
end

section
/-! SUPPORT. The obligation on cable discovery: what its end leaves of the plug's record, whatever follows it. -/

namespace Sys2Proof.Machine

variable {s t u : State} {p q : Port} {h : Hand}

theorem State.timerOn.stop {i : TimerId} (hon : s.timerOn h p i) : s.dev.stop = none := by
  obtain ⟨e, -, -, -, hs, -⟩ := hon
  exact hs

theorem State.timerOn.bmcRuns {i : TimerId} (hon : s.timerOn h p i) : s.bmcRuns p = true := by
  obtain ⟨e, -, -, hb, -⟩ := hon
  exact hb

theorem State.onVdm_vdm (s : State) (p : Port) (f : VdmP → VdmP) : ((s.onVdm p f).port p).vdm = f (s.port p).vdm := by
  rw [State.onVdm, State.onPort_port_self]

/-! ## The record of the plug -/

/-- What cable discovery keeps of a port: the cable, whether it is known, and the VDM machine. -/
def PortState.plug (x : PortState) : Cable × Bool × VdmP := (x.pd.cable, x.pd.cabled, x.vdm)

/-- The record of a plug once discovery is over. -/
def PortState.plugDone (x : PortState) : Cable × Bool × VdmP :=
  (x.pd.cable, true, { x.vdm with cab := .idle, cabOut := none, cabIntr := false, tries := 0 })

theorem State.send_plug (s : State) (p : Port) (k : Sop) (n : TxKind) (m : PdMsg) :
    ((s.send p k n m).port p).plug = (s.port p).plug := by
  unfold State.send
  split
  · rfl
  · rw [State.onPort_port_self]
    rfl

theorem State.disarm_plug (s : State) (p : Port) (i : TimerId) : ((s.disarm p i).port p).plug = (s.port p).plug := by
  rw [State.disarm_port]
  rfl

theorem State.cableTimersOff_port (s : State) (p : Port) :
    ∃ v, (s.cableTimersOff p).port p = { s.port p with pd := { (s.port p).pd with live := v } } := s.disarms_port p _

theorem State.cableTimersOff_onlyYard (s : State) (p : Port) : s.onlyPortYard p (s.cableTimersOff p) := (s.disarms_policyKept p _).1

/-- The first offer touches nothing of the plug. -/
theorem State.offer_plug (h : (s.port p).pd.src = .startup) : ((s.offer p).port p).plug = (s.port p).plug := by
  obtain ⟨v, r, l, hp⟩ := s.offerTry_port p 1
  have hv := State.offerTry_vdm h 1
  simp only [PortState.plug, State.offer, hv]
  rw [hp]

theorem State.eprFail_plug (s : State) (p : Port) (n : Nat) : ((s.eprFail p n).port p).plug = (s.port p).plug := by
  rw [State.eprFail, State.send_plug, State.onPd_port, State.disarm_port]
  rfl

theorem State.eprFail_onlyYard (s : State) (p : Port) (n : Nat) : s.onlyPortYard p (s.eprFail p n) :=
  ((s.disarm_onlyYard p _).trans (State.onPort_onlyYard _ p _)).trans (State.send_policyKept ..).1

/-- The answer to an entry that waited for the cable touches nothing of the plug, and no other port. -/
theorem State.eprAnswer_plug (s : State) (p : Port) :
    s.onlyPortYard p (s.eprAnswer p) ∧ ((s.eprAnswer p).port p).plug = (s.port p).plug := by
  have hy := (s.answering_dealKept p).1
  have hp : ((s.answering p).port p).plug = (s.port p).plug := by
    rw [State.answering_port]
    rfl
  have hf (n : Nat) : s.onlyPortYard p ((s.answering p).eprFail p n) ∧ (((s.answering p).eprFail p n).port p).plug = (s.port p).plug :=
    ⟨hy.trans (State.eprFail_onlyYard ..), (State.eprFail_plug ..).trans hp⟩
  unfold State.eprAnswer
  rw [show (s.onPd p fun d => { d with eprPend := false }) = s.answering p from rfl]
  extract_lets x s₁ s₂
  split
  · exact hf 4
  · split
    · exact hf 1
    · split
      · exact hf 0
      · have hy₂ : s.onlyPortYard p s₂ := (hy.trans (State.onPort_onlyYard _ p _)).trans (State.send_policyKept ..).1
        have hp₂ : (s₂.port p).plug = (s.port p).plug := by
          unfold s₂
          rw [State.send_plug, State.onPd_port, ← hp]
          rfl
        exact ⟨(hy₂.trans (State.disarm_onlyYard _ p _)).trans (State.send_policyKept ..).1,
          by rw [State.send_plug, State.disarm_plug, hp₂]⟩

/-- Discovery is over: the cable is as known then, and neither a first offer nor an answer that waited changes that. -/
theorem State.cableDone_spec (s : State) (p : Port) :
    s.onlyPortYard p (s.cableDone p fun s => s.eprAnswer p) ∧
      ((s.cableDone p fun s => s.eprAnswer p).port p).plug = (s.port p).plugDone := by
  unfold State.cableDone
  extract_lets s₁ s₂ x
  obtain ⟨v, hv⟩ := (s.disarm p .cableLimit).cableTimersOff_port p
  have hy : s.onlyPortYard p s₂ :=
    ((s.disarm_onlyYard p _).trans (State.cableTimersOff_onlyYard _ p)).trans (State.onPort_onlyYard _ p _)
  have hp : (s₂.port p).plug = (s.port p).plugDone := by
    unfold s₂ s₁
    rw [State.onPort_port_self, hv, State.disarm_port]
    rfl
  split
  · next hx =>
    exact ⟨hy.trans (State.offerTry_onlyYard ..), (State.offer_plug hx.1).trans hp⟩
  · split
    · exact ⟨hy.trans (s₂.eprAnswer_plug p).1, (s₂.eprAnswer_plug p).2.trans hp⟩
    · exact ⟨hy, hp⟩

/-! ## The steps (R180 to R182) -/

/-- An SOP′ attempt. -/
theorem State.cableTry_spec (hs : s.dev.stop = none) :
    s.onlyPortYard p (s.cableTry p) ∧
      ((s.cableTry p).port p).vdm = { (s.port p).vdm with
        tries := (s.port p).vdm.tries + 1, cab := .cableSop1, cabOut := some (discIdentityCmd (s.port p).vdm.cabVer), cabIntr := false } ∧
      (s.cableTry p).lastTx p = some ⟨.sop1, .cable, .vdm (discIdentityCmd (s.port p).vdm.cabVer)⟩ := by
  let u := (s.onVdm p fun m => { m with tries := m.tries + 1 }).onVdm p fun m => { m with
    cab := .cableSop1, cabOut := some (discIdentityCmd (s.port p).vdm.cabVer), cabIntr := false }
  have hy : s.onlyPortYard p u := (s.onPort_onlyYard p _).trans (State.onPort_onlyYard _ p _)
  have hsu : u.dev.stop = none := by rw [hy.2.1, hs]
  refine ⟨hy.trans (u.send_policyKept ..).1, ?_, State.send_lastTx hsu ..⟩
  rw [State.cableTry, State.cabSend, State.send_vdm]
  simp [State.onVdm]

theorem tvconnstableExpiry_spec (hon : s.timerOn h p .vconnStable) (hsrc : (s.port p).tc.isSrc = true)
    (hc : (s.port p).pd.cabled = false) :
    ∃ t, exec (.tvconnstableExpiry h p) s = .next t ∧ s.othersKept p t ∧ (t.port p).vdm.cab = .cableSop1 ∧
      (t.port p).vdm.st = (s.port p).vdm.st ∧ (t.port p).vdm.tries = 1 ∧
      t.lastTx p = some ⟨.sop1, .cable, .vdm (discIdentityCmd (s.port p).vdm.cabVer)⟩ := by
  obtain ⟨u, k, hv, he⟩ := hon.timerStep rfl (show exec (.tvconnstableExpiry h p) s = execTvconnstableExpiry h p s from rfl)
  obtain ⟨_, r, l, hp⟩ := k.port
  have hcu : (u.port p).pd.cabled = false := by rw [hp, hc]
  simp only [k.bmcRuns, hon.bmcRuns, k.tc, hsrc, hcu, Bool.not_false, Bool.and_self, if_true] at he
  let w := u.onVdm p fun m => { m with tries := 0 }
  have hw : (w.port p).vdm = { (s.port p).vdm with tries := 0 } := by rw [State.onVdm_vdm, hv]
  have hyw : s.onlyPortYard p w := k.1.trans (State.onPort_onlyYard _ p _)
  obtain ⟨hy, hvd, hl⟩ := State.cableTry_spec (s := w) (p := p) (by rw [hyw.2.1, hon.stop])
  rw [hw] at hvd hl
  refine ⟨_, he, fun q hq => (hyw.trans hy).1 q hq, ?_, ?_, ?_, hl⟩
  · rw [State.endStep_port, hvd]
  · rw [State.endStep_port, hvd]
  · rw [State.endStep_port, hvd]

theorem tdiscoveridentityExpiry_spec (hon : s.timerOn h p .discoverIdentity) (hcab : (s.port p).vdm.cab = .cableSop1) :
    ∃ t, exec (.tdiscoveridentityExpiry h p) s = .next t ∧ s.othersKept p t ∧
      (t.port p).vdm.tries = (s.port p).vdm.tries + 1 ∧
      t.lastTx p = some ⟨.sop1, .cable, .vdm (discIdentityCmd (s.port p).vdm.cabVer)⟩ := by
  obtain ⟨u, k, hv, he⟩ := hon.timerStep rfl (show exec (.tdiscoveridentityExpiry h p) s = execTdiscoveridentityExpiry h p s from rfl)
  simp only [k.bmcRuns, hon.bmcRuns, hv, hcab, and_self, if_true] at he
  obtain ⟨hy, hvd, hl⟩ := State.cableTry_spec (s := u) (p := p) (by rw [k.dev, hon.stop])
  rw [hv] at hvd hl
  refine ⟨_, he, fun q hq => (k.1.trans hy).1 q hq, ?_, hl⟩
  rw [State.endStep_port, hvd]

/-- What a port's last plug record says of the parts that the statement names. -/
theorem PortState.plug_eq {x y : PortState} (h : x.plug = y.plugDone) :
    x.pd.cable = y.pd.cable ∧ x.pd.cabled = true ∧ x.vdm = { y.vdm with cab := .idle, cabOut := none, cabIntr := false, tries := 0 } := by
  simpa only [PortState.plug, PortState.plugDone, Prod.mk.injEq] using h

/-- An ACK of a passive cable is what cable discovery ends with. -/
theorem cableDiscoverIdentityResponse_passive {v : Vdm} {i : Identity} (hon : s.msgOn h p ⟨.sop1, .vdm v⟩)
    (hans : (s.port p).vdm.cabAnswers .cableSop1 v = true) (hun : (s.port p).prot.unsent .cable = false) (ht : v.typ = .ack)
    (hb : v.body = .identity i) (hver : verOk v.ver = true) (hi : i.product = .passiveCable) :
    ∃ t, exec (.cableDiscoverIdentityResponse h p) s = .next t ∧ s.othersKept p t ∧ (t.port p).pd.cable = cableOf i ∧
      (t.port p).vdm.cable = pidVid i ∧ (t.port p).pd.cabled = true := by
  obtain ⟨u, k, hu, he⟩ := hon.step (row := .cableId)
    (show exec (.cableDiscoverIdentityResponse h p) s = execCableDiscoverIdentityResponse h p s from rfl) (by simp [rowOf, ht])
  obtain ⟨hvd, l, hpr⟩ := hu rfl
  have hun' : (u.port p).prot.unsent .cable = false := by rw [hpr, ← hun]; rfl
  simp only [hvd, hun', hans, ht, hb, hver, hi, Bool.not_true, Bool.or_self, Bool.false_eq_true, if_false, reduceCtorEq, decide_false,
    Bool.false_and] at he
  generalize hw : ((u.cableTimersOff p).onPort p fun x => { x with
    pd := { x.pd with cable := cableOf i }
    vdm := { x.vdm with cable := pidVid i, cabOut := none, cabVer := min x.vdm.cabVer v.ver } }) = w at he
  have hyw : s.onlyPortYard p w := hw ▸ (k.1.trans (u.cableTimersOff_onlyYard p)).trans (State.onPort_onlyYard _ p _)
  obtain ⟨hy, hd⟩ := w.cableDone_spec p
  obtain ⟨hc, hcd, hvc⟩ := PortState.plug_eq hd
  refine ⟨_, he, fun q hq => (hyw.trans hy).1 q hq, ?_, ?_, hcd⟩
  · rw [State.endStep_port, hc, ← hw, State.onPort_port_self]
  · rw [State.endStep_port, hvc, ← hw, State.onPort_port_self]

/-- Any answer on SOP″ is recorded, and discovery is over. -/
theorem sop2DiscoverIdentityResponse_spec {v : Vdm} (hon : s.msgOn h p ⟨.sop2, .vdm v⟩) (ht : v.typ ≠ .req)
    (hans : (s.port p).vdm.cabAnswers .cableSop2 v = true) (hun : (s.port p).prot.unsent .cable = false) :
    ∃ t, exec (.sop2DiscoverIdentityResponse h p) s = .next t ∧ s.othersKept p t ∧ (t.port p).pd.cabled = true ∧
      (t.port p).pd.cable = (s.port p).pd.cable ∧ (t.port p).vdm.cab = .idle ∧ (t.port p).vdm.sop2 = some v := by
  obtain ⟨u, k, hu, he⟩ := hon.step (row := .sop2Id)
    (show exec (.sop2DiscoverIdentityResponse h p) s = execSop2DiscoverIdentityResponse h p s from rfl) (by simp [rowOf, ht])
  obtain ⟨hvd, l, hpr⟩ := hu rfl
  have hun' : (u.port p).prot.unsent .cable = false := by rw [hpr, ← hun]; rfl
  simp only [hvd, hun', hans, Bool.not_false, Bool.and_self, if_true] at he
  obtain ⟨w, hkw, he⟩ : ∃ w, s.policyKept p w ∧ exec (.sop2DiscoverIdentityResponse h p) s =
      .next (((w.cableTimersOff p).onVdm p fun m => { m with sop2 := some v }).cableDone p fun s => s.eprAnswer p).endStep := by
    cases hty : v.typ with
    | req => exact absurd hty ht
    | ack => exact ⟨u, k, by simpa only [hty] using he⟩
    | nak => exact ⟨u.vdmCnt p 1, k.trans (u.vdmCnt_policyKept p 1), by simpa only [hty] using he⟩
    | busy => exact ⟨u.vdmCnt p 2, k.trans (u.vdmCnt_policyKept p 2), by simpa only [hty] using he⟩
  obtain ⟨d, r, l', hp⟩ := hkw.port
  obtain ⟨l'', ho⟩ := w.cableTimersOff_port p
  generalize hxe : (w.cableTimersOff p).onVdm p (fun m => { m with sop2 := some v }) = x at he
  have hx : x.port p = { w.port p with vdm := { (w.port p).vdm with sop2 := some v }, pd := { (w.port p).pd with live := l'' } } := by
    rw [← hxe, State.onVdm, State.onPort_port_self, ho]
  have hyx : s.onlyPortYard p x := hxe ▸ (hkw.1.trans (w.cableTimersOff_onlyYard p)).trans (State.onPort_onlyYard _ p _)
  obtain ⟨hy, hd⟩ := x.cableDone_spec p
  obtain ⟨hc, hcd, hvc⟩ := PortState.plug_eq hd
  refine ⟨_, he, (hyx.trans hy).1, hcd, ?_, ?_, ?_⟩
  · rw [State.endStep_port, hc, hx, hp]
  · rw [State.endStep_port, hvc]
  · rw [State.endStep_port, hvc, hx]

/-- Discovery that has run out of time before an answer on SOP′ assumes the cable. -/
theorem cableDiscoveryTimeLimit_spec (hon : s.timerOn h p .cableLimit) (hc : (s.port p).pd.cabled = false)
    (hcab : (s.port p).vdm.cab = .cableSop1) :
    ∃ t, exec (.cableDiscoveryTimeLimit h p) s = .next t ∧ s.othersKept p t ∧ (t.port p).pd.cabled = true ∧
      (t.port p).pd.cable = ⟨false, 0, 0, false⟩ := by
  obtain ⟨u, k, hv, he⟩ := hon.timerStep rfl (show exec (.cableDiscoveryTimeLimit h p) s = execCableDiscoveryTimeLimit h p s from rfl)
  obtain ⟨_, r, l, hp⟩ := k.port
  have hcu : (u.port p).pd.cabled = false := by rw [hp, hc]
  simp only [k.bmcRuns, hon.bmcRuns, hcu, Bool.not_false, Bool.and_self, if_true] at he
  generalize hw : ((u.disarm p .vconnStable).cableTimersOff p).onProt p (fun t => t.withdraw (· = .cable)) = w at he
  obtain ⟨l', ho⟩ := (u.disarm p .vconnStable).cableTimersOff_port p
  have hyw : s.onlyPortYard p w :=
    hw ▸ ((k.1.trans (u.disarm_onlyYard p _)).trans (State.cableTimersOff_onlyYard _ p)).trans (State.onPort_onlyYard _ p _)
  have hwv : (w.port p).vdm = (s.port p).vdm := by
    rw [← hw, State.onProt, State.onPort_port_self, ho, State.disarm_port, ← hv]
  simp only [hwv, hcab, reduceCtorEq, if_false] at he
  rw [State.cableFailed] at he
  generalize hxe : (w.onPd p fun d => { d with cable := ⟨false, 0, 0, false⟩ }).vdmEvt p 6 = x at he
  have hx : (x.port p).pd.cable = ⟨false, 0, 0, false⟩ := by
    rw [← hxe, State.vdmEvt, State.onPort_port_self, State.onPd_port]
  have hyx : s.onlyPortYard p x := hxe ▸ hyw.trans ((State.onPort_onlyYard _ p _).trans (State.onPort_onlyYard _ p _))
  obtain ⟨hy, hd⟩ := x.cableDone_spec p
  obtain ⟨hcx, hcd, -⟩ := PortState.plug_eq hd
  refine ⟨_, he, (hyx.trans hy).1, hcd, ?_⟩
  rw [State.endStep_port, hcx, hx]

/-- Settles O30: an attempt is `cableTry`, and every end of discovery goes through `cableDone`, after which the plug's record stands. -/
theorem cableDiscovery : Obligations.CableDiscovery := by
  unfold Obligations.CableDiscovery
  exact fun s h p v i => ⟨tvconnstableExpiry_spec, tdiscoveridentityExpiry_spec, cableDiscoverIdentityResponse_passive,
    sop2DiscoverIdentityResponse_spec, cableDiscoveryTimeLimit_spec⟩

end Sys2Proof.Machine
end

section
/-! SUPPORT. The obligation on the yard's records and on the hand's choice (R129 to R133). -/

namespace Sys2Proof.Machine

variable {s : State} {p : Port}

/-! ## The arbiter's one request (R41, R131) -/

/-- A grant whose requester is picked and finds its record. -/
theorem Hnd.grant_of {y : Hnd} {r : YardReq} {k : Nat} {b : Bool} (us : Nat) (hy : y.prune.noteFull = y)
    (hk : rrPick y.ptr 64 y.ripe = some k) (hr : ({ y with ptr := ptrAfter 64 k } : Hnd).head k = some r)
    (hb : ({ y with ptr := ptrAfter 64 k } : Hnd).recFor r = some b) :
    y.grant us = ({ y with ptr := ptrAfter 64 k } : Hnd).accept r b us := by
  delta Hnd.grant
  simp only [hy, hk, hr, hb]

/-- The request is no expiry of a timer, which would bring its own record. -/
def YardReq.isCause (r : YardReq) : Bool := match r.ev with | .timer _ _ => false | _ => true

section
variable {y : Hnd} {r : YardReq} (hr : y.reqs = [r]) (hev : r.isCause = true)
  (hp : r.port = some p) (hu : y.ownUsed p < 128)
include hr

theorem Hnd.head_one (k : Nat) : y.head k = if r.from' = k then some r else none := by
  by_cases hk : r.from' = k <;> simp [Hnd.head, hr, hk]

include hev

theorem Hnd.prune_one : y.prune = y := by
  have hk : y.prune.reqs = y.reqs := by
    refine List.filter_eq_self.2 fun q hq => ?_
    obtain rfl := List.mem_singleton.1 (hr ▸ hq)
    split
    · next heq => simp [YardReq.isCause, heq] at hev
    · rfl
  show { y with reqs := y.prune.reqs } = y
  rw [hk]

omit hr

include hp hu

/-- A request that is no expiry takes one of its port's own records. -/
theorem Hnd.recFor_own : y.recFor r = some false := by
  unfold Hnd.recFor
  split
  · next heq => simp [YardReq.isCause, heq] at hev
  · rw [hp, Hnd.findRec, if_pos hu]

include hr

theorem Hnd.noteFull_one : y.noteFull = y := by
  refine List.foldl_fixed' (fun k => ?_) _
  rw [Hnd.head_one hr]
  by_cases hk : r.from' = k
  · simp [hk, Hnd.recFor_own hev hp hu]
  · simp [hk]

theorem Hnd.ripe_one (ht : ∀ t ∈ y.timers, t.place ≠ none) (k : Nat) : y.ripe k = decide (r.from' = k) := by
  have hw : y.waiter = none := by
    refine List.findSome?_eq_none_iff.2 fun t hmem => ?_
    rw [if_pos (Option.isSome_iff_ne_none.2 (ht t hmem))]
  rw [Hnd.ripe, Hnd.head_one hr, hw]
  by_cases hk : r.from' = k
  · simp [hk, Hnd.recFor_own hev hp hu]
  · simp [hk]

/-- The one request is granted. -/
theorem Hnd.grant_one (ht : ∀ t ∈ y.timers, t.place ≠ none) (hf : r.from' < 64) (us : Nat) :
    y.grant us = { y with ptr := ptrAfter 64 r.from' }.accept r false us := by
  have hpick : rrPick y.ptr 64 y.ripe = some r.from' := by
    have hw := rrPick_one y.ptr (⟨r.from', hf⟩ : Fin 64)
    have he : y.ripe = fun k => [(⟨r.from', hf⟩ : Fin 64)].any fun w => w.val = k := by
      funext k
      rw [Hnd.ripe_one hr hev hp hu ht]
      simp
    rw [he, hw]
  exact Hnd.grant_of us (by rw [Hnd.prune_one hr hev, Hnd.noteFull_one hr hev hp hu]) hpick
    ((Hnd.head_one hr _).trans (if_pos rfl)) (Hnd.recFor_own hev hp hu)

end

theorem yardEventAccept_one {r : YardReq} (hrun : s.running = true) (hr : s.hnd.reqs = [r]) (hf : r.from' < 64) (hp : r.port = some p)
    (hev : r.isCause = true) (hu : s.hnd.ownUsed p < 128)
    (ht : ∀ y ∈ s.hnd.timers, y.place ≠ none) :
    ∃ t, exec .yardEventAccept s = .next t ∧ t = { s with hnd := t.hnd } ∧ t.hnd.reqs = [] ∧
      t.hnd.ready = s.hnd.ready ++ [⟨r.port, r.cls, r.ev, false, BitVec.ofNat 24 s.dev.us, false⟩] ∧
      t.hnd.ptr = (r.from' + 1) % 64 := by
  have he : exec .yardEventAccept s = .next { s with hnd := s.hnd.grant s.dev.us } :=
    show execYardEventAccept s = _ by rw [execYardEventAccept, if_pos hrun]
  rw [Hnd.grant_one hr hev hp hu ht hf] at he
  refine ⟨_, he, rfl, ?_, rfl, rfl⟩
  simp [Hnd.accept, Hnd.mark, hr]

/-! ## An expiry (R132) -/

/-- XREF time that passes up to an EXPIRY reaches it. -/
theorem reached_wait (us : Nat) (e : Word) : reached (us + (e - BitVec.ofNat 32 us).toNat) e = true := by
  have h : BitVec.ofNat 32 (us + (e - BitVec.ofNat 32 us).toNat) = e := by
    rw [BitVec.ofNat_add, BitVec.ofNat_toNat, BitVec.setWidth_eq]
    bv_omega
  rw [reached, h]
  simp

theorem yardTimerExpiry_asks {x : TimerRec} (hrun : s.running = true) (ht : s.hnd.timers = [x]) (hx : x.place ≠ none)
    (hr : s.hnd.reqs = []) :
    ∃ t, exec (.yardTimerExpiry x.port x.id) s = .next t ∧ reached t.dev.us x.expiry = true ∧
      t.hnd.reqs = [⟨50, some x.port, 2, .timer x.id x.tag, false⟩] ∧ t.ports = s.ports := by
  let u := if reached s.dev.us x.expiry then s else s.pass (x.expiry - BitVec.ofNat 32 s.dev.us).toNat true
  obtain ⟨hu, hh, hports⟩ : reached u.dev.us x.expiry = true ∧ u.hnd = s.hnd ∧ u.ports = s.ports := by
    unfold u
    split
    · next hd => exact ⟨hd, rfl, rfl⟩
    · exact ⟨reached_wait .., rfl, rfl⟩
  have hfind : s.hnd.timers.find? (isTimer x.port x.id) = some x := by simp [ht, isTimer]
  have hask : (x.place.isSome && !u.hnd.reqs.any fun q => decide (q.ev = .timer x.id x.tag)) = true := by
    simp [Option.isSome_iff_ne_none.2 hx, hh, hr]
  have he : exec (.yardTimerExpiry x.port x.id) s = .next (u.post 50 (some x.port) 2 (.timer x.id x.tag)) :=
    show execYardTimerExpiry x.port x.id s = _ by
      simp only [execYardTimerExpiry, hrun, hfind, Bool.not_true, Bool.false_eq_true, if_false]
      exact if_pos hask
  refine ⟨_, he, hu, ?_, hports⟩
  rw [State.post, hh, hr]
  rfl

/-! ## A hand's choice (R133) -/

theorem earliest_append (l : List YardRec) (r : YardRec) : earliest (l ++ [r]) = match earliest l with
    | none => some r
    | some b => if r.cls < b.cls then some r else some b := by
  rw [earliest, List.foldl_append]
  rfl

theorem earliest_eq_none {l : List YardRec} (h : earliest l = none) : l = [] := by
  induction l using List.reverseRecOn with
  | nil => rfl
  | append_singleton l r =>
    rw [earliest_append] at h
    split at h
    · cases h
    · split at h <;> cases h

/-- The earliest is one of the records, and none has a lower class. -/
theorem earliest_spec {l : List YardRec} {b : YardRec} (h : earliest l = some b) : b ∈ l ∧ ∀ r ∈ l, b.cls ≤ r.cls := by
  induction l using List.reverseRecOn generalizing b with
  | nil => cases h
  | append_singleton l r ih =>
    rw [earliest_append] at h
    split at h
    · next hn =>
      obtain rfl := Option.some.inj h
      simp [earliest_eq_none hn]
    · next a ha =>
      obtain ⟨hmem, hle⟩ := ih ha
      split at h
      · next hlt =>
        obtain rfl := Option.some.inj h
        refine ⟨by simp, fun q hq => ?_⟩
        rcases List.mem_append.1 hq with hq | hq
        · exact hlt.le.trans (hle q hq)
        · rw [List.mem_singleton.1 hq]
      · next hge =>
        obtain rfl := Option.some.inj h
        refine ⟨by simp [hmem], fun q hq => ?_⟩
        rcases List.mem_append.1 hq with hq | hq
        · exact hle q hq
        · rw [List.mem_singleton.1 hq]
          omega

section
variable {y : Hnd} {h : Hand} {r z : YardRec}

/-- The record is of one of the hand's home ports. -/
theorem atHome_iff : (match r.port with | some p => decide (homeHand p = h.val) | none => false) = true ↔
    ∃ q, r.port = some q ∧ homeHand q = h.val := by
  cases r.port <;> simp

/-- What a hand takes: class 0 before all else, its home ports' lowest class before what others have. -/
theorem Hnd.choose_spec (hc : y.choose h = some r) :
    r ∈ y.ready ∧ (z ∈ y.ready → z.cls = 0 → r.cls = 0) ∧
      (z ∈ y.ready → r.cls ≠ 0 → (∃ q, z.port = some q ∧ homeHand q = h.val) →
        (∃ q, r.port = some q ∧ homeHand q = h.val) ∧ r.cls ≤ z.cls) := by
  unfold Hnd.choose at hc
  split at hc
  · next a ha =>
    obtain rfl := Option.some.inj hc
    have h0 : a.cls = 0 := by simpa using List.find?_some ha
    exact ⟨List.mem_of_find?_eq_some ha, fun _ _ => h0, fun _ hne => absurd h0 hne⟩
  · next hn =>
    have h0 : ∀ z ∈ y.ready, z.cls ≠ 0 := by simpa using List.find?_eq_none.1 hn
    split at hc
    · next a ha =>
      obtain rfl := Option.some.inj hc
      obtain ⟨hmem, hle⟩ := earliest_spec ha
      obtain ⟨hr, hhome⟩ := List.mem_filter.1 hmem
      exact ⟨hr, fun hz hz0 => absurd hz0 (h0 _ hz),
        fun hz _ hh => ⟨atHome_iff.1 hhome, hle z (List.mem_filter.2 ⟨hz, atHome_iff.2 hh⟩)⟩⟩
    · next ha =>
      obtain ⟨hr, -⟩ := earliest_spec hc
      refine ⟨hr, fun hz hz0 => absurd hz0 (h0 _ hz), fun hz _ hh => ?_⟩
      exact absurd (atHome_iff.2 hh) (List.filter_eq_nil_iff.1 (earliest_eq_none ha) _ hz)

theorem Hnd.choose_eq_none (hc : y.choose h = none) : y.ready = [] := by
  unfold Hnd.choose at hc
  split at hc
  · cases hc
  · split at hc
    · cases hc
    · exact earliest_eq_none hc

end

/-- Settles O35: the arbiter's one request is granted as it stands, and a hand's choice is the least of the records it ranks first. -/
theorem yardAndHands : Obligations.YardAndHands := by
  unfold Obligations.YardAndHands
  exact fun s p r x h y z => ⟨yardEventAccept_one, yardTimerExpiry_asks, Hnd.choose_spec, Hnd.choose_eq_none⟩

end Sys2Proof.Machine
end

section
/-! SUPPORT. The obligation on the timers that lead to Hard Reset: what its beginning leaves of the port, and ErrorRecovery in its place
at the count of 2 (R161, R162). -/

namespace Sys2Proof.Machine

variable {s t u : State} {p q : Port} {h : Hand}

/-! ## The beginning of a Hard Reset -/

/-- The connection machine once a Hard Reset has begun: a source has removed VCONN, a sink keeps its own. -/
def Tc.begun (x : Tc) (aon : Nat) : Tc := if x.isSnk then x else x.vconnOff aon

theorem Tc.begun_st (x : Tc) (aon : Nat) : (x.begun aon).st = x.st := by
  unfold Tc.begun
  split <;> rfl

theorem Tc.begun_vconn (x : Tc) (aon : Nat) : (x.begun aon).vconn = (x.isSnk && x.vconn) := by
  unfold Tc.begun
  split
  · next h => rw [h, Bool.true_and]
  · next h => rw [Bool.eq_false_iff.2 h]; rfl

theorem State.endMode_policyKept (s : State) (p : Port) : s.policyKept p (s.endMode p) := by
  unfold State.endMode
  extract_lets was s₁ s₂
  have h₂ : s.policyKept p s₂ := (s.disarms_policyKept p _).trans (s₁.onPort_policyKept p rfl)
  exact State.policyKept_ite (h₂.trans (s₂.vdmEvt_policyKept p 2)) h₂

/-- A Hard Reset that begins ends the contract; its count is not yet taken. -/
theorem State.hrBegin_spec (s : State) (p : Port) :
    ((s.hrBegin p).port p).tc = (s.port p).tc.begun s.dev.aon ∧ ((s.hrBegin p).port p).pd.contract = none ∧
      ((s.hrBegin p).port p).pd.hrc = (s.port p).pd.hrc := by
  unfold State.hrBegin
  extract_lets x s₁ s₂ s₃ s₄
  obtain ⟨v, r, l, hp⟩ := (s.endMode_policyKept p).port
  have haon : s₂.dev.aon = s.dev.aon := by
    have hy := (s.endMode_onlyYard p).trans ((s.endMode p).disarmAll_onlyYard p)
    have hm : s₂.dev = s₁.dev := by unfold s₂ State.muxUpdate; split <;> rfl
    rw [hm, hy.2.1]
  obtain ⟨htc, hcon, hhrc⟩ : (s₃.port p).tc = (s.port p).tc.begun s.dev.aon ∧ (s₃.port p).pd.contract = none ∧
      (s₃.port p).pd.hrc = (s.port p).pd.hrc := by
    unfold s₃
    rw [State.onPort_port_self, haon]
    unfold s₂ s₁
    rw [State.muxUpdate_port, State.disarmAll_port, hp]
    exact ⟨rfl, rfl, rfl⟩
  have hthrough {w : State} (hv : w.viewOf p = (s₃.onPd p fun d => { d with src := .hardReset, hr := .off }).viewOf p) :
      (w.port p).tc = (s.port p).tc.begun s.dev.aon ∧ (w.port p).pd.contract = none ∧ (w.port p).pd.hrc = (s.port p).pd.hrc := by
    have hpd := congrArg Pd.hrc (State.pd_of_viewOf hv)
    rw [State.tc_of_viewOf hv, State.contract_of_viewOf hv]
    refine ⟨?_, ?_, hpd.trans ?_⟩ <;> rw [State.onPd_port] <;> assumption
  split
  · split
    · exact hthrough (State.offerDue_viewOf (sibOf_ne p))
    · exact hthrough rfl
  · next hsrc =>
    let f (s : State) : State := s.onPd p fun d => { d with snk := .hardReset, snkHr := true, inflow := 0 }
    have hf : ((f s₃).port p).tc = (s.port p).tc.begun s.dev.aon ∧ ((f s₃).port p).pd.contract = none ∧
        ((f s₃).port p).pd.hrc = (s.port p).pd.hrc := by
      unfold f
      rw [State.onPd_port]
      exact ⟨htc, hcon, hhrc⟩
    have hns : ((f s₃).port p).tc.isSrc = false := by
      rw [hf.1]
      simpa [Tc.isSrc, Tc.begun_st] using hsrc
    have hv : (s₃.ledgerOf p f).viewOf p = (f s₃).viewOf p := State.ledgerOf_viewOf hns
    have hpd := congrArg Pd.hrc (State.pd_of_viewOf hv)
    exact ⟨(State.tc_of_viewOf hv).trans hf.1, (State.contract_of_viewOf hv).trans hf.2.1, hpd.trans hf.2.2⟩

/-- ErrorRecovery in a Hard Reset's place leaves neither contract nor charge. -/
theorem State.toErrRecov_spec (s : State) (p : Port) :
    ((s.toErrRecov p).port p).tc.st = .errRecov ∧ ((s.toErrRecov p).port p).pd.contract = none ∧
      ((s.toErrRecov p).port p).pd.charge = 0 := by
  have hp : ((s.errRecov p).port p).tc.st = .errRecov ∧ ((s.errRecov p).port p).pd.contract = none ∧
      ((s.errRecov p).port p).pd.charge = 0 := by
    obtain ⟨hcon, hch, -⟩ := s.leave_left p .errRecov
    simp [State.errRecov, State.tcEvt, State.tcCnt, State.leave_st, hcon, hch]
  have hns : ((s.errRecov p).port p).tc.isSrc = false := by simp [Tc.isSrc, hp.1]
  have hl : (s.ledgerOf p fun s => s.errRecov p).viewOf p = (s.errRecov p).viewOf p :=
    State.ledgerOf_viewOf (f := fun s => s.errRecov p) hns
  have hv : (s.toErrRecov p).viewOf p = (s.errRecov p).viewOf p := (State.twinFreed_viewOf (State.isSrc_of_viewOf hl hns)).trans hl
  rw [State.tc_of_viewOf hv, State.contract_of_viewOf hv, State.charge_of_viewOf hv]
  exact hp

/-- A Hard Reset waits to be sent, or, at the count of 2, ErrorRecovery is entered (R161). -/
theorem State.hardReset_spec (hs : s.dev.stop = none) :
    ((s.hardReset p).port p).pd.contract = none ∧
      if (s.port p).pd.hrc < 2 then
        ((s.hardReset p).port p).prot.hrWait = true ∧ ((s.hardReset p).port p).pd.hrc = (s.port p).pd.hrc + 1 ∧
          ((s.hardReset p).port p).tc.st = (s.port p).tc.st ∧
          ((s.hardReset p).port p).tc.vconn = ((s.port p).tc.isSnk && (s.port p).tc.vconn)
      else ((s.hardReset p).port p).tc.st = .errRecov ∧ ((s.hardReset p).port p).pd.charge = 0 := by
  by_cases hc : (s.port p).pd.hrc < 2
  · obtain ⟨htc, hcon, hhrc⟩ := s.hrBegin_spec p
    have hp : ((s.hardReset p).port p).pd.contract = none ∧ ((s.hardReset p).port p).prot.hrWait = true ∧
        ((s.hardReset p).port p).pd.hrc = (s.port p).pd.hrc + 1 ∧ ((s.hardReset p).port p).tc = (s.port p).tc.begun s.dev.aon := by
      rw [State.hardReset, if_neg (by simp [hs]), if_neg (by omega)]
      simp [State.pdEvt, State.pdCnt, Prot.hardReset, htc, hcon, hhrc]
    obtain ⟨hcon', hw, hhrc', htc'⟩ := hp
    rw [if_pos hc, htc', Tc.begun_st, Tc.begun_vconn]
    exact ⟨hcon', hw, hhrc', rfl, rfl⟩
  · obtain ⟨hst, hcon, hch⟩ := s.toErrRecov_spec p
    have he : s.hardReset p = s.toErrRecov p := by rw [State.hardReset, if_neg (by simp [hs]), if_pos (by omega)]
    rw [if_neg hc, he]
    exact ⟨hcon, hst, hch⟩

/-! ## The timers (R147, R148, R151, R153, R158, R161, R167) -/

/-- An expiry whose step is a Hard Reset of a port that still stands at what it had with its partner. -/
theorem State.timerOn.resets {i : TimerId} (hon : s.timerOn h p i) (hb : timerBound i = false) {c : Instr} {f : State → State}
    (hc : exec c s = s.onTimer h p i f) (hf : ∀ u, s.policyKept p u → ∃ w, s.dealKept p w ∧ f u = w.hardReset p) :
    ∃ t, exec c s = .next t ∧ (t.port p).pd.contract = none ∧
      (if (s.port p).pd.hrc < 2 then (t.port p).prot.hrWait = true ∧ (t.port p).pd.hrc = (s.port p).pd.hrc + 1 ∧
          (t.port p).tc.st = (s.port p).tc.st ∧ (t.port p).tc.vconn = ((s.port p).tc.isSnk && (s.port p).tc.vconn)
       else (t.port p).tc.st = .errRecov ∧ (t.port p).pd.charge = 0) := by
  obtain ⟨u, k, -, he⟩ := hon.step hb hc
  obtain ⟨w, kw, hw⟩ := hf u k
  rw [hw] at he
  have hhrc : (w.port p).pd.hrc = (s.port p).pd.hrc := congrArg (·.2.2.2) kw.2
  have hspec := State.hardReset_spec (s := w) (p := p) (by rw [kw.dev, hon.stop])
  rw [hhrc, kw.tc] at hspec
  refine ⟨_, he, ?_⟩
  rw [State.endStep_port]
  exact hspec

/-- Settles O27: each of these expiries finds its port as it stood, counts what it counts, and begins the same Hard Reset. -/
theorem timersReset : Obligations.TimersReset := by
  unfold Obligations.TimersReset
  rintro s h p i c (⟨rfl, hon, hsrc, hst⟩ | ⟨rfl, hon, hst⟩ | ⟨rfl, hon, hsnk, hst⟩ | ⟨rfl, hon, hsnk, hst⟩ | ⟨rfl, hon, hcon, hk⟩ |
    ⟨rfl, hon, hepr⟩ | ⟨rfl, hon, hv⟩ | ⟨rfl, hon, hsh⟩)
  · refine hon.resets rfl (show exec (.senderResponseTimerExpiry h p) s = execSenderResponseTimerExpiry h p s from rfl) fun u k => ?_
    obtain ⟨v, r, l, hp⟩ := k.port
    refine ⟨u.pdCnt p 11, k.dealKept.trans (u.pdCnt_dealKept p 11), if_pos ?_⟩
    simp [hp, hsrc, hst]
  · refine hon.resets rfl (show exec (.transitionLimitExpiry h p) s = execTransitionLimitExpiry h p s from rfl) fun u k => ?_
    obtain ⟨v, r, l, hp⟩ := k.port
    exact ⟨_, k.dealKept.trans ((u.pdEvt_dealKept p 15).trans (State.pdCnt_dealKept _ p 9)), if_pos (by rw [hp, hst])⟩
  · refine hon.resets rfl (show exec (.sinkWaitCapTimerExpiry h p) s = execSinkWaitCapTimerExpiry h p s from rfl) fun u k => ?_
    obtain ⟨v, r, l, hp⟩ := k.port
    exact ⟨u, k.dealKept, if_pos (by rw [hp]; exact ⟨hsnk, hst⟩)⟩
  · refine hon.resets rfl (show exec (.psTransitionTimerExpiry h p) s = execPsTransitionTimerExpiry h p s from rfl) fun u k => ?_
    obtain ⟨v, r, l, hp⟩ := k.port
    exact ⟨u, k.dealKept, if_pos (by rw [hp]; exact ⟨hsnk, hst⟩)⟩
  · refine hon.resets rfl (show exec (.tppstimeoutExpiry h p) s = execTppstimeoutExpiry h p s from rfl) fun u k => ?_
    obtain ⟨v, r, l, hp⟩ := k.port
    refine ⟨_, k.dealKept.trans ((u.pdEvt_dealKept p 14).trans (State.pdCnt_dealKept _ p 11)), ?_⟩
    simp only [hp, hcon, hk, if_true]
  · refine hon.resets rfl (show exec (.tsourceeprkeepaliveExpiry h p) s = execTsourceeprkeepaliveExpiry h p s from rfl) fun u k => ?_
    obtain ⟨v, r, l, hp⟩ := k.port
    exact ⟨_, k.dealKept.trans (u.pdEvt_dealKept p 13), if_pos (by rw [hp]; simp [Pd.eprMsgs, hepr])⟩
  · refine hon.resets rfl (show exec (.tvconnsourceonExpiry h p) s = execTvconnsourceonExpiry h p s from rfl) fun u k => ?_
    obtain ⟨w, r, l, hp⟩ := k.port
    exact ⟨u, k.dealKept, if_pos (by rw [hp, hv])⟩
  · refine hon.resets rfl (show exec (.shedLimitExpiry h p) s = execShedLimitExpiry h p s from rfl) fun u k => ?_
    obtain ⟨v, r, l, hp⟩ := k.port
    exact ⟨u, k.dealKept, if_pos (by rw [hp, hsh])⟩

end Sys2Proof.Machine
end

section
/-! SUPPORT. The obligations on the course of a Hard Reset and on the steps inside a power transition. -/

namespace Sys2Proof.Machine

variable {s t u : State} {p q : Port} {h : Hand}

theorem Tc.isSnk_of_isSrc {x : Tc} (hx : x.isSrc = true) : x.isSnk = false := by
  rw [Tc.isSrc, decide_eq_true_eq] at hx
  simp [Tc.isSnk, hx]

theorem State.endStep_armed (s : State) (p : Port) (i : TimerId) : s.endStep.armed p i = s.armed p i := rfl

/-! ## VBC measured (R196, R214) -/

/-- A measured VBC is the port's own stage and sluice. -/
theorem State.seeVbc_port (s : State) (p : Port) (mv : Nat) : ∃ m c, (s.seeVbc p mv).port p =
    { s.port p with stg := { (s.port p).stg with meas := m }, slc := c } := by
  rw [State.seeVbc, State.onPort_port_self]
  exact ⟨_, _, rfl⟩

theorem State.seeVbc_onlyYard (s : State) (p : Port) (mv : Nat) : s.onlyPortYard p (s.seeVbc p mv) := s.onPort_onlyYard p _

/-! ## Steps of a source (R162) -/

/-- Step 2, with something left to discharge. -/
theorem tpshardresetExpiry_source (hon : s.timerOn h p .psHardReset) (hsrc : (s.port p).tc.isSrc = true) (hhr : (s.port p).pd.hr = .off)
    (hslc : (s.port p).slc.st ≠ .off ∨ (s.port p).slc.low0 = false) :
    ∃ t, exec (.tpshardresetExpiry h p) s = .next t ∧ s.othersKept p t ∧ (t.port p).pd.hr = .discharge ∧
      (t.port p).pd.stgq = (s.port p).pd.stgq ++ [.target 0] ∧ (t.port p).pd.slcq = (s.port p).pd.slcq ++ [.off] := by
  obtain ⟨u, k, -, he⟩ := hon.step rfl (show exec (.tpshardresetExpiry h p) s = execTpshardresetExpiry h p s from rfl)
  obtain ⟨v, r, l, hp⟩ := k.port
  generalize hw : ((((u.stgCmd p (.target 0)).slcCmd p .off).onPd p fun d => { d with hr := .discharge }).arm p .safe0V) = w at he
  obtain ⟨l', hwp⟩ : ∃ l', w.port p = { s.port p with vdm := v, prot := r, pd := { (s.port p).pd with
      stgq := (s.port p).pd.stgq ++ [.target 0], slcq := (s.port p).pd.slcq ++ [.off], hr := .discharge, live := l' } } := by
    rw [← hw, State.arm_port, State.onPd_port, State.slcCmd, State.onPort_port_self, State.stgCmd, State.onPort_port_self, hp]
    exact ⟨_, rfl⟩
  have hy : s.onlyPortYard p w := hw ▸ k.1.trans ((u.onPort_onlyYard p _).trans <| (State.onPort_onlyYard _ p _).trans <|
    (State.onPort_onlyYard _ p _).trans (State.arm_onlyYard _ p _))
  have hleft : ¬ ((w.port p).slc.st = .off ∧ (w.port p).slc.low0 = true) := by
    rw [hwp]
    rintro ⟨h₁, h₂⟩
    rcases hslc with hslc | hslc
    · exact hslc h₁
    · exact absurd h₂ (by simp [hslc])
  have hnb : ((u.port p).tc.isSnk && (u.port p).pd.snkHr) = false := by rw [k.tc, Tc.isSnk_of_isSrc hsrc, Bool.false_and]
  have hb : ((u.port p).tc.isSrc && decide ((u.port p).pd.hr = .off)) = true := by rw [k.tc, hsrc, hp]; simp [hhr]
  rw [hnb, hb, if_neg hleft] at he
  refine ⟨w.endStep, he, fun q hq => hy.1 q hq, ?_, ?_, ?_⟩ <;> rw [State.endStep_port, hwp]

/-- A port whose charge has come down to n. -/
def PortState.discharged (x : PortState) (n : Nat) : PortState :=
  { x with pd := { x.pd with charge := min x.pd.charge n, pledge := 0, cut := 0, shed := false, hr := .recover } }

/-- Step 3: in a device that no deficit presses the charge comes down to the default, and nothing else is pressed. -/
theorem State.hrDischarged_spec (hsrc : (s.port p).tc.isSrc = true) (hon : s.cisOn = true) (hc : s.calm) :
    ((s.hrDischarged p).port p).pd.hr = .recover ∧ (s.hrDischarged p).armed p .srcRecover ∧
      ((s.hrDischarged p).port p).pd.charge = min (s.port p).pd.charge (defaultCharge (s.port p).cfg.rp) ∧
      ((s.hrDischarged p).port p).pd.pledge = 0 := by
  unfold State.hrDischarged
  extract_lets n s₁
  have hfree : s.free ≤ (s.onPort p (·.discharged n)).free := by
    have hsum := State.free_onPort (s := s) (p := p) (f := (·.discharged n)) hon rfl
    have hle : ((s.port p).discharged n).pd.charge ≤ (s.port p).pd.charge := Nat.min_le_left ..
    have hz : ((s.port p).discharged n).pd.pledge = 0 := rfl
    omega
  obtain ⟨c, hl⟩ : ∃ c, s₁ = { s.onPort p (·.discharged n) with cis := c } :=
    State.ledgerOf_calm (p := p) (f := fun s => s.onPort p (·.discharged n)) hc rfl hfree
  have hp : s₁.port p = (s.port p).discharged n := by
    rw [hl]
    exact s.onPort_port_self p (·.discharged n)
  rw [if_pos (by rw [hp]; exact hsrc)]
  refine ⟨?_, State.arm_armed .., ?_, ?_⟩ <;> rw [State.arm_port, State.disarm_port, hp] <;> rfl

/-- A hand's command on an event from which something follows runs its step on the state as it was. -/
theorem State.handOn.step {c : EvCode} (hon : s.handOn h p c) (hs : ∀ r : YardRec, r.ev = c → r.dead = false → r.silent = false)
    {i : Instr} {e : EvCode → Bool} {f : EvCode → State → State} (hi : exec i s = s.handStep h (some p) e f) (he : e c = true) :
    ∃ u, s.policyKept p u ∧ (∀ q, u.port q = s.port q) ∧ exec i s = .next (f c u).endStep := by
  obtain ⟨y, d, -, hx⟩ := hon.handStep hs he f
  exact ⟨{ s with hnd := y, draws := d }, ⟨⟨fun _ _ => rfl, s.globalsKept_refl⟩, rfl⟩, fun _ => rfl, hi.trans hx⟩

theorem sluiceStateChange_discharged (hon : s.handOn h p .sluice) (hsrc : (s.port p).tc.isSrc = true)
    (hhr : (s.port p).pd.hr = .discharge) (hst : (s.port p).slc.st = .off) (hlow : (s.port p).slc.low0 = true) (hc : s.calm) :
    ∃ t, exec (.sluiceStateChange h p) s = .next t ∧ (t.port p).pd.hr = .recover ∧ t.armed p .srcRecover ∧
      (t.port p).pd.charge = min (s.port p).pd.charge (defaultCharge (s.port p).cfg.rp) ∧ (t.port p).pd.pledge = 0 := by
  obtain ⟨u, k, hp, he⟩ := hon.step (fun r hr hd => by simp [YardRec.silent, hr, hd])
    (show exec (.sluiceStateChange h p) s = execSluiceStateChange h p s from rfl) (by simp)
  let v := u.onPd p fun d => { d with lost := false }
  have kv : s.dealKept p v := k.dealKept.trans (u.onPd_dealKept p)
  have hv : v.port p = { s.port p with pd := { (s.port p).pd with lost := false } } := by
    unfold v
    rw [State.onPd_port, hp]
  have hvon : v.cisOn = true := by rw [State.cisOn, kv.dev]; exact hon.cisOn
  have hspec := State.hrDischarged_spec (s := v) (p := p) (by rw [hv, hsrc]) hvon (kv.calm hc)
  have hx : exec (.sluiceStateChange h p) s = .next (v.hrDischarged p).endStep := by
    simpa only [k.bmcRuns, hon.1, hp, Tc.isSnk_of_isSrc hsrc, hhr, hst, hlow, Bool.not_true, Bool.false_eq_true, if_false, reduceCtorEq,
      ne_eq, not_false_eq_true, if_true, and_self] using he
  rw [hv] at hspec
  refine ⟨_, hx, ?_⟩
  rw [State.endStep_armed, State.endStep_port]
  exact hspec

theorem State.limitsNow_sibAttached (s : State) (p : Port) : (s.limitsNow p).sibAttached p = s.sibAttached p := by
  obtain ⟨o, e, hl⟩ := s.limitsFor_port p p (s.port p).pd.contract false
  obtain ⟨o', e', hl'⟩ := s.limitsFor_port p (sibOf p) (s.port p).pd.contract false
  rw [State.limitsNow, State.sibAttached, hl, hl', State.sibAttached]

/-- The limits, the start of the stage and the sluice's on request, commanded in a row. -/
theorem State.startOutput_port (s : State) (p : Port) (c : StgCmd) :
    ((((s.limitsNow p).stgCmd p c).slcCmd p .on).port p).pd.hr = (s.port p).pd.hr ∧
      ((((s.limitsNow p).stgCmd p c).slcCmd p .on).port p).pd.stgq = (s.port p).pd.stgq ++ [c] ∧
      ((((s.limitsNow p).stgCmd p c).slcCmd p .on).port p).pd.slcq.getLast? = some .on := by
  obtain ⟨o, e, hl⟩ := s.limitsFor_port p p (s.port p).pd.contract false
  simp [State.slcCmd, State.stgCmd, State.limitsNow, hl]

/-- Step 4: VCONN, the reference and the sluice return. -/
theorem tsrcrecoverExpiry_spec (hon : s.timerOn h p .srcRecover) (hhr : (s.port p).pd.hr = .recover) :
    ∃ t, exec (.tsrcrecoverExpiry h p) s = .next t ∧ (t.port p).pd.hr = .restore ∧
      (t.port p).pd.stgq = (s.port p).pd.stgq ++ [.start 5000] ∧ (t.port p).pd.slcq.getLast? = some .on := by
  obtain ⟨u, k, -, he⟩ := hon.step rfl (show exec (.tsrcrecoverExpiry h p) s = execTsrcrecoverExpiry h p s from rfl)
  obtain ⟨v, r, l, hp⟩ := k.port
  rw [if_neg (by rw [hp]; simp [hhr])] at he
  let held := u.sibAttached p && !u.stage5V p
  let w := (u.onPd p fun d => { d with hr := .restore, holdTwin := held }).arm p .srcTurnOn
  have hw : ((w.vconnTry p).port p).pd.hr = .restore ∧ ((w.vconnTry p).port p).pd.stgq = (s.port p).pd.stgq := by
    obtain ⟨vc, d, m, c, l', hv⟩ := w.vconnTry_port p
    rw [hv, State.arm_port, State.onPd_port, hp]
    exact ⟨rfl, rfl⟩
  obtain ⟨h₁, h₂, h₃⟩ := (w.vconnTry p).startOutput_port p (.start 5000)
  have hx : exec (.tsrcrecoverExpiry h p) s = .next ((((w.vconnTry p).limitsNow p).stgCmd p (.start 5000)).slcCmd p .on).endStep := he
  refine ⟨_, hx, ?_⟩
  rw [State.endStep_port]
  exact ⟨h₁.trans hw.1, h₂.trans (by rw [hw.2]), h₃⟩

/-- The output is back: STARTUP, once the cable is known. -/
theorem vsafe5vInBand_restored {vbc : Nat} (hw : s.works p = true) (hb : in5V vbc = true) (hsrc : (s.port p).tc.isSrc = true)
    (hst : (s.port p).pd.src = .hardReset) (hhr : (s.port p).pd.hr = .restore) (hc : (s.port p).pd.cabled = false) :
    ∃ t, exec (.vsafe5vInBand p vbc) s = .next t ∧ s.onlyPortYard p t ∧ (t.port p).pd.src = .startup ∧ (t.port p).pd.hr = .none := by
  have he : exec (.vsafe5vInBand p vbc) s = execVsafe5vInBand p vbc s := rfl
  obtain ⟨m, x, hp⟩ := s.seeVbc_port p vbc
  have hy := s.seeVbc_onlyYard p vbc
  rw [execVsafe5vInBand, hw, hb] at he
  generalize s.seeVbc p vbc = u at he hp hy
  let w := (u.disarm p .srcTurnOn).onPd p fun d => { d with
    src := if d.src = .hardReset then .startup else d.src, hr := .none, holdTwin := false }
  have hwy : s.onlyPortYard p w := hy.trans ((u.disarm_onlyYard p _).trans (State.onPort_onlyYard _ p _))
  obtain ⟨l, hwp⟩ : ∃ l, (w.port p).pd = { (s.port p).pd with src := .startup, hr := .none, holdTwin := false, live := l } := by
    unfold w
    rw [State.onPd_port, State.disarm_port, hp]
    simp only [hst, if_true]
    exact ⟨_, rfl⟩
  have hx : exec (.vsafe5vInBand p vbc) s = .next (w.arm p .firstSourceCap) := by
    have hu : (u.port p).pd.hr = .restore := by rw [hp, hhr]
    have ht : (u.port p).tc.isSrc = true := by rw [hp, hsrc]
    refine he.trans ?_
    simp only [hu, ht, Bool.not_true, Bool.or_self, Bool.false_eq_true, if_false, if_true]
    rw [if_neg (by rw [hwp]; simp), if_neg (by rw [hwp, hc]; simp)]
  refine ⟨_, hx, hwy.trans (w.arm_onlyYard p _), ?_, ?_⟩ <;> rw [State.arm_port] <;> simp [hwp]

/-! ## Steps of a sink (R163) -/

theorem tpshardresetExpiry_sink (hon : s.timerOn h p .psHardReset) (hsnk : (s.port p).tc.isSnk = true)
    (hhr : (s.port p).pd.snkHr = true) :
    ∃ t, exec (.tpshardresetExpiry h p) s = .next t ∧ s.othersKept p t ∧ (t.port p).pd.snkHr = true ∧
      (t.port p).pd.stgq = (s.port p).pd.stgq ∧ (t.port p).pd.slcq = (s.port p).pd.slcq ++ [.off] := by
  obtain ⟨u, k, -, he⟩ := hon.step rfl (show exec (.tpshardresetExpiry h p) s = execTpshardresetExpiry h p s from rfl)
  obtain ⟨v, r, l, hp⟩ := k.port
  have hb : ((u.port p).tc.isSnk && (u.port p).pd.snkHr) = true := by rw [hp, hsnk, hhr]; rfl
  rw [if_pos hb] at he
  refine ⟨_, he, fun q hq => ?_, ?_, ?_, ?_⟩
  · rw [State.endStep_port, State.slcCmd, State.onPort_port_ne _ _ _ _ hq, k.othersKept q hq]
  all_goals rw [State.endStep_port, State.slcCmd, State.onPort_port_self, hp]
  exact hhr

/-- VBUS is back: the sink starts again, alone at its stage, with its sluice asked on. -/
theorem sinkHardResetVbusReturn_starts {vbc : Nat} (hw : s.works p = true) (hsnk : (s.port p).tc.isSnk = true)
    (hhr : (s.port p).pd.snkHr = true) (hv : 4000 < vbc) (hsib : s.sibAttached p = false) :
    ∃ t, exec (.sinkHardResetVbusReturn p vbc) s = .next t ∧ (t.port p).pd.snk = .startup ∧ (t.port p).pd.snkHr = false ∧
      t.armed p .sinkWaitCap ∧ (t.port p).pd.slcq.getLast? = some .on := by
  have he : exec (.sinkHardResetVbusReturn p vbc) s = execSinkHardResetVbusReturn p vbc s := rfl
  obtain ⟨m, x, hp⟩ := s.seeVbc_port p vbc
  generalize hw₁ : (((s.seeVbc p vbc).disarm p .sinkHardReset).disarm p .psHardReset).onPd p
    (fun d => { d with snk := .startup, snkHr := false, cabled := true }) = w₁
  have hy : s.onlyPortYard p (w₁.arm p .sinkWaitCap) := hw₁ ▸ (s.seeVbc_onlyYard p vbc).trans ((State.disarm_onlyYard _ p _).trans <|
    (State.disarm_onlyYard _ p _).trans <| (State.onPort_onlyYard _ p _).trans (State.arm_onlyYard _ p _))
  obtain ⟨l, hwp⟩ : ∃ l, (w₁.arm p .sinkWaitCap).port p = { (s.seeVbc p vbc).port p with
      pd := { ((s.seeVbc p vbc).port p).pd with snk := .startup, snkHr := false, cabled := true, live := l } } := by
    rw [State.arm_port, ← hw₁, State.onPd_port, State.disarm_port, State.disarm_port]
    exact ⟨_, rfl⟩
  have harm : (w₁.arm p .sinkWaitCap).armed p .sinkWaitCap := State.arm_armed ..
  generalize hw₂ : w₁.arm p .sinkWaitCap = w at hy hwp harm
  obtain ⟨o, e, hl⟩ := w.limitsFor_port p p (w.port p).pd.contract false
  have hsl : (w.limitsNow p).sibAttached p = false := by
    rw [State.limitsNow_sibAttached, State.sibAttached_congr hy (by rw [hwp, hp]), hsib]
  have hx : exec (.sinkHardResetVbusReturn p vbc) s = .next ((w.limitsNow p).slcCmd p .on) := by
    rw [he, execSinkHardResetVbusReturn, if_pos (by simp [hw, hsnk, hhr, hv])]
    simp only [hw₁, hw₂, hsl, Bool.false_eq_true, if_false]
  refine ⟨_, hx, ?_, ?_, ?_, ?_⟩
  · rw [State.slcCmd, State.onPort_port_self, State.limitsNow, hl, hwp]
  · rw [State.slcCmd, State.onPort_port_self, State.limitsNow, hl, hwp]
  · refine State.armed_of_live ?_ harm
    rw [State.slcCmd, State.onPort_port_self, State.limitsNow, hl]
  · rw [State.slcCmd, State.onPort_port_self]
    exact List.getLast?_concat

theorem sinkHardResetRecoveryExpiry_detaches (hon : s.timerOn h p .sinkHardReset) (hsnk : (s.port p).tc.isSnk = true)
    (hhr : (s.port p).pd.snkHr = true) :
    ∃ t, exec (.sinkHardResetRecoveryExpiry h p) s = .next t ∧ (t.port p).tc.st = .selftest ∧ (t.port p).pd.contract = none := by
  obtain ⟨u, k, -, he⟩ := hon.step rfl (show exec (.sinkHardResetRecoveryExpiry h p) s = execSinkHardResetRecoveryExpiry h p s from rfl)
  obtain ⟨v, r, l, hp⟩ := k.port
  rw [if_pos (by rw [hp]; exact ⟨hsnk, hhr⟩)] at he
  obtain ⟨hst, hcon, -⟩ := u.detached_spec (p := p) (by rw [k.tc, Tc.attached, hsnk, Bool.or_true])
  exact ⟨_, he, hst, hcon⟩

/-- Settles O28: step by step, each with what it queues for the stage and the sluice. -/
theorem hardResetSequence : Obligations.HardResetSequence := by
  unfold Obligations.HardResetSequence
  exact fun s h p vbc => ⟨tpshardresetExpiry_source, sluiceStateChange_discharged, tsrcrecoverExpiry_spec, vsafe5vInBand_restored,
    tpshardresetExpiry_sink, sinkHardResetVbusReturn_starts, sinkHardResetRecoveryExpiry_detaches⟩

/-! ## Inside a transition (R138, R147, R153, R155, R235, R239) -/

theorem tsrctransitionExpiry_commands {c : Contract} (hon : s.timerOn h p .srcTransition) (hw : (s.port p).pd.want = some c)
    (hst : (s.port p).pd.src = .transition) :
    ∃ t, exec (.tsrctransitionExpiry h p) s = .next t ∧
      (t.port p).pd.stgq = (s.port p).pd.stgq ++ [.target c.mv] ∧ (t.port p).pd.src = .transition := by
  obtain ⟨u, k, -, he⟩ := hon.step rfl (show exec (.tsrctransitionExpiry h p) s = execTsrctransitionExpiry h p s from rfl)
  obtain ⟨v, r, l, hp⟩ := k.port
  obtain ⟨o, e, hl⟩ := u.limitsFor_port p p (some c) true
  have hwu : (u.port p).pd.want = some c := by rw [hp, hw]
  have hsu : (u.port p).pd.src = .transition := by rw [hp, hst]
  simp only [hwu, hsu, if_true] at he
  refine ⟨_, he, ?_, ?_⟩ <;> rw [State.endStep_port, State.stgCmd, State.onPort_port_self, hl, hp]
  exact hst

/-- What a settle report shows of the port: its stage settled, and VBC where the sluice is on. -/
def State.settled (s : State) (p : Port) (mv : Nat) : State :=
  let s := s.onPort p fun x => { x with stg := { x.stg with settled := true } }
  if (s.port p).slc.st = .on then s.seeVbc p mv else s

theorem State.settled_onlyYard (s : State) (p : Port) (mv : Nat) : s.onlyPortYard p (s.settled p mv) :=
  (s.onPort_onlyYard p _).trans (State.onlyPortYard_ite (State.seeVbc_onlyYard _ p mv) (State.onlyPortYard_refl _ p))

theorem State.settled_port (s : State) (p : Port) (mv : Nat) : ∃ m x, (s.settled p mv).port p =
    { s.port p with stg := { (s.port p).stg with settled := true, meas := m }, slc := x } := by
  unfold State.settled
  extract_lets u
  have hu : u.port p = { s.port p with stg := { (s.port p).stg with settled := true } } := State.onPort_port_self ..
  split
  · obtain ⟨m, x, hv⟩ := u.seeVbc_port p mv
    rw [hv, hu]
    exact ⟨m, x, rfl⟩
  · rw [hu]
    exact ⟨_, _, rfl⟩

section
variable {c : Contract} {mv : Nat} (hw : s.works p = true) (hs : s.dev.stop = none)
  (htw : (s.port p).cfg.twin = false) (hden : (s.port p).stg.den = true) (ha : (s.port p).loop.auto = true)
  (href : (s.port p).stg.ref = 1000 * ((s.port p).stg.target : Int))
  (hband : inBand (s.port p).stg.kind (s.port p).stg.target mv = true) (hwant : (s.port p).pd.want = some c)
  (hsrc : (s.port p).tc.isSrc = true) (hst : (s.port p).pd.src = .transition) (hlim : s.live p .transitionLimit = true)
  (htr : s.live p .srcTransition = false) (hmv : c.mv = (s.port p).stg.target) (hq : (s.port p).pd.stgq = [])
  (hout : (s.port p).pd.psRdyOut = false)

/-- The port sends the one PS_RDY that it still owes. -/
def State.psRdySent (s : State) (p : Port) : State := (s.onPd p fun d => { d with psRdyOut := true }).send p .sop .psRdy .psRdy

theorem State.psRdySent_port (hs : s.dev.stop = none) : (s.psRdySent p).port p = { s.port p with
    pd := { (s.port p).pd with psRdyOut := true }, prot.txq := (s.port p).prot.txq ++ [⟨.sop, .psRdy, .psRdy⟩] } := by
  have hsu : (s.onPd p fun d => { d with psRdyOut := true }).dev.stop = none := hs
  rw [State.psRdySent, State.send_port hsu, State.onPd_port]

include hw hs htw hden ha href hband hwant hsrc hst hlim htr hmv hq hout

theorem exec_settleReport : exec (.settleReport p mv) s = .next ((s.settled p mv).psRdySent p) := by
  have hstage : s.stageOf p = p := by simp [State.stageOf, htw]
  obtain ⟨m, x, hp⟩ := s.settled_port p mv
  have hsu : (s.settled p mv).dev.stop = none := by rw [(s.settled_onlyYard p mv).2.1, hs]
  have hlive (i : TimerId) : (s.settled p mv).live p i = s.live p i := by rw [State.live, hp, State.live]
  have hret : ((s.settled p mv).psRdySent p).twinRetry p = (s.settled p mv).psRdySent p :=
    State.twinRetry_of_attSrc (by rw [State.psRdySent_port hsu, hp]; simpa [Tc.isSrc] using hsrc)
  have htw' : (((s.settled p mv).psRdySent p).port p).cfg.twin = false := by rw [State.psRdySent_port hsu, hp, htw]
  show execSettleReport p mv s = _
  unfold execSettleReport
  rw [hstage]
  extract_lets q g u₁ u₂ d u₃ u₄
  have h₂ : u₂ = s.settled p mv := rfl
  have hd : d = (s.port p).pd := by
    show ((s.settled p mv).port p).pd = _
    rw [hp]
  have hs₂ : (u₂.port p).tc.isSrc = true := by rw [h₂, hp, hsrc]
  have hl₂ (i : TimerId) : u₂.live p i = s.live p i := by rw [h₂, hlive]
  have h₃ : u₃ = u₂.psRdySent p := by
    unfold u₃
    clear_value d u₂
    simp only [hd, hwant, hs₂, hl₂, hst, hlim, htr, hmv, hq, hout, g, q]
    rfl
  have h₄ : u₄ = u₂.psRdySent p := by
    unfold u₄
    rw [h₃, h₂, hret, ite_self]
  rw [if_pos (by simp [g, q, hw, ha, hden, href, hband])]
  simp only [h₄, h₂, htw', Bool.false_eq_true, and_false, if_false]

/-- The stage has settled at the target that the port awaits: PS_RDY, while the transition limit runs on. -/
theorem settleReport_psRdy :
    ∃ t, exec (.settleReport p mv) s = .next t ∧ (t.port p).stg.settled = true ∧ t.lastTx p = some ⟨.sop, .psRdy, .psRdy⟩ ∧
      (t.port p).pd.psRdyOut = true ∧ t.live p .transitionLimit = true ∧ s.othersKept p t := by
  have hy := s.settled_onlyYard p mv
  have hsu : (s.settled p mv).dev.stop = none := by rw [hy.2.1, hs]
  have hx := exec_settleReport hw hs htw hden ha href hband hwant hsrc hst hlim htr hmv hq hout
  obtain ⟨m, x, hp⟩ := s.settled_port p mv
  generalize s.settled p mv = u at hy hsu hx hp
  refine ⟨_, hx, ?_, ?_, ?_, ?_, (hy.trans ((u.onPort_onlyYard p _).trans (State.send_policyKept ..).1)).1⟩
  · rw [State.psRdySent_port hsu, hp]
  · rw [State.lastTx, State.psRdySent_port hsu]
    exact List.getLast?_concat
  · rw [State.psRdySent_port hsu]
  · rw [State.live, State.psRdySent_port hsu, hp]
    exact hlim

end

/-- A sink put off requests again, in EPR mode with an EPR_Request. -/
theorem tsinkrequestExpiry_requests (hon : s.timerOn h p .sinkRequest) (hsnk : (s.port p).tc.isSnk = true)
    (hst : (s.port p).pd.snk = .waited) (hepr : (s.port p).pd.epr = .epr) :
    ∃ t, exec (.tsinkrequestExpiry h p) s = .next t ∧ (t.port p).pd.snk = .select ∧ s.othersKept p t ∧
      t.lastTx p = some ⟨.sop, .request, .eprRequest (t.choose p).2⟩ := by
  obtain ⟨u, k, -, he⟩ := hon.step rfl (show exec (.tsinkrequestExpiry h p) s = execTsinkrequestExpiry h p s from rfl)
  obtain ⟨v, r, l, hp⟩ := k.port
  rw [if_pos (by rw [hp]; exact ⟨hsnk, hst⟩)] at he
  have hw : u.wantsEpr p = false := by
    rw [k.wantsEpr]
    unfold State.wantsEpr
    simp [hepr]
  obtain ⟨hy, hpol, hlast⟩ := State.evaluate_requests (s := u) (p := p) (by rw [k.dev, hon.stop]) hw
  have hm : (u.port p).pd.eprMsgs = true := by
    rw [hp]
    simp [Pd.eprMsgs, hepr]
  have hsel : ((u.evaluate p).port p).pd.snk = .select := congrArg (·.pd.snk) hpol
  rw [Pd.requestMsg, if_pos hm] at hlast
  refine ⟨_, he, ?_, fun q hq => ?_, ?_⟩
  · rw [State.endStep_port, hsel]
  · rw [State.endStep_port, (k.1.trans hy).1 q hq]
  · rw [State.endStep_lastTx]
    exact hlast

theorem tsinkeprkeepaliveExpiry_spec (hon : s.timerOn h p .sinkEprKeepAlive) (hepr : (s.port p).pd.epr = .epr) :
    ∃ t, exec (.tsinkeprkeepaliveExpiry h p) s = .next t ∧ t.lastTx p = some ⟨.sop, .keepAlive, .eprKeepAlive⟩ ∧
      t.armed p .sinkEprKeepAlive ∧ s.othersKept p t := by
  obtain ⟨u, k, -, he⟩ := hon.step rfl (show exec (.tsinkeprkeepaliveExpiry h p) s = execTsinkeprkeepaliveExpiry h p s from rfl)
  obtain ⟨v, r, l, hp⟩ := k.port
  rw [if_pos (by rw [hp, hepr])] at he
  refine ⟨_, he, ?_, State.arm_armed .., fun q hq => ?_⟩
  · rw [State.endStep_lastTx, State.arm_lastTx]
    exact State.send_lastTx (by rw [k.dev, hon.stop]) ..
  · rw [State.endStep_port]
    exact (k.trans ((u.send_policyKept ..).trans (State.arm_policyKept ..))).othersKept q hq

/-- Settles O29: two steps end in what they command or send, and a sink's request is the one that it chooses then. -/
theorem transitionSteps : Obligations.TransitionSteps := by
  unfold Obligations.TransitionSteps
  exact fun s h p c mv => ⟨tsrctransitionExpiry_commands,
    fun hw hs htw hden ha href hband hwant hsrc hst hlim htr hmv hq _ hout =>
      settleReport_psRdy hw hs htw hden ha href hband hwant hsrc hst hlim htr hmv hq hout,
    tsinkrequestExpiry_requests, tsinkeprkeepaliveExpiry_spec⟩

end Sys2Proof.Machine
end

section
/-! SUPPORT. The obligation on what makes a source offer, and on Alerts (R137, R138, R165 to R167, R174, R372, R373). -/

namespace Sys2Proof.Machine

variable {s t u : State} {p q : Port} {h : Hand}

/-! ## A fresh offer -/

/-- A fresh offer of a port that stands at what it had with its partner. -/
theorem State.dealKept.offers (k : s.dealKept p u) :
    ((u.offer p).port p).pd.src = .sendCaps ∧ ((u.offer p).port p).pd.capsTry = 1 ∧ (u.offer p).armed p .reofferSpacing ∧
      s.othersKept p (u.offer p) ∧ ((u.offer p).port p).pd.contract = (s.port p).pd.contract := by
  obtain ⟨v, r, l, hp⟩ := u.offerTry_port p 1
  have hc : (u.port p).pd.contract = (s.port p).pd.contract := congrArg (·.2.1) k.2
  refine ⟨?_, ?_, u.offerTry_armed p 1, (k.1.trans (u.offerTry_onlyYard p 1)).1, ?_⟩ <;> rw [State.offer, hp]
  exact hc

/-- The same at the end of a hand's step. -/
theorem State.dealKept.offersEnd (k : s.dealKept p u) {c : Instr} (he : exec c s = .next (u.offer p).endStep) :
    ∃ t, exec c s = .next t ∧ (t.port p).pd.src = .sendCaps ∧ (t.port p).pd.capsTry = 1 ∧ t.armed p .reofferSpacing ∧
      s.othersKept p t ∧ (t.port p).pd.contract = (s.port p).pd.contract := ⟨_, he, k.offers⟩

/-- An expiry whose step is a fresh offer. -/
theorem State.timerOn.offers {i : TimerId} (hon : s.timerOn h p i) (hb : timerBound i = false) {c : Instr} {f : State → State}
    (hc : exec c s = s.onTimer h p i f) (hf : ∀ u, s.policyKept p u → ∃ w, s.dealKept p w ∧ f u = w.offer p) :
    ∃ t, exec c s = .next t ∧ (t.port p).pd.src = .sendCaps ∧ (t.port p).pd.capsTry = 1 ∧ t.armed p .reofferSpacing ∧
      s.othersKept p t ∧ (t.port p).pd.contract = (s.port p).pd.contract := by
  obtain ⟨u, k, -, he⟩ := hon.step hb hc
  obtain ⟨w, kw, hw⟩ := hf u k
  exact kw.offersEnd (by rw [he, hw])

theorem reofferSpacingExpiry_offers (hon : s.timerOn h p .reofferSpacing) (hst : (s.port p).pd.src = .ready)
    (hd : (s.port p).pd.due = true) :
    ∃ t, exec (.reofferSpacingExpiry h p) s = .next t ∧ (t.port p).pd.src = .sendCaps ∧ (t.port p).pd.capsTry = 1 ∧
      t.armed p .reofferSpacing ∧ s.othersKept p t ∧ (t.port p).pd.contract = (s.port p).pd.contract := by
  refine hon.offers rfl (show exec (.reofferSpacingExpiry h p) s = execReofferSpacingExpiry h p s from rfl) fun u k => ?_
  obtain ⟨v, r, l, hp⟩ := k.port
  exact ⟨_, k.dealKept.trans (u.onPd_dealKept p), if_pos (by rw [State.onPd_port, hp]; exact ⟨hd, hst⟩)⟩

/-- A source in READY that is selected for a shed, or holds a trigger, offers when its hand takes the notice. -/
theorem shedNotice_offers (hsrc : (s.port p).tc.isSrc = true) (hon : s.handOn h p .shed)
    (hsel : ((s.port p).pd.shed || (s.port p).pd.trigger) = true) (ht : (s.port p).pd.holdTwin = false)
    (hst : (s.port p).pd.src = .ready) :
    ∃ t, exec (.shedNotice h p) s = .next t ∧ (t.port p).pd.src = .sendCaps ∧ (t.port p).pd.capsTry = 1 ∧
      t.armed p .reofferSpacing ∧ s.othersKept p t ∧ (t.port p).pd.contract = (s.port p).pd.contract := by
  obtain ⟨u, k, hp, he⟩ := hon.step (fun r hr hd => by simp [YardRec.silent, hr, hd])
    (show exec (.shedNotice h p) s = execShedNotice h p s from rfl) (by simp)
  obtain ⟨v, r, l, ho⟩ := u.offerTry_port p 1
  have hatt : (s.port p).tc.st = .attSrc := by simpa [Tc.isSrc] using hsrc
  have hdue : u.offerDue p = u.offer p := State.offerDue_ready (by rw [hp, hsrc]) (by rw [hp, hst])
  have hstart : (u.offer p).twinStart p = u.offer p := by
    simp [State.twinStart, State.offer, ho, hp, ht, hatt]
  have hretry : (u.offer p).twinRetry p = u.offer p := State.twinRetry_of_attSrc (by rw [State.offer, ho, hp, hatt])
  refine k.dealKept.offersEnd ?_
  simpa only [k.bmcRuns, hon.1, hp, hsel, Bool.and_self, if_true, hdue, hstart, hretry, ite_self] using he

theorem vsafe5vInBand_offers {vbc : Nat} (hsrc : (s.port p).tc.isSrc = true) (hw : s.works p = true) (hb : in5V vbc = true)
    (hst : (s.port p).pd.src = .startup) (hc : (s.port p).pd.cabled = true) :
    ∃ t, exec (.vsafe5vInBand p vbc) s = .next t ∧ (t.port p).pd.src = .sendCaps ∧ (t.port p).pd.capsTry = 1 ∧
      t.armed p .reofferSpacing ∧ s.othersKept p t ∧ (t.port p).pd.contract = (s.port p).pd.contract := by
  obtain ⟨m, x, hp⟩ := s.seeVbc_port p vbc
  have k₁ : s.dealKept p (s.seeVbc p vbc) := s.onPort_dealKept p rfl
  let u := s.seeVbc p vbc
  let w := if (u.port p).pd.hr = .restore then (u.disarm p .srcTurnOn).onPd p fun d => { d with
    src := if d.src = .hardReset then .startup else d.src, hr := .none, holdTwin := false } else u
  have kw : s.dealKept p w := k₁.trans (State.dealKept_ite ((u.disarm_dealKept p _).trans (State.onPd_dealKept _ p)) (u.dealKept_refl p))
  obtain ⟨hsw, hcw⟩ : (w.port p).pd.src = .startup ∧ (w.port p).pd.cabled = true := by
    unfold w u
    split
    · rw [State.onPd_port, State.disarm_port, hp]
      simp [hst, hc]
    · rw [hp]
      exact ⟨hst, hc⟩
  have hx : exec (.vsafe5vInBand p vbc) s = .next (w.offer p) := by
    have hu : (u.port p).tc.isSrc = true := by rw [show u.port p = _ from hp, hsrc]
    show execVsafe5vInBand p vbc s = _
    rw [execVsafe5vInBand, hw, hb]
    simp only [show s.seeVbc p vbc = u from rfl, hu, Bool.not_true, Bool.or_self, Bool.false_eq_true, if_false]
    rw [if_neg (fun hne => hne hsw), if_pos hcw]
  exact ⟨_, hx, kw.offers⟩

theorem freeRise_offers (hsrc : (s.port p).tc.isSrc = true) (hw : s.works p = true) (hf : s.freeRose p = true)
    (hst : (s.port p).pd.src = .ready) (hsp : (s.port p).pd.spacing = true) :
    ∃ t, exec (.freeRise p) s = .next t ∧ (t.port p).pd.src = .sendCaps ∧ (t.port p).pd.capsTry = 1 ∧
      t.armed p .reofferSpacing ∧ s.othersKept p t ∧ (t.port p).pd.contract = (s.port p).pd.contract := by
  have hatt : (s.port p).tc.st = .attSrc := by simpa [Tc.isSrc] using hsrc
  have hx : exec (.freeRise p) s = .next (s.offer p) := by
    show execFreeRise p s = _
    simp only [execFreeRise, hw, hatt, hf, hst, hsp, Bool.not_true, Bool.false_eq_true, if_false, if_true, and_self]
  exact ⟨_, hx, (s.dealKept_refl p).offers⟩

/-- The next attempt, or TYPEC_ONLY after the fiftieth. -/
theorem ttypecsendsourcecapExpiry_spec (hon : s.timerOn h p .typeCSendSourceCap) (hst : (s.port p).pd.src = .sendCaps) :
    ∃ t, exec (.ttypecsendsourcecapExpiry h p) s = .next t ∧ s.othersKept p t ∧
      (if (s.port p).pd.capsTry < 50 then (t.port p).pd.src = .sendCaps ∧ (t.port p).pd.capsTry = (s.port p).pd.capsTry + 1
       else (t.port p).pd.src = .typecOnly) := by
  obtain ⟨u, k, -, he⟩ := hon.step rfl (show exec (.ttypecsendsourcecapExpiry h p) s = execTtypecsendsourcecapExpiry h p s from rfl)
  obtain ⟨v, r, l, hp⟩ := k.port
  have hsu : (u.port p).pd.src = .sendCaps := by rw [hp, hst]
  have hcu : (u.port p).pd.capsTry = (s.port p).pd.capsTry := by rw [hp]
  simp only [hsu, hcu, ne_eq, not_true_eq_false, if_false] at he
  by_cases hlt : (s.port p).pd.capsTry < 50
  · rw [if_neg (by omega)] at he
    obtain ⟨v', r', l', ho⟩ := u.offerTry_port p ((s.port p).pd.capsTry + 1)
    refine ⟨_, he, fun q hq => (k.1.trans (u.offerTry_onlyYard p _)).1 q hq, ?_⟩
    rw [if_pos hlt, State.endStep_port, ho]
    exact ⟨rfl, rfl⟩
  · rw [if_pos (by omega)] at he
    refine ⟨_, he, fun q hq => ?_, ?_⟩
    · rw [State.endStep_port, State.onPd_port_ne _ _ hq, k.othersKept q hq]
    · rw [if_neg hlt, State.endStep_port, State.onPd_port]

/-! ## Alerts (R174, R372, R373) -/

/-- An Alert that may go is the first that waits. -/
theorem State.alertTry_sends {k : AlertKind} {l : List AlertKind} (hs : s.dev.stop = none) (hr : (s.port p).alertReady = true)
    (ho : (s.port p).pd.alertOut = false) (ha : (s.port p).pd.alerts = k :: l) :
    (s.alertTry p).lastTx p = some ⟨.sop, .alert, .alert k⟩ ∧ ((s.alertTry p).port p).pd.alerts = l ∧
      ((s.alertTry p).port p).pd.alertOut = true := by
  have hsu : (s.onPd p fun d => { d with alerts := l, alertOut := true }).dev.stop = none := hs
  have he : s.alertTry p = (s.onPd p fun d => { d with alerts := l, alertOut := true }).send p .sop .alert (.alert k) := by
    simp only [State.alertTry, hr, ho, ha, Bool.not_false, Bool.and_self, if_true]
  rw [he]
  refine ⟨State.send_lastTx hsu .., ?_, ?_⟩ <;> rw [State.send_port hsu, State.onPd_port]

theorem State.alertTry_of_not (h : ((s.port p).alertReady && !(s.port p).pd.alertOut) = false) : s.alertTry p = s := by
  simp only [State.alertTry, h, Bool.false_eq_true, if_false]

theorem State.alertTry_of_nil (h : (s.port p).pd.alerts = []) : s.alertTry p = s := by
  simp only [State.alertTry, h, ite_self]

theorem alertWaitExpiry_none (hon : s.timerOn h p .alertWait) (ha : (s.port p).pd.alerts = []) :
    ∃ t, exec (.alertWaitExpiry h p) s = .next t ∧ (t.port p).pd.alertOut = false ∧ s.othersKept p t := by
  obtain ⟨u, k, -, he⟩ := hon.step rfl (show exec (.alertWaitExpiry h p) s = execAlertWaitExpiry h p s from rfl)
  obtain ⟨v, r, l, hp⟩ := k.port
  rw [State.alertTry_of_nil (by rw [State.onPd_port, hp, ha])] at he
  refine ⟨_, he, ?_, fun q hq => ?_⟩
  · rw [State.endStep_port, State.onPd_port]
  · rw [State.endStep_port, State.onPd_port_ne _ _ hq, k.othersKept q hq]

theorem alertWaitExpiry_next {a : AlertKind} {l : List AlertKind} (hon : s.timerOn h p .alertWait)
    (ha : (s.port p).pd.alerts = a :: l) (hsrc : (s.port p).tc.isSrc = true) (hst : (s.port p).pd.src = .ready)
    (hc : (s.port p).pd.contract ≠ none) :
    ∃ t, exec (.alertWaitExpiry h p) s = .next t ∧ t.lastTx p = some ⟨.sop, .alert, .alert a⟩ ∧
      (t.port p).pd.alerts = l ∧ s.othersKept p t := by
  obtain ⟨u, k, -, he⟩ := hon.step rfl (show exec (.alertWaitExpiry h p) s = execAlertWaitExpiry h p s from rfl)
  obtain ⟨v, r, l', hp⟩ := k.port
  let w := u.onPd p fun d => { d with alertOut := false }
  have hw : w.port p = { u.port p with pd := { (u.port p).pd with alertOut := false } } := State.onPd_port ..
  have hy : s.onlyPortYard p w := k.1.trans (u.onPort_onlyYard p _)
  have hr : (w.port p).alertReady = true := by
    rw [hw, hp]
    simp [PortState.alertReady, hsrc, hst, Option.isSome_iff_ne_none, hc]
  obtain ⟨hl, hal, -⟩ := State.alertTry_sends (s := w) (p := p) (by rw [hy.2.1, hon.stop]) hr (by rw [hw]) (by rw [hw, hp, ha])
  refine ⟨_, he, hl, ?_, fun q hq => (hy.trans (w.alertTry_dealKept p).1).1 q hq⟩
  rw [State.endStep_port, hal]

/-- A Source Input Change that is due is kept or goes, on its own port alone. -/
theorem State.alertInput_onlyYard (s : State) (p : Port) (c : InputCause) : s.onlyPortYard p (s.alertInput p c) :=
  (s.onPort_onlyYard p _).trans <| State.onlyPortYard_ite (State.onlyPortYard_refl _ p) <|
    (State.onPort_onlyYard _ p _).trans (State.alertTry_dealKept _ p).1

/-- A port on which none is due. -/
theorem State.alertInput_fresh (hs : s.dev.stop = none) (c : InputCause) (hsrc : (s.port p).tc.isSrc = true)
    (ha : (s.port p).pd.alerts = []) (hd : (s.port p).inputDue = false) :
    if (s.port p).pd.src = .ready ∧ (s.port p).pd.contract ≠ none ∧ (s.port p).pd.alertOut = false then
      (s.alertInput p c).lastTx p = some ⟨.sop, .alert, .alert .sourceInputChange⟩ ∧ ((s.alertInput p c).port p).pd.alertOut = true
    else ((s.alertInput p c).port p).pd.alerts = [.sourceInputChange] := by
  let w := (s.onPd p fun d => { d with inCause := some c }).onPd p fun d => { d with alerts := d.alerts ++ [.sourceInputChange] }
  have hw : w.port p = { s.port p with pd := { (s.port p).pd with inCause := some c, alerts := [.sourceInputChange] } } := by
    unfold w
    rw [State.onPd_port, State.onPd_port, ha]
    rfl
  have he : s.alertInput p c = w.alertTry p := by
    simp only [State.alertInput, hd, Bool.false_eq_true, if_false]
    rfl
  have hsw : w.dev.stop = none := hs
  have hnsnk := Tc.isSnk_of_isSrc hsrc
  have hready : (w.port p).alertReady = decide ((s.port p).pd.src = .ready ∧ (s.port p).pd.contract ≠ none) := by
    rw [hw]
    simp [PortState.alertReady, hsrc, hnsnk]
    cases (s.port p).pd.contract <;> simp
  rw [he]
  split
  · next hc =>
    obtain ⟨hst, hcon, hout⟩ := hc
    obtain ⟨hl, -, ho⟩ := State.alertTry_sends (p := p) hsw (by rw [hready]; simp [hst, hcon]) (by rw [hw, hout])
      (show (w.port p).pd.alerts = _ by rw [hw])
    exact ⟨hl, ho⟩
  · next hc =>
    have hno : ((w.port p).alertReady && !(w.port p).pd.alertOut) = false := by
      rw [hready, hw]
      by_cases h₁ : (s.port p).pd.src = .ready ∧ (s.port p).pd.contract ≠ none
      · have : (s.port p).pd.alertOut = true := by
          by_contra h₂
          exact hc ⟨h₁.1, h₁.2, by simpa using h₂⟩
        simp [this]
      · simp [h₁]
    rw [State.alertTry_of_not hno, hw]

/-- A port on which one is due already. -/
theorem State.alertInput_due (hd : (s.port p).inputDue = true) (c : InputCause) :
    ((s.alertInput p c).port p).prot = (s.port p).prot ∧ ((s.alertInput p c).port p).pd.alerts = (s.port p).pd.alerts := by
  have he : s.alertInput p c = s.onPd p fun d => { d with inCause := some c } := by
    simp only [State.alertInput, hd, if_true]
  rw [he, State.onPd_port]
  exact ⟨rfl, rfl⟩

/-- The ports that the crier's request concerns. -/
def State.criedTo (s : State) : List Port := allPorts.filter fun p => s.bmcRuns p && (s.port p).tc.isSrc

theorem State.mem_criedTo : p ∈ s.criedTo ↔ s.bmcRuns p = true ∧ (s.port p).tc.isSrc = true := by
  simp [State.criedTo, mem_allPorts]

/-- A hand's command on the crier's request runs its step on the state as it was. -/
theorem exec_crierAlert {r : YardRec} {c : InputCause} (hrun : s.running = true) (hch : s.hnd.choose h = some r) (hp : r.port = none)
    (hev : r.ev = .crier c) (hd : r.dead = false) :
    ∃ u, s.globalsKept u ∧ (∀ q, u.port q = s.port q) ∧
      exec (.crierAlert h) s = .next (u.forPorts s.criedTo fun s p => s.alertInput p c).endStep := by
  have hsil : r.silent = false := by simp [YardRec.silent, hev, hd]
  refine ⟨{ s with hnd := (s.beginStep h r).hnd, draws := (s.beginStep h r).draws }, s.globalsKept_refl, fun _ => rfl, ?_⟩
  show execCrierAlert h s = _
  simp only [execCrierAlert, State.handStep, State.take, State.skipSilent_of_choose hch hsil, hch, hp, hev, hsil, hrun]
  rfl

/-- The crier's request reaches every port attached as source, and none else. -/
theorem crierAlert_spec {r : YardRec} {c : InputCause} (hs : s.dev.stop = none) (hrun : s.running = true)
    (hch : s.hnd.choose h = some r) (hp : r.port = none) (hev : r.ev = .crier c) (hd : r.dead = false) :
    ∃ t, exec (.crierAlert h) s = .next t ∧ t.trough = s.trough ∧
      (s.bmcRuns p = true → (s.port p).tc.isSrc = true → (s.port p).pd.alerts = [] → (s.port p).inputDue = false →
        if (s.port p).pd.src = .ready ∧ (s.port p).pd.contract ≠ none ∧ (s.port p).pd.alertOut = false then
          t.lastTx p = some ⟨.sop, .alert, .alert .sourceInputChange⟩ ∧ (t.port p).pd.alertOut = true
        else (t.port p).pd.alerts = [.sourceInputChange]) ∧
      (s.bmcRuns p = true → (s.port p).tc.isSrc = true → (s.port p).inputDue = true →
        (t.port p).prot = (s.port p).prot ∧ (t.port p).pd.alerts = (s.port p).pd.alerts) ∧
      ((s.port p).tc.isSrc = false → t.port p = s.port p) := by
  obtain ⟨u, hu, hup, he⟩ := exec_crierAlert hrun hch hp hev hd
  have hf (s : State) (p q : Port) (hq : q ≠ p) : (s.alertInput p c).port q = s.port q := (s.alertInput_onlyYard p c).1 q hq
  have hglob (l : List Port) : s.globalsKept (u.forPorts l fun s p => s.alertInput p c) :=
    hu.trans (State.forPorts_induct State.globalsKept_refl State.globalsKept.trans (fun s p => (s.alertInput_onlyYard p c).2) u l)
  have hin (hb : s.bmcRuns p = true) (hsrc : (s.port p).tc.isSrc = true) : ∃ w : State, w.dev.stop = none ∧ w.port p = s.port p ∧
      (u.forPorts s.criedTo fun s p => s.alertInput p c).port p = (w.alertInput p c).port p := by
    obtain ⟨l, -, hl, hx⟩ := State.forPorts_port_of_mem (f := fun s p => s.alertInput p c) hf (nodup_filter_allPorts _)
      (State.mem_criedTo.2 ⟨hb, hsrc⟩) u
    exact ⟨_, by rw [(hglob l).1, hs], hl.trans (hup p), hx⟩
  refine ⟨_, he, ?_, fun hb hsrc ha hdue => ?_, fun hb hsrc hdue => ?_, fun hsrc => ?_⟩
  · obtain ⟨-, -, -, -, -, -, -, -, -, -, -, -, htr, -⟩ := hglob s.criedTo
    exact htr
  · obtain ⟨w, hws, hwp, hx⟩ := hin hb hsrc
    have hspec := State.alertInput_fresh (s := w) (p := p) hws c (by rw [hwp, hsrc]) (by rw [hwp, ha]) (by rw [hwp, hdue])
    rw [State.lastTx, ← hx, hwp] at hspec
    rw [State.lastTx, State.endStep_port]
    exact hspec
  · obtain ⟨w, hws, hwp, hx⟩ := hin hb hsrc
    have hspec := State.alertInput_due (s := w) (p := p) (by rw [hwp, hdue]) c
    rw [← hx, hwp] at hspec
    rw [State.endStep_port]
    exact hspec
  · have hout : p ∉ s.criedTo := fun hm => by simp [hsrc, State.mem_criedTo] at hm
    rw [State.endStep_port, State.forPorts_port_of_notMem hf hout, hup]

/-- Settles O26: each of these commands ends in the same offer, and an Alert goes by `alertTry` alone. -/
theorem offersAndAlerts : Obligations.OffersAndAlerts := by
  unfold Obligations.OffersAndAlerts
  refine ⟨fun s h p vbc c hsrc => ⟨?_, ttypecsendsourcecapExpiry_spec⟩, fun s h p r k l hs =>
    ⟨fun e => crierAlert_spec hs, alertWaitExpiry_none, alertWaitExpiry_next⟩⟩
  rintro (⟨rfl, hon, hst⟩ | ⟨rfl, hon, hst⟩ | ⟨rfl, hon, hst, hd⟩ | ⟨rfl, hon, hsel, ht, hst⟩ | ⟨rfl, hw, hb, hst, hc⟩ |
    ⟨rfl, hw, hf, hst, hsp⟩)
  · refine hon.offers rfl (show exec (.waitWindowExpiry h p) s = execWaitWindowExpiry h p s from rfl) fun u k => ?_
    obtain ⟨v, r, l, hp⟩ := k.port
    exact ⟨u, k.dealKept, if_pos (by rw [hp, hst])⟩
  · refine hon.offers rfl (show exec (.rejectResendCaps h p) s = execRejectResendCaps h p s from rfl) fun u k => ?_
    obtain ⟨v, r, l, hp⟩ := k.port
    exact ⟨u, k.dealKept, if_pos (by rw [hp, hst])⟩
  · exact reofferSpacingExpiry_offers hon hst hd
  · exact shedNotice_offers hsrc hon hsel ht hst
  · exact vsafe5vInBand_offers hsrc hw hb hst hc
  · exact freeRise_offers hsrc hw hf hst hsp

end Sys2Proof.Machine
end

section
/-! SUPPORT. The obligation on the answers and capabilities that a machine takes (R138, R153 to R156). -/

namespace Sys2Proof.Machine

variable {s t u : State} {p q : Port} {h : Hand} {c : Contract}

theorem Tc.isSrc_of_isSnk {x : Tc} (hx : x.isSnk = true) : x.isSrc = false := by
  rw [Tc.isSnk, decide_eq_true_eq] at hx
  simp [Tc.isSrc, hx]

/-! ## Accept (R138, R153, R156) -/

theorem accept_softReset (hon : s.msgOn h p ⟨.sop, .accept⟩) (hsrc : (s.port p).tc.isSrc = true)
    (hst : (s.port p).pd.src = .softReset) :
    ∃ t, exec (.accept h p) s = .next t ∧ (t.port p).pd.src = .sendCaps ∧ (t.port p).pd.capsTry = 1 := by
  obtain ⟨u, k, -, he⟩ := hon.step (show exec (.accept h p) s = execAccept h p s from rfl) rfl
  obtain ⟨v, r, l, hp⟩ := k.port
  have hsu : (u.port p).pd.src = .softReset := by rw [hp, hst]
  simp only [k.tc, hsrc, hsu, if_true] at he
  obtain ⟨t, ht, h₁, h₂, -⟩ := (k.dealKept.trans (u.disarm_dealKept p .senderResponse)).offersEnd he
  exact ⟨t, ht, h₁, h₂⟩

theorem PortState.eq_of_core {x y : PortState} (h : x.core = y.core) :
    ∃ o n, x = { y with loop := o, pd := { y.pd with cut := n } } := by
  refine ⟨x.loop, x.pd.cut, ?_⟩
  have e : x = { x.core with loop := x.loop, pd := { x.core.pd with cut := x.pd.cut } } := rfl
  rw [e, h]
  rfl

/-- A change of the ledger at a sink leaves what the change itself leaves, but for the loop slot and the cut. -/
theorem State.ledgerOf_sink (g : PortState → PortState) (hp : (g (s.port p)).tc.isSrc = false) :
    ∃ o n, (s.ledgerOf p fun s => s.onPort p g).port p = { g (s.port p) with loop := o, pd := { (g (s.port p)).pd with cut := n } } := by
  have hg : (s.onPort p g).port p = g (s.port p) := s.onPort_port_self p g
  have hv : (s.ledgerOf p fun s => s.onPort p g).viewOf p = (s.onPort p g).viewOf p :=
    State.ledgerOf_viewOf (f := fun s => s.onPort p g) (by rw [hg, hp])
  exact PortState.eq_of_core ((State.core_of_viewOf hv).trans (congrArg PortState.core hg))

/-- A sink whose request of n credits is taken. -/
def PortState.requestTaken (x : PortState) (n : Nat) : PortState :=
  { x with pd := { x.pd with snk := .transition, inflow := min x.pd.inflow n } }

/-- A sink whose Request is accepted gives up inflow above its need, and waits for PS_RDY. -/
theorem accept_request (hon : s.msgOn h p ⟨.sop, .accept⟩) (hsnk : (s.port p).tc.isSnk = true) (hst : (s.port p).pd.snk = .select)
    (hw : (s.port p).pd.want = some c) :
    ∃ t, exec (.accept h p) s = .next t ∧ (t.port p).pd.snk = .transition ∧
      (t.port p).pd.inflow = min (s.port p).pd.inflow c.credits ∧ t.armed p .psTransition := by
  obtain ⟨u, k, -, he⟩ := hon.step (show exec (.accept h p) s = execAccept h p s from rfl) rfl
  obtain ⟨v, r, l, hp⟩ := k.port
  have hsu : (u.port p).pd.snk = .select := by rw [hp, hst]
  have hwu : (u.port p).pd.want = some c := by rw [hp, hw]
  simp only [k.tc, Tc.isSrc_of_isSnk hsnk, hsu, hwu, Bool.false_eq_true, reduceCtorEq, if_false, if_true] at he
  obtain ⟨o, n, hl⟩ := State.ledgerOf_sink (s := u.disarm p .senderResponse) (p := p) (·.requestTaken c.credits)
    (by rw [State.disarm_port, hp]; exact Tc.isSrc_of_isSnk hsnk)
  have hx : exec (.accept h p) s = .next
    (((u.disarm p .senderResponse).ledgerOf p fun s => s.onPort p (·.requestTaken c.credits)).arm p .psTransition).endStep := he
  rw [State.disarm_port, hp] at hl
  generalize (u.disarm p .senderResponse).ledgerOf p (fun s => s.onPort p (·.requestTaken c.credits)) = w at hx hl
  refine ⟨_, hx, ?_, ?_, State.arm_armed ..⟩ <;> rw [State.endStep_port, State.arm_port, hl] <;> rfl

/-! ## Reject, Wait and Not_Supported (R153, R155) -/

theorem State.wantsEpr_of_contract (hc : (s.port p).pd.contract = none) : s.wantsEpr p = false := by
  unfold State.wantsEpr
  simp [hc]

/-- A sink whose Request is rejected returns to READY under its contract; without one it asks again. -/
theorem reject_spec (hon : s.msgOn h p ⟨.sop, .reject⟩) (hsnk : (s.port p).tc.isSnk = true) (hst : (s.port p).pd.snk = .select)
    (hv : (s.port p).pd.vcsPend = false) (hd : (s.port p).pd.sinkDue = false) :
    ∃ t, exec (.reject h p) s = .next t ∧ (t.port p).pd.snk = (if (s.port p).pd.contract = none then .select else .ready) := by
  obtain ⟨u, k, -, he⟩ := hon.step (show exec (.reject h p) s = execReject h p s from rfl) rfl
  obtain ⟨v, r, l, hp⟩ := k.port
  have hsu : (u.port p).pd.snk = .select := by rw [hp, hst]
  have hvu : (u.port p).pd.vcsPend = false := by rw [hp, hv]
  have hcu : (u.port p).pd.contract = (s.port p).pd.contract := by rw [hp]
  simp only [k.tc, hsnk, hsu, hvu, hcu, Bool.false_eq_true, decide_true, Bool.and_self, if_false, if_true] at he
  generalize hwe : (u.disarm p .senderResponse).onPd p (fun d => { d with want := none }) = w at he
  have hyw : s.onlyPortYard p w := hwe ▸ (k.1.trans (u.disarm_onlyYard p _)).trans (State.onPort_onlyYard _ p _)
  obtain ⟨l', hw⟩ : ∃ l', w.port p = { s.port p with vdm := v, prot := r, pd := { (s.port p).pd with want := none, live := l' } } := by
    rw [← hwe, State.onPd_port, State.disarm_port, hp]
    exact ⟨_, rfl⟩
  refine ⟨_, he, ?_⟩
  rw [State.endStep_port]
  cases hc : (s.port p).pd.contract with
  | none =>
    obtain ⟨-, hpol, -⟩ := State.evaluate_requests (s := w) (p := p) (by rw [hyw.2.1, hon.stop])
      (State.wantsEpr_of_contract (by rw [hw, hc]))
    have hsel : ((w.evaluate p).port p).pd.snk = .select := congrArg (·.pd.snk) hpol
    simpa using hsel
  | some c =>
    obtain ⟨a, b, hpol⟩ := State.sinkReady_policy (s := w) (p := p) (by rw [hw, hd])
    have hrdy : ((w.sinkReady p).port p).pd.snk = .ready := congrArg (·.pd.snk) hpol
    simpa using hrdy

theorem wait_spec (hon : s.msgOn h p ⟨.sop, .wait⟩) (hsnk : (s.port p).tc.isSnk = true) (hst : (s.port p).pd.snk = .select)
    (hv : (s.port p).pd.vcsPend = false) :
    ∃ t, exec (.wait h p) s = .next t ∧ (t.port p).pd.snk = .waited ∧ t.armed p .sinkRequest ∧ s.othersKept p t := by
  obtain ⟨u, k, -, he⟩ := hon.step (show exec (.wait h p) s = execWait h p s from rfl) rfl
  obtain ⟨v, r, l, hp⟩ := k.port
  have hsu : (u.port p).pd.snk = .select := by rw [hp, hst]
  have hvu : (u.port p).pd.vcsPend = false := by rw [hp, hv]
  simp only [k.tc, hsnk, hsu, hvu, Bool.false_eq_true, decide_true, Bool.and_self, if_false, if_true] at he
  have hy := (k.1.trans (u.disarm_onlyYard p .senderResponse)).trans
    (State.onPort_onlyYard _ p fun x => { x with pd := { x.pd with snk := .waited, want := none } })
  refine ⟨_, he, ?_, State.arm_armed .., fun q hq => (hy.trans (State.arm_onlyYard _ p _)).1 q hq⟩
  rw [State.endStep_port, State.arm_port, State.onPd_port]

/-- Not_Supported ends an entry into EPR mode. -/
theorem notSupportedReceived_spec (hon : s.msgOn h p ⟨.sop, .notSupported⟩) (hsnk : (s.port p).tc.isSnk = true)
    (hepr : (s.port p).pd.epr = .entry) (hv : (s.port p).pd.vcsPend = false) :
    ∃ t, exec (.notSupportedReceived h p) s = .next t ∧ (t.port p).pd.epr = .spr ∧ s.othersKept p t := by
  obtain ⟨u, k, -, he⟩ := hon.step (show exec (.notSupportedReceived h p) s = execNotSupportedReceived h p s from rfl) rfl
  obtain ⟨v, r, l, hp⟩ := k.port
  have hsu : (u.port p).pd.epr = .entry := by rw [hp, hepr]
  have hvu : (u.port p).pd.vcsPend = false := by rw [hp, hv]
  simp only [k.tc, hsnk, hsu, hvu, Bool.false_eq_true, decide_true, Bool.and_self, if_false, if_true] at he
  refine ⟨_, he, ?_, fun q hq => ?_⟩
  · rw [State.endStep_port, State.onPd_port]
  · rw [State.endStep_port, State.onPd_port_ne _ _ hq, (u.disarm_onlyYard p _).1 q hq, k.othersKept q hq]

/-! ## PS_RDY (R153, R156) -/

/-- A sink whose contract is reached. -/
def PortState.sinkContracted (x : PortState) (c : Contract) : PortState :=
  { x with pd := { x.pd with contract := some c, want := none, inflow := c.credits }
           met := { x.met with contracts := min (x.met.contracts + 1) 0xFFFFFFFF } }

/-- Asking for EPR mode leaves the sink in READY, under the contract that it has. -/
theorem State.evaluate_enters (hw : s.wantsEpr p = true) :
    ((s.evaluate p).port p).pd.snk = .ready ∧ ((s.evaluate p).port p).pd.contract = (s.port p).pd.contract ∧
      ((s.evaluate p).port p).pd.inflow = (s.port p).pd.inflow := by
  have k := s.disarm_policyKept p .sinkRequest
  unfold State.evaluate
  extract_lets u
  rw [if_pos (by rw [k.wantsEpr, hw])]
  obtain ⟨v, r, l, hs⟩ := ((u.onPort p fun x => { x with pd := { x.pd with snk := .ready, epr := .entry, eprPend := true } }).send_policyKept
    p .sop .eprEnter (.eprMode .enter)).port
  obtain ⟨v', r', l', hp⟩ := k.port
  rw [hs, State.onPort_port_self, hp]
  exact ⟨rfl, rfl, rfl⟩

/-- READY entered by a sink for which nothing is due leaves its contract alone. -/
theorem State.sinkReady_keeps (hd : (s.port p).pd.sinkDue = false) :
    ((s.sinkReady p).port p).pd.snk = .ready ∧ ((s.sinkReady p).port p).pd.contract = (s.port p).pd.contract ∧
      ((s.sinkReady p).port p).pd.inflow = (s.port p).pd.inflow := by
  obtain ⟨a, b, hpol⟩ := State.sinkReady_policy hd
  exact ⟨congrArg (·.pd.snk) hpol, congrArg (·.pd.contract) hpol, congrArg (·.pd.inflow) hpol⟩

/-- The same where the sink then asks for EPR mode. -/
theorem State.readyAgain_keeps (hd : (s.port p).pd.sinkDue = false) :
    let u := s.sinkReady p
    let t := if (u.port p).pd.snk = .ready ∧ u.wantsEpr p then u.evaluate p else u
    (t.port p).pd.snk = .ready ∧ (t.port p).pd.contract = (s.port p).pd.contract ∧ (t.port p).pd.inflow = (s.port p).pd.inflow := by
  intro u t
  obtain ⟨hs, hc, hi⟩ := State.sinkReady_keeps hd
  unfold t
  split
  · next hw =>
    obtain ⟨h₁, h₂, h₃⟩ := State.evaluate_enters hw.2
    exact ⟨h₁, h₂.trans hc, h₃.trans hi⟩
  · exact ⟨hs, hc, hi⟩

/-- A sluice that is told, or not, what the new contract draws. -/
theorem State.slcCmd_pd (s : State) (p : Port) (x : SlcCmd) :
    ((s.slcCmd p x).port p).pd = { (s.port p).pd with slcq := (s.port p).pd.slcq ++ [x] } := by
  rw [State.slcCmd, State.onPort_port_self]

/-- The sink's contract is reached, with the inflow that goes with it, and READY. -/
theorem State.sinkContract_spec (hsrc : (s.port p).tc.isSrc = false) (hd : (s.port p).pd.sinkDue = false) (c : Contract) :
    ((s.sinkContract p c).port p).pd.snk = .ready ∧ ((s.sinkContract p c).port p).pd.contract = some c ∧
      ((s.sinkContract p c).port p).pd.inflow = c.credits := by
  unfold State.sinkContract
  extract_lets s₁ s₂ s₃ on s₄
  obtain ⟨o, n, h₂⟩ : ∃ o n, s₂.port p = { (s₁.port p).sinkContracted c with
      loop := o, pd := { ((s₁.port p).sinkContracted c).pd with cut := n } } :=
    State.ledgerOf_sink (s := s₁) (·.sinkContracted c) (by unfold s₁; rw [State.disarm_port]; exact hsrc)
  obtain ⟨hc₂, hi₂, hd₂⟩ : (s₂.port p).pd.contract = some c ∧ (s₂.port p).pd.inflow = c.credits ∧ (s₂.port p).pd.sinkDue = false := by
    rw [h₂]
    unfold s₁
    rw [State.disarm_port]
    exact ⟨rfl, rfl, hd⟩
  obtain ⟨hc₃, hi₃, hd₃⟩ : (s₃.port p).pd.contract = some c ∧ (s₃.port p).pd.inflow = c.credits ∧ (s₃.port p).pd.sinkDue = false := by
    obtain ⟨o', e, h₃⟩ := ((s₂.pdEvt p 0).pdCnt p 0).limitsFor_port p p (((s₂.pdEvt p 0).pdCnt p 0).port p).pd.contract false
    unfold s₃
    rw [State.limitsNow, h₃]
    simp [State.pdEvt, State.pdCnt, hc₂, hi₂, hd₂]
  obtain ⟨hc₄, hi₄, hd₄⟩ : (s₄.port p).pd.contract = some c ∧ (s₄.port p).pd.inflow = c.credits ∧ (s₄.port p).pd.sinkDue = false := by
    unfold s₄
    split
    · rw [State.slcCmd_pd]
      exact ⟨hc₃, hi₃, hd₃⟩
    · split
      · rw [State.slcCmd_pd]
        exact ⟨hc₃, hi₃, hd₃⟩
      · exact ⟨hc₃, hi₃, hd₃⟩
  clear_value s₄
  have hkept := State.readyAgain_keeps hd₄
  rw [hc₄, hi₄] at hkept
  exact hkept

theorem psRdy_contract (hon : s.msgOn h p ⟨.sop, .psRdy⟩) (hsnk : (s.port p).tc.isSnk = true) (hst : (s.port p).pd.snk = .transition)
    (hv : (s.port p).pd.vcs ≠ 1) (hw : (s.port p).pd.want = some c) (hd : (s.port p).pd.sinkDue = false) :
    ∃ t, exec (.psRdy h p) s = .next t ∧ (t.port p).pd.snk = .ready ∧ (t.port p).pd.contract = some c ∧
      (t.port p).pd.inflow = c.credits := by
  obtain ⟨u, k, -, he⟩ := hon.step (show exec (.psRdy h p) s = execPsRdy h p s from rfl) rfl
  obtain ⟨v, r, l, hp⟩ := k.port
  have hsu : (u.port p).pd.snk = .transition := by rw [hp, hst]
  have hvu : (u.port p).pd.vcs ≠ 1 := by rw [hp]; exact hv
  have hwu : (u.port p).pd.want = some c := by rw [hp, hw]
  simp only [k.tc, hsnk, hsu, hvu, hwu, decide_true, Bool.and_self, if_false, if_true] at he
  refine ⟨_, he, ?_⟩
  rw [State.endStep_port]
  exact State.sinkContract_spec (by rw [k.tc, Tc.isSrc_of_isSnk hsnk]) (by rw [hp, hd]) c

/-! ## Capabilities (R153 to R155) -/

/-- A sink that has taken capabilities and does not ask for EPR mode requests what it chooses from them. -/
theorem State.evaluate_caps (hy : s.onlyPortYard p u) (hs : s.dev.stop = none) (hw : u.wantsEpr p = false) {l : List Pdo}
    (hl : (u.port p).pd.srcCaps = l) {b : Bool} (hb : (u.port p).pd.eprMsgs = b) :
    s.othersKept p (u.evaluate p) ∧ ((u.evaluate p).port p).pd.snk = .select ∧ ((u.evaluate p).port p).pd.srcCaps = l ∧
      ((u.evaluate p).port p).pd.want = some ((u.evaluate p).choose p).1 ∧
      (u.evaluate p).lastTx p = some ⟨.sop, .request,
        if b then .eprRequest ((u.evaluate p).choose p).2 else .request ((u.evaluate p).choose p).2⟩ := by
  obtain ⟨hye, hpol, hlast⟩ := State.evaluate_requests (by rw [hy.2.1, hs]) hw
  rw [Pd.requestMsg, hb] at hlast
  generalize (u.evaluate p).choose p = x at hpol hlast ⊢
  have hsnk : ((u.evaluate p).port p).pd.snk = .select := congrArg (·.pd.snk) hpol
  have hcaps : ((u.evaluate p).port p).pd.srcCaps = (u.port p).pd.srcCaps := congrArg (·.pd.srcCaps) hpol
  have hwant : ((u.evaluate p).port p).pd.want = some x.1 := congrArg (·.pd.want) hpol
  exact ⟨(hy.trans hye).1, hsnk, hcaps.trans hl, hwant, hlast⟩

theorem sourceCapabilities_requests {x : SrcCaps} (hsnk : (s.port p).tc.isSnk = true) (htk : (s.port p).pd.snk.takesCaps = true)
    (hon : s.msgOn h p ⟨.sop, .sourceCap x⟩) (hc : (s.port p).pd.contract = none) (hepr : (s.port p).pd.epr = .spr) :
    ∃ t, exec (.sourceCapabilities h p) s = .next t ∧ s.othersKept p t ∧ (t.port p).pd.snk = .select ∧
      (t.port p).pd.srcCaps = x.pdos ∧ (t.port p).pd.want = some (t.choose p).1 ∧
      t.lastTx p = some ⟨.sop, .request, .request (t.choose p).2⟩ := by
  obtain ⟨u, k, -, he⟩ := hon.step (show exec (.sourceCapabilities h p) s = execSourceCapabilities h p s from rfl) rfl
  obtain ⟨v, r, l, hp⟩ := k.port
  have htu : (u.port p).pd.snk.takesCaps = true := by rw [hp, htk]
  simp only [k.tc, Tc.isSrc_of_isSnk hsnk, htu, Bool.false_eq_true, if_false, if_true] at he
  generalize hwe : (u.disarm p .sinkWaitCap).onPd p (fun d => { d with
    snk := .evaluate, srcCaps := x.pdos, partnerEpr := x.eprCapable, epr := if d.epr = .exit then .spr else d.epr }) = w at he
  have hy : s.onlyPortYard p w := hwe ▸ (k.1.trans (u.disarm_onlyYard p _)).trans (State.onPort_onlyYard _ p _)
  obtain ⟨l', hw⟩ : ∃ l', (w.port p).pd = { (s.port p).pd with
      snk := .evaluate, srcCaps := x.pdos, partnerEpr := x.eprCapable, live := l' } := by
    rw [← hwe, State.onPd_port, State.disarm_port, hp]
    simp only [hepr, reduceCtorEq, if_false]
    exact ⟨_, rfl⟩
  have hspec := State.evaluate_caps hy hon.stop (State.wantsEpr_of_contract (by rw [hw, hc])) (l := x.pdos) (by rw [hw]) (b := false)
    (by simp [Pd.eprMsgs, hw, hepr])
  exact ⟨_, he, hspec⟩

theorem eprSourceCapabilities_requests {x : SrcCaps} (hsnk : (s.port p).tc.isSnk = true) (htk : (s.port p).pd.snk.takesCaps = true)
    (hon : s.msgOn h p ⟨.sop, .eprSourceCap x⟩) (hepr : (s.port p).pd.epr = .epr) :
    ∃ t, exec (.eprSourceCapabilities h p) s = .next t ∧ s.othersKept p t ∧ (t.port p).pd.snk = .select ∧
      (t.port p).pd.srcCaps = x.pdos ∧ t.lastTx p = some ⟨.sop, .request, .eprRequest (t.choose p).2⟩ := by
  obtain ⟨u, k, -, he⟩ := hon.step (show exec (.eprSourceCapabilities h p) s = execEprSourceCapabilities h p s from rfl) rfl
  obtain ⟨v, r, l, hp⟩ := k.port
  have htu : (u.port p).pd.snk.takesCaps = true := by rw [hp, htk]
  have hmu : (u.port p).pd.eprMsgs = true := by
    rw [hp]
    simp [Pd.eprMsgs, hepr]
  simp only [k.tc, hsnk, htu, hmu, Bool.and_self, if_true] at he
  generalize hwe : (u.disarm p .sinkWaitCap).onPd p (fun d => { d with snk := .evaluate, srcCaps := x.pdos }) = w at he
  have hy : s.onlyPortYard p w := hwe ▸ (k.1.trans (u.disarm_onlyYard p _)).trans (State.onPort_onlyYard _ p _)
  obtain ⟨l', hw⟩ : ∃ l', (w.port p).pd = { (s.port p).pd with snk := .evaluate, srcCaps := x.pdos, live := l' } := by
    rw [← hwe, State.onPd_port, State.disarm_port, hp]
    exact ⟨_, rfl⟩
  have hno : w.wantsEpr p = false := by
    unfold State.wantsEpr
    simp [hw, hepr]
  obtain ⟨ho, hsel, hcaps, -, hlast⟩ := State.evaluate_caps hy hon.stop hno (l := x.pdos) (by rw [hw]) (b := true)
    (by simp [Pd.eprMsgs, hw, hepr])
  exact ⟨_, he, ho, hsel, hcaps, hlast⟩

/-- Settles O23: a sink's answers go through the ledger, READY and `evaluate`, whose parts each leave the rest of its contract alone. -/
theorem answersTaken : Obligations.AnswersTaken := by
  unfold Obligations.AnswersTaken
  exact ⟨fun s h p c => ⟨accept_softReset, accept_request, reject_spec, wait_spec, psRdy_contract, notSupportedReceived_spec⟩,
    fun s h p c hsnk htk => ⟨sourceCapabilities_requests hsnk htk, eprSourceCapabilities_requests hsnk htk⟩⟩

end Sys2Proof.Machine
end

section
/-! SUPPORT. The obligation on the admission of a request: what each of its ends finds and leaves (R144 to R146, R171). -/

namespace Sys2Proof.Machine

variable {s t u w : State} {p q : Port} {h : Hand} {c : Contract} {r : Rdo}

/-! ## A request that is being admitted -/

/-- A port that judges a request, with its counters as given. -/
def PortState.admitting (x : PortState) (n : Vector Word 13) : PortState := { x with pd := { x.pd with src := .admission, cnt := n } }

/-- In w port p judges a request, and nothing else of it or of any other port has changed. -/
def State.admits (s : State) (p : Port) (n : Vector Word 13) (w : State) : Prop :=
  s.onlyPortYard p w ∧ (w.port p).policy = ((s.port p).admitting n).policy

section
variable {n : Vector Word 13} (k : s.admits p n w)
include k

theorem State.admits.port : ∃ v o l, w.port p = { s.port p with
    vdm := v, prot := o, pd := { (s.port p).pd with src := .admission, cnt := n, live := l } } := PortState.eq_of_policy k.2

theorem State.admits.dealKept : s.dealKept p w := by
  have e := congrArg PortState.deal k.2
  exact ⟨k.1, e⟩

theorem State.admits.sibAttached : w.sibAttached p = s.sibAttached p := by
  obtain ⟨v, o, l, hp⟩ := k.port
  exact State.sibAttached_congr k.1 (by rw [hp])

theorem State.admits.target : (w.port (w.stageOf p)).stg.target = (s.port (s.stageOf p)).stg.target := by
  obtain ⟨v, o, l, hp⟩ := k.port
  rw [State.stageOf_congr (s := s) (t := w) (by rw [hp])]
  by_cases hq : s.stageOf p = p
  · rw [hq, hp]
  · rw [k.1.1 _ hq]

end

/-- What precedes the judgement: the timers that a request ends or starts. -/
def State.judging (s : State) (p : Port) (r : Rdo) : State :=
  let s := (if (s.port p).pd.vcsPend then s else s.disarm p .senderResponse).disarm p .waitWindow
  let s := match (s.port p).pd.offer.at r.pos with | some ⟨_, .pps _ _ _⟩ => s.arm p .ppsTimeout | _ => s
  s.onPd p fun d => { d with src := .admission }

theorem State.judging_admits (s : State) (p : Port) (r : Rdo) : s.admits p (s.port p).pd.cnt (s.judging p r) := by
  unfold State.judging
  extract_lets s₁ s₂
  have k₁ : s.policyKept p s₁ :=
    (State.policyKept_ite (s.policyKept_refl p) (s.disarm_policyKept p .senderResponse)).trans (State.disarm_policyKept _ p _)
  have k₂ : s.policyKept p s₂ := by
    unfold s₂
    split
    · exact k₁.trans (s₁.arm_policyKept p _)
    · exact k₁
  obtain ⟨v, o, l, hp⟩ := k₂.port
  refine ⟨k₂.1.trans (s₂.onPort_onlyYard p _), ?_⟩
  rw [State.onPd_port, hp]
  rfl

section
variable {e : Bool}

/-- The timers that a request ends leave all that it is judged by. -/
theorem State.requestTimers_pd (s : State) (p : Port) : ∃ l,
    (((if (s.port p).pd.vcsPend then s else s.disarm p .senderResponse).disarm p .waitWindow).port p).pd =
      { (s.port p).pd with live := l } := by
  rw [State.disarm_port]
  split
  · exact ⟨_, rfl⟩
  · rw [State.disarm_port]
    exact ⟨_, rfl⟩

theorem State.admission_otherKind (he : e ≠ (s.port p).pd.eprMsgs) : s.admission p r e = (s.judging p r).reject p := by
  unfold State.admission
  extract_lets s₁ d s₂ s₃
  obtain ⟨l, hl⟩ := s.requestTimers_pd p
  have hd : d.eprMsgs = (s.port p).pd.eprMsgs := by rw [show d = _ from hl]; rfl
  rw [if_pos (by rw [hd]; simpa using he)]
  rfl

theorem State.admission_invalid (hr : requestOf (s.port p).pd.offer r (s.port p).pd.eprMsgs = none) :
    s.admission p r (s.port p).pd.eprMsgs = (s.judging p r).reject p := by
  unfold State.admission
  extract_lets s₁ d s₂ s₃
  obtain ⟨l, hl⟩ := s.requestTimers_pd p
  have hd : d.eprMsgs = (s.port p).pd.eprMsgs := by rw [show d = _ from hl]; rfl
  have ho : d.offer = (s.port p).pd.offer := by rw [show d = _ from hl]
  have h₃ : s₃ = s.judging p r := rfl
  clear_value d s₃
  simp only [hd, ho, hr, h₃, bne_self_eq_false, Bool.false_eq_true, if_false]

/-- A valid request is judged in a state that has, at most, counted a mismatch. -/
theorem State.admission_valid (hr : requestOf (s.port p).pd.offer r (s.port p).pd.eprMsgs = some c) :
    ∃ n w, s.admits p n w ∧ s.admission p r (s.port p).pd.eprMsgs =
      if s.sibAttached p && decide (c.mv ≠ (s.port (s.stageOf p)).stg.target) then w.waitTwin p
      else if decide (c.credits ≤ (s.port p).pd.charge) ||
          (decide ((c.credits : Int) - (s.port p).pd.charge - s.free ≤ 0) && decide ((0 : Int) ≤ s.free)) then w.acceptReq p c
      else w.waitCred p ((c.credits : Int) - (s.port p).pd.charge - s.free).toNat := by
  obtain ⟨n, w, hw, k⟩ : ∃ n w, (if r.mismatch then (s.judging p r).pdCnt p 12 else s.judging p r) = w ∧ s.admits p n w := by
    have k := s.judging_admits p r
    split
    · refine ⟨bump (s.port p).pd.cnt 12, _, rfl, k.1.trans (State.onPort_onlyYard _ p _), ?_⟩
      obtain ⟨v, o, l, hp⟩ := k.port
      rw [State.pdCnt, State.onPort_port_self, hp]
      rfl
    · exact ⟨_, _, rfl, k⟩
  refine ⟨n, w, k, ?_⟩
  unfold State.admission
  extract_lets s₁ d s₂ s₃ s₄
  obtain ⟨l, hl⟩ := s.requestTimers_pd p
  have hd : d.eprMsgs = (s.port p).pd.eprMsgs := by rw [show d = _ from hl]; rfl
  have ho : d.offer = (s.port p).pd.offer := by rw [show d = _ from hl]
  have hc : d.charge = (s.port p).pd.charge := by rw [show d = _ from hl]
  have h₄ : s₄ = w := hw
  clear_value d s₄
  simp only [hd, ho, hc, hr, h₄, bne_self_eq_false, Bool.false_eq_true, if_false, k.sibAttached, k.target, k.dealKept.free]

end

/-- Either command, on a message of its own kind, admits the request. -/
theorem request_admission {e : Bool} {i : Instr} {m : PdMsg}
    (hi : (i, m) = (.request h p, .request r) ∧ e = false ∨ (i, m) = (.eprRequest h p, .eprRequest r) ∧ e = true)
    (hon : s.msgOn h p ⟨.sop, m⟩) (hsrc : (s.port p).tc.isSrc = true) (htk : (s.port p).pd.src.takesRequest = true) :
    ∃ u, s.policyKept p u ∧ exec i s = .next (u.admission p r e).endStep := by
  simp only [Prod.mk.injEq] at hi
  rcases hi with ⟨⟨rfl, rfl⟩, rfl⟩ | ⟨⟨rfl, rfl⟩, rfl⟩
  · obtain ⟨u, k, -, he⟩ := hon.step (show exec (.request h p) s = execRequest h p s from rfl) rfl
    obtain ⟨v, o, l, hp⟩ := k.port
    have htu : (u.port p).pd.src.takesRequest = true := by rw [hp, htk]
    exact ⟨u, k, by simpa only [k.tc, hsrc, htu, Bool.not_true, Bool.false_eq_true, if_false, if_true] using he⟩
  · obtain ⟨u, k, -, he⟩ := hon.step (show exec (.eprRequest h p) s = execEprRequest h p s from rfl) rfl
    obtain ⟨v, o, l, hp⟩ := k.port
    have htu : (u.port p).pd.src.takesRequest = true := by rw [hp, htk]
    exact ⟨u, k, by simpa only [k.tc, hsrc, htu, Bool.not_true, Bool.false_eq_true, if_false, if_true] using he⟩

/-! ## Accept (R145) -/

theorem State.ledgerOf_port (s : State) (p q : Port) (f : State → State) : (s.ledger f).port q = (s.ledgerOf p f).port q := by
  rw [State.ledgerOf, State.cisGrant]
  rfl

theorem State.ledgerOf_dev (s : State) (p : Port) (f : State → State) : (s.ledger f).dev = (s.ledgerOf p f).dev := by
  rw [State.ledgerOf, State.cisGrant]

/-- A change of the ledger that leaves no deficit leaves a port as the change itself does, but for its cut. -/
theorem State.ledger_covered {g : PortState → PortState} (hf : (s.cis.ahead : Int) ≤ (s.onPort p g).free) :
    (s.ledger fun s => s.onPort p g).dev = s.dev ∧ ∃ n, (s.ledger fun s => s.onPort p g).port p =
      { g (s.port p) with pd := { (g (s.port p)).pd with cut := n } } := by
  have hg : (s.onPort p g).port p = g (s.port p) := s.onPort_port_self p g
  have hgd : (s.onPort p g).dev = s.dev := rfl
  rw [State.ledgerOf_dev s p, State.ledgerOf_port s p]
  obtain ⟨x, e⟩ | ⟨-, x, e⟩ := State.ledgerOf_covered (s := s) (p := p) (f := fun s => s.onPort p g) hf
  all_goals
    rw [e]
    generalize s.onPort p g = w at hg hgd
  · exact ⟨hgd, (g (s.port p)).pd.cut, hg⟩
  · have hd : (w.onPorts PortState.uncut).dev = s.dev := by rw [State.onPorts_dev, hgd]
    have hp : (w.onPorts PortState.uncut).port p = (g (s.port p)).uncut := by rw [State.onPorts_port, hg]
    generalize w.onPorts PortState.uncut = v at hd hp
    exact ⟨hd, 0, hp⟩

/-- A port that has accepted a request: what it lacks is pledged. -/
def PortState.pledging (x : PortState) (c : Contract) : PortState :=
  { x with pd := { x.pd with want := some c, pledge := c.credits - x.pd.charge, waits := 0, twinWaits := 0 } }

theorem State.acceptReq_spec (hs : s.dev.stop = none) (hon : s.cisOn = true)
    (hf : (s.cis.ahead : Int) + (c.credits - (s.port p).pd.charge : Nat) ≤ s.free) :
    ((s.acceptReq p c).port p).pd.want = some c ∧ ((s.acceptReq p c).port p).pd.pledge = c.credits - (s.port p).pd.charge ∧
      ((s.acceptReq p c).port p).pd.src = (s.port p).pd.src ∧ ((s.acceptReq p c).port p).pd.charge = (s.port p).pd.charge ∧
      (s.acceptReq p c).lastTx p = some ⟨.sop, .accept, .accept⟩ := by
  have hfree : (s.cis.ahead : Int) ≤ (s.onPort p (·.pledging c)).free := by
    have hsum := State.free_onPort (s := s) (p := p) (f := (·.pledging c)) hon rfl
    have hch : ((s.port p).pledging c).pd.charge = (s.port p).pd.charge := rfl
    have hpl : ((s.port p).pledging c).pd.pledge = c.credits - (s.port p).pd.charge := rfl
    rw [hch, hpl] at hsum
    omega
  obtain ⟨hd, n, hp⟩ := State.ledger_covered hfree
  have he : s.acceptReq p c = (s.ledger fun s => s.onPort p (·.pledging c)).send p .sop .accept .accept := rfl
  rw [he]
  generalize (s.ledger fun s => s.onPort p (·.pledging c)) = w at hd hp
  have hsw : w.dev.stop = none := by rw [hd, hs]
  rw [State.send_port hsw, hp]
  exact ⟨rfl, rfl, rfl, rfl, State.send_lastTx hsw ..⟩

/-! ## Wait (R145, R146, R171) -/

theorem State.send_othersKept (s : State) (p : Port) (k : Sop) (n : TxKind) (m : PdMsg) : s.othersKept p (s.send p k n m) :=
  (s.send_policyKept p k n m).othersKept

/-- Wait for credits, no more than twice in a row before. -/
theorem State.waitCred_spec (hs : s.dev.stop = none) (hw : (s.port p).pd.waits < 2) (n : Nat) :
    ((s.waitCred p n).port p).pd.src = .waitReq ∧ (s.waitCred p n).lastTx p = some ⟨.sop, .wait, .wait⟩ ∧
      (s.waitCred p n).armed p .waitWindow ∧ ((s.waitCred p n).port p).pd.charge = (s.port p).pd.charge ∧
      s.othersKept p (s.waitCred p n) := by
  unfold State.waitCred
  extract_lets s₁ s₂
  have hy₁ : s.onlyPortYard p s₁ := (s.onPort_onlyYard p _).trans ((State.onPort_onlyYard _ p _).trans (State.onPort_onlyYard _ p _))
  have hs₁ : s₁.dev.stop = none := by rw [hy₁.2.1, hs]
  obtain ⟨hsrc, hwt, hch⟩ : (s₁.port p).pd.src = .waitReq ∧ (s₁.port p).pd.waits = (s.port p).pd.waits + 1 ∧
      (s₁.port p).pd.charge = (s.port p).pd.charge := by
    simp [s₁, State.onPd_port, State.pdEvt, State.pdCnt]
  have hp₂ : s₂.port p = { s₁.port p with prot.txq := (s₁.port p).prot.txq ++ [⟨.sop, .wait, .wait⟩] } := by
    unfold s₂
    rw [State.seek_port, State.send_port hs₁]
  have ho₂ : s.othersKept p s₂ := fun q hq => by
    unfold s₂
    rw [State.seek_port, s₁.send_othersKept p .sop .wait .wait q hq, hy₁.1 q hq]
  clear_value s₁ s₂
  rw [if_neg (by rw [hp₂]; simp only [hwt]; omega)]
  refine ⟨?_, ?_, State.arm_armed .., ?_, fun q hq => ?_⟩
  · rw [State.arm_port, hp₂, hsrc]
  · rw [State.arm_lastTx, State.lastTx, hp₂]
    exact List.getLast?_concat
  · rw [State.arm_port, hp₂, hch]
  · rw [(s₂.arm_onlyYard p _).1 q hq, ho₂ q hq]

/-- What a Wait for the shared stage notes and sends. -/
theorem State.waitTwin_start (hs : s.dev.stop = none) : ∃ w, s.onlyPortYard p w ∧
    (w.port p).pd.src = .waitReq ∧ (w.port p).pd.twinWaits = (s.port p).pd.twinWaits + 1 ∧
    (w.port p).pd.noMove = ((s.port p).pd.noMove || decide (2 ≤ (s.port p).pd.twinWaits)) ∧
    (w.port p).pd.charge = (s.port p).pd.charge ∧ w.lastTx p = some ⟨.sop, .wait, .wait⟩ ∧
    s.waitTwin p = if 3 ≤ (w.port p).pd.twinWaits then (w.onPd p fun d => { d with twinWaits := 0 }).offer p else w.arm p .waitWindow := by
  let s₁ := ((s.pdEvt p 8).pdCnt p 10).onPd p fun d => { d with
    src := .waitReq, waits := 0, twinWaits := d.twinWaits + 1, noMove := d.noMove || decide (2 ≤ d.twinWaits) }
  have hy₁ : s.onlyPortYard p s₁ := (s.onPort_onlyYard p _).trans ((State.onPort_onlyYard _ p _).trans (State.onPort_onlyYard _ p _))
  have hs₁ : s₁.dev.stop = none := by rw [hy₁.2.1, hs]
  refine ⟨s₁.send p .sop .wait .wait, hy₁.trans (s₁.send_policyKept ..).1, ?_, ?_, ?_, ?_, State.send_lastTx hs₁ .., rfl⟩ <;>
    rw [State.send_port hs₁] <;> simp [s₁, State.onPd_port, State.pdEvt, State.pdCnt]

theorem State.waitTwin_waits (hs : s.dev.stop = none) (hw : (s.port p).pd.twinWaits < 2) :
    ((s.waitTwin p).port p).pd.src = .waitReq ∧ (s.waitTwin p).lastTx p = some ⟨.sop, .wait, .wait⟩ ∧
      ((s.waitTwin p).port p).pd.twinWaits = (s.port p).pd.twinWaits + 1 ∧ (s.waitTwin p).armed p .waitWindow ∧
      ((s.waitTwin p).port p).pd.charge = (s.port p).pd.charge ∧ s.othersKept p (s.waitTwin p) := by
  obtain ⟨w, hy, hsrc, htw, -, hch, hl, he⟩ := State.waitTwin_start (p := p) hs
  rw [he, if_neg (by omega)]
  refine ⟨?_, ?_, ?_, State.arm_armed .., ?_, (hy.trans (w.arm_onlyYard p _)).1⟩
  · rw [State.arm_port, hsrc]
  · rw [State.arm_lastTx, hl]
  · rw [State.arm_port, htw]
  · rw [State.arm_port, hch]

/-- After the third Wait in a row the port offers anew, without what would move the stage; the Wait goes first. -/
theorem State.waitTwin_offers (hs : s.dev.stop = none) (hw : (s.port p).pd.twinWaits = 2) :
    ((s.waitTwin p).port p).pd.src = .sendCaps ∧ ((s.waitTwin p).port p).pd.noMove = true ∧
      (⟨.sop, .wait, .wait⟩ : TxMsg) ∈ ((s.waitTwin p).port p).prot.txq ∧ s.othersKept p (s.waitTwin p) := by
  obtain ⟨w, hy, -, htw, hno, -, hl, he⟩ := State.waitTwin_start (p := p) hs
  rw [he, if_pos (by omega)]
  have hy' := hy.trans (w.onPort_onlyYard p fun x => { x with pd := { x.pd with twinWaits := 0 } })
  have hp : (w.onPd p fun d => { d with twinWaits := 0 }).port p = { w.port p with pd := { (w.port p).pd with twinWaits := 0 } } :=
    State.onPd_port ..
  have hmem : (⟨.sop, .wait, .wait⟩ : TxMsg) ∈ ((w.onPd p fun d => { d with twinWaits := 0 }).port p).prot.txq := by
    rw [hp]
    exact List.mem_of_getLast? hl
  change s.onlyPortYard p (w.onPd p fun d => { d with twinWaits := 0 }) at hy'
  generalize (w.onPd p fun d => { d with twinWaits := 0 }) = x at hp hmem hy'
  obtain ⟨v, o, l, ho⟩ := x.offerTry_port p 1
  refine ⟨?_, ?_, x.offerTry_queueKept p 1 _ hmem (by simp) (by simp), (hy'.trans (x.offerTry_onlyYard p 1)).1⟩
  · rw [State.offer, ho]
  · rw [State.offer, ho, hp]
    simp [hno, hw]

/-! ## Reject (R138, R144) -/

/-- What a Reject counts and sends, before the port returns to READY or waits to offer anew. -/
theorem State.reject_start (hs : s.dev.stop = none) : ∃ w, s.onlyPortYard p w ∧ (w.port p).pd.contract = (s.port p).pd.contract ∧
    (w.port p).pd.cnt = bump (s.port p).pd.cnt 5 ∧ w.lastTx p = some ⟨.sop, .reject, .reject⟩ ∧
    s.reject p = if (w.port p).pd.contract.isSome then w.enterReady p else w.arm p .rejectResend := by
  let s₁ := (s.pdEvt p 7).pdCnt p 5
  have hy₁ : s.onlyPortYard p s₁ := (s.onPort_onlyYard p _).trans (State.onPort_onlyYard _ p _)
  have hs₁ : s₁.dev.stop = none := by rw [hy₁.2.1, hs]
  have hp : s₁.port p = { s.port p with
      pd := { (s.port p).pd with evt := setBit (s.port p).pd.evt 7, cnt := bump (s.port p).pd.cnt 5 } } := by
    simp [s₁, State.pdEvt, State.pdCnt]
  refine ⟨(s₁.send p .sop .reject .reject).onPd p fun d => { d with waits := 0, twinWaits := 0 },
    (hy₁.trans (s₁.send_policyKept ..).1).trans (State.onPort_onlyYard _ p _), ?_, ?_, ?_, rfl⟩
  · rw [State.onPd_port, State.send_port hs₁, hp]
  · rw [State.onPd_port, State.send_port hs₁, hp]
  · rw [State.onPd_lastTx]
    exact State.send_lastTx hs₁ ..

theorem State.reject_resends (hs : s.dev.stop = none) (hc : (s.port p).pd.contract = none) :
    (s.reject p).lastTx p = some ⟨.sop, .reject, .reject⟩ ∧ (s.reject p).armed p .rejectResend ∧ s.othersKept p (s.reject p) := by
  obtain ⟨w, hy, hcw, -, hl, he⟩ := State.reject_start (p := p) hs
  rw [he, if_neg (by rw [hcw, hc]; simp)]
  exact ⟨by rw [State.arm_lastTx, hl], State.arm_armed .., (hy.trans (w.arm_onlyYard p _)).1⟩

/-- A Reject goes and counts, whatever follows it. -/
theorem State.reject_spec (hs : s.dev.stop = none) :
    (⟨.sop, .reject, .reject⟩ : TxMsg) ∈ ((s.reject p).port p).prot.txq ∧
      ((s.reject p).port p).pd.contract = (s.port p).pd.contract ∧ ((s.reject p).port p).pd.cnt = bump (s.port p).pd.cnt 5 ∧
      s.othersKept p (s.reject p) := by
  obtain ⟨w, hy, hcw, hn, hl, he⟩ := State.reject_start (p := p) hs
  have hmem : (⟨.sop, .reject, .reject⟩ : TxMsg) ∈ (w.port p).prot.txq := List.mem_of_getLast? hl
  rw [he]
  split
  · obtain ⟨hyr, hcr, hnr, hq⟩ := w.enterReady_spec p
    exact ⟨hq _ hmem (by simp) (by simp), hcr.trans hcw, hnr.trans hn, (hy.trans hyr).1⟩
  · rw [State.arm_port]
    exact ⟨hmem, hcw, hn, (hy.trans (w.arm_onlyYard p _)).1⟩

/-! ## The commands -/

theorem State.policyKept.admits {n : Vector Word 13} (k : s.policyKept p u) (a : u.admits p n w) : s.admits p n w := by
  obtain ⟨v, o, l, hp⟩ := k.port
  refine ⟨k.1.trans a.1, a.2.trans ?_⟩
  rw [hp]
  rfl

theorem State.admits.stop {m : RxMsg} {n : Vector Word 13} (k : s.admits p n w) (hon : s.msgOn h p m) : w.dev.stop = none := by
  rw [k.dealKept.dev, hon.stop]

theorem State.admits.cisOn {m : RxMsg} {n : Vector Word 13} (k : s.admits p n w) (hon : s.msgOn h p m) : w.cisOn = true := by
  obtain ⟨hh, -⟩ := hon
  rw [State.cisOn, k.dealKept.dev]
  exact hh.cisOn

section
variable {i : Instr} {m : PdMsg} {e : Bool}
  (hi : (i, m) = (.request h p, .request r) ∧ e = false ∨ (i, m) = (.eprRequest h p, .eprRequest r) ∧ e = true)
  (hon : s.msgOn h p ⟨.sop, m⟩) (hsrc : (s.port p).tc.isSrc = true) (htk : (s.port p).pd.src.takesRequest = true)
include hi hon hsrc htk

/-- A request of the kind that is not in force is rejected. -/
theorem request_otherKind (he : e ≠ (s.port p).pd.eprMsgs) :
    ∃ t, exec i s = .next t ∧ (⟨.sop, .reject, .reject⟩ : TxMsg) ∈ (t.port p).prot.txq ∧
      (t.port p).pd.contract = (s.port p).pd.contract ∧ (t.port p).pd.cnt[5] = satInc (s.port p).pd.cnt[5] ∧ s.othersKept p t := by
  obtain ⟨u, k, hx⟩ := request_admission hi hon hsrc htk
  obtain ⟨v, o, l, hp⟩ := k.port
  have hm : (u.port p).pd.eprMsgs = (s.port p).pd.eprMsgs := by rw [hp]; rfl
  have hn : (u.port p).pd.cnt = (s.port p).pd.cnt := by rw [hp]
  have a := k.admits (u.judging_admits p r)
  rw [hn] at a
  rw [State.admission_otherKind (by rw [hm]; exact he)] at hx
  generalize u.judging p r = w at a hx
  obtain ⟨v', o', l', hw⟩ := a.port
  obtain ⟨hmem, hc, hcnt, ho⟩ := State.reject_spec (p := p) (a.stop hon)
  refine ⟨_, hx, hmem, ?_, ?_, fun q hq => ?_⟩
  · rw [State.endStep_port, hc, hw]
  · rw [State.endStep_port, hcnt, hw]
    simp [bump]
  · rw [State.endStep_port, ho q hq, a.1.1 q hq]

variable (hm : e = (s.port p).pd.eprMsgs)
include hm

/-- A request at a position that the offer does not have, without a contract. -/
theorem request_invalid (hr : requestOf (s.port p).pd.offer r (s.port p).pd.eprMsgs = none) (hc : (s.port p).pd.contract = none) :
    ∃ t, exec i s = .next t ∧ t.lastTx p = some ⟨.sop, .reject, .reject⟩ ∧ t.armed p .rejectResend ∧ s.othersKept p t := by
  obtain ⟨u, k, hx⟩ := request_admission hi hon hsrc htk
  obtain ⟨v, o, l, hp⟩ := k.port
  have hmu : e = (u.port p).pd.eprMsgs := by rw [hm, hp]; rfl
  have hru : requestOf (u.port p).pd.offer r (u.port p).pd.eprMsgs = none := by rw [← hmu, hm, hp]; exact hr
  have a := k.admits (u.judging_admits p r)
  rw [hmu, State.admission_invalid hru] at hx
  generalize u.judging p r = w at a hx
  obtain ⟨v', o', l', hw⟩ := a.port
  obtain ⟨hl, harm, ho⟩ := State.reject_resends (p := p) (a.stop hon) (by rw [hw, hc])
  refine ⟨_, hx, hl, harm, fun q hq => ?_⟩
  rw [State.endStep_port, ho q hq, a.1.1 q hq]

variable (hr : requestOf (s.port p).pd.offer r (s.port p).pd.eprMsgs = some c)
include hr

/-- A valid request is judged by what the command finds. -/
theorem request_valid : ∃ n w, s.admits p n w ∧ exec i s = .next (
    if s.sibAttached p && decide (c.mv ≠ (s.port (s.stageOf p)).stg.target) then w.waitTwin p
    else if decide (c.credits ≤ (s.port p).pd.charge) ||
        (decide ((c.credits : Int) - (s.port p).pd.charge - s.free ≤ 0) && decide ((0 : Int) ≤ s.free)) then w.acceptReq p c
    else w.waitCred p ((c.credits : Int) - (s.port p).pd.charge - s.free).toNat).endStep := by
  obtain ⟨u, k, hx⟩ := request_admission hi hon hsrc htk
  obtain ⟨v, o, l, hp⟩ := k.port
  have hmu : e = (u.port p).pd.eprMsgs := by rw [hm, hp]; rfl
  have hcu : (u.port p).pd.charge = (s.port p).pd.charge := by rw [hp]
  have hst : (u.port (s.stageOf p)).stg.target = (s.port (s.stageOf p)).stg.target := by rw [k.stg]
  obtain ⟨n, w, a, hw⟩ := State.admission_valid (s := u) (p := p) (r := r) (c := c) (by rw [← hmu, hm, hp]; exact hr)
  rw [hmu, hw, k.sibAttached, k.stageOf, hst, hcu, k.dealKept.free] at hx
  exact ⟨n, w, k.admits a, hx⟩

/-- The ledger covers what the request needs. -/
theorem request_accepted (hsib : s.sibAttached p = true → c.mv = (s.port (s.stageOf p)).stg.target)
    (hf : (s.cis.ahead : Int) + (c.credits - (s.port p).pd.charge : Nat) ≤ s.free) :
    ∃ t, exec i s = .next t ∧ (t.port p).pd.want = some c ∧ (t.port p).pd.pledge = c.credits - (s.port p).pd.charge ∧
      (t.port p).pd.src = .admission ∧ (t.port p).pd.charge = (s.port p).pd.charge ∧
      t.lastTx p = some ⟨.sop, .accept, .accept⟩ := by
  obtain ⟨n, w, a, hx⟩ := request_valid hi hon hsrc htk hm hr
  obtain ⟨v, o, l, hw⟩ := a.port
  have hch : (w.port p).pd.charge = (s.port p).pd.charge := by rw [hw]
  have hst : (w.port p).pd.src = .admission := by rw [hw]
  have hcov : (decide (c.credits ≤ (s.port p).pd.charge) ||
      (decide ((c.credits : Int) - (s.port p).pd.charge - s.free ≤ 0) && decide ((0 : Int) ≤ s.free))) = true := by
    simp only [Bool.or_eq_true, Bool.and_eq_true, decide_eq_true_eq]
    omega
  have hno : ¬ (s.sibAttached p && decide (c.mv ≠ (s.port (s.stageOf p)).stg.target)) = true := by
    simp only [Bool.and_eq_true, decide_eq_true_eq]
    exact fun hb => hb.2 (hsib hb.1)
  rw [if_neg hno, if_pos hcov] at hx
  have hspec := State.acceptReq_spec (p := p) (c := c) (a.stop hon) (a.cisOn hon)
    (by rw [a.dealKept.cis, a.dealKept.free, hch]; exact hf)
  rw [hch, hst] at hspec
  refine ⟨_, hx, ?_⟩
  rw [State.endStep_lastTx, State.endStep_port]
  exact hspec

/-- The ledger does not cover what the request needs. -/
theorem request_waits (hsib : s.sibAttached p = true → c.mv = (s.port (s.stageOf p)).stg.target)
    (hf : s.free < (c.credits : Int) - (s.port p).pd.charge) (hlt : (s.port p).pd.charge < c.credits) (hwt : (s.port p).pd.waits < 2) :
    ∃ t, exec i s = .next t ∧ (t.port p).pd.src = .waitReq ∧ t.lastTx p = some ⟨.sop, .wait, .wait⟩ ∧
      t.armed p .waitWindow ∧ (t.port p).pd.charge = (s.port p).pd.charge ∧ s.othersKept p t := by
  obtain ⟨n, w, a, hx⟩ := request_valid hi hon hsrc htk hm hr
  obtain ⟨v, o, l, hw⟩ := a.port
  have hcov : ¬ (decide (c.credits ≤ (s.port p).pd.charge) ||
      (decide ((c.credits : Int) - (s.port p).pd.charge - s.free ≤ 0) && decide ((0 : Int) ≤ s.free))) = true := by
    simp only [Bool.or_eq_true, Bool.and_eq_true, decide_eq_true_eq]
    omega
  have hno : ¬ (s.sibAttached p && decide (c.mv ≠ (s.port (s.stageOf p)).stg.target)) = true := by
    simp only [Bool.and_eq_true, decide_eq_true_eq]
    exact fun hb => hb.2 (hsib hb.1)
  rw [if_neg hno, if_neg hcov] at hx
  obtain ⟨hst, hl, harm, hch, ho⟩ := State.waitCred_spec (p := p) (a.stop hon) (by rw [hw]; exact hwt)
    ((c.credits : Int) - (s.port p).pd.charge - s.free).toNat
  refine ⟨_, hx, hst, hl, harm, ?_, fun q hq => ?_⟩
  · rw [State.endStep_port, hch, hw]
  · rw [State.endStep_port, ho q hq, a.1.1 q hq]

variable (hsib : s.sibAttached p = true) (hmv : c.mv ≠ (s.port (s.stageOf p)).stg.target)
include hsib hmv

theorem request_twin : ∃ n w, s.admits p n w ∧ exec i s = .next (w.waitTwin p).endStep := by
  obtain ⟨n, w, a, hx⟩ := request_valid hi hon hsrc htk hm hr
  rw [if_pos (by simp [hsib, hmv])] at hx
  exact ⟨n, w, a, hx⟩

/-- The stage serves the sibling at another voltage. -/
theorem request_twinWaits (hwt : (s.port p).pd.twinWaits < 2) :
    ∃ t, exec i s = .next t ∧ (t.port p).pd.src = .waitReq ∧ t.lastTx p = some ⟨.sop, .wait, .wait⟩ ∧
      (t.port p).pd.twinWaits = (s.port p).pd.twinWaits + 1 ∧ t.armed p .waitWindow ∧
      (t.port p).pd.charge = (s.port p).pd.charge ∧ s.othersKept p t := by
  obtain ⟨n, w, a, hx⟩ := request_twin hi hon hsrc htk hm hr hsib hmv
  obtain ⟨v, o, l, hw⟩ := a.port
  obtain ⟨hst, hl, htw, harm, hch, ho⟩ := State.waitTwin_waits (p := p) (a.stop hon) (by rw [hw]; exact hwt)
  refine ⟨_, hx, hst, hl, ?_, harm, ?_, fun q hq => ?_⟩
  · rw [State.endStep_port, htw, hw]
  · rw [State.endStep_port, hch, hw]
  · rw [State.endStep_port, ho q hq, a.1.1 q hq]

/-- The third Wait in a row for the stage. -/
theorem request_twinOffers (hwt : (s.port p).pd.twinWaits = 2) :
    ∃ t, exec i s = .next t ∧ (t.port p).pd.src = .sendCaps ∧ (t.port p).pd.noMove = true ∧
      (⟨.sop, .wait, .wait⟩ : TxMsg) ∈ (t.port p).prot.txq ∧ s.othersKept p t := by
  obtain ⟨n, w, a, hx⟩ := request_twin hi hon hsrc htk hm hr hsib hmv
  obtain ⟨v, o, l, hw⟩ := a.port
  obtain ⟨hst, hno, hmem, ho⟩ := State.waitTwin_offers (p := p) (a.stop hon) (by rw [hw]; exact hwt)
  refine ⟨_, hx, hst, hno, hmem, fun q hq => ?_⟩
  rw [State.endStep_port, ho q hq, a.1.1 q hq]

end

/-- Settles O21: every request is judged in a state that differs by the timers it ended alone, and each answer leaves what is listed. -/
theorem requestsAdmitted : Obligations.RequestsAdmitted := by
  unfold Obligations.RequestsAdmitted
  refine ⟨fun s h p r c i m hi hon hsrc htk => ?_, fun s h p r i m hi hon hsrc htk => ?_⟩
  · have hk : (i, m) = (.request h p, .request r) ∧ (s.port p).pd.eprMsgs = false ∨
        (i, m) = (.eprRequest h p, .eprRequest r) ∧ (s.port p).pd.eprMsgs = true := hi
    exact ⟨fun hr hsib => ⟨request_accepted hk hon hsrc htk rfl hr hsib, request_waits hk hon hsrc htk rfl hr hsib⟩,
      fun hr hsib hmv => ⟨request_twinWaits hk hon hsrc htk rfl hr hsib hmv, request_twinOffers hk hon hsrc htk rfl hr hsib hmv⟩,
      request_invalid hk hon hsrc htk rfl⟩
  · have hk : (i, m) = (.request h p, .request r) ∧ (!(s.port p).pd.eprMsgs) = false ∨
        (i, m) = (.eprRequest h p, .eprRequest r) ∧ (!(s.port p).pd.eprMsgs) = true := by simpa using hi
    exact request_otherKind hk hon hsrc htk (by simp)

end Sys2Proof.Machine
end

section
/-! SUPPORT. The obligation on the frames of the mux chain (R190, R192). -/

namespace Sys2Proof.Machine

variable {s : State} {r : MuxReq}

/-! ## The arbiter's one request (R41, R190) -/

theorem Mux.head_one {m : Mux} (hr : m.reqs = [r]) (k : Nat) : m.head k = if r.hand = k then some r else none := by
  by_cases hk : r.hand = k <;> simp [Mux.head, hr, hk]

/-- The one request is granted, wherever the pointer stands. -/
theorem Mux.grant_one {m : Mux} (hr : m.reqs = [r]) (hh : r.hand < 16) :
    m.grant = { m with ptr := ptrAfter 16 r.hand, reqs := [], next := m.next.set r.port r.nib, used := m.cycle + 1 } := by
  have hwant : (fun k => (m.head k).isSome) = fun k => [(⟨r.hand, hh⟩ : Fin 16)].any fun w => w.val = k := by
    funext k
    rw [Mux.head_one hr]
    by_cases hk : r.hand = k <;> simp [hk]
  have hpick : rrPick m.ptr 16 (fun k => (m.head k).isSome) = some r.hand := by
    rw [hwant]
    exact rrPick_one m.ptr _
  delta Mux.grant
  simp only [hpick]
  simp only [Mux.head_one hr, if_true, hr, List.erase_cons_head]

/-- A window in which one request waits grants it. -/
theorem Mux.window_one {m : Mux} (hr : m.reqs = [r]) (hh : r.hand < 16) (n : Nat) : Mux.window (n + 2) m = m.grant := by
  have hempty : m.grant.reqs.isEmpty = true := by rw [Mux.grant_one hr hh]; rfl
  rw [Mux.window, if_neg (by simp [hr]), Mux.window, if_pos hempty]

/-! ## The frames -/

/-- The chain as a frame starts: the window is open, and nothing has been granted in it. -/
def Mux.start (m : Mux) : Mux := { m with busy := true, left := 16, used := 0 }

section
variable (hp : s.dev.phase = .run) (hb : s.mux.busy = false)
include hp hb

theorem muxFrameStart_granted (hz : s.mux.zero = false) (hr : s.mux.reqs = [r]) (hh : r.hand < 16) :
    exec .muxFrameStart s = .next { s with mux := { s.mux with
      busy := true, ptr := ptrAfter 16 r.hand, reqs := [], next := s.mux.next.set r.port r.nib, left := 16, used := 1 } } := by
  have hw : Mux.window 16 s.mux.start = { s.mux with
      busy := true, ptr := ptrAfter 16 r.hand, reqs := [], next := s.mux.next.set r.port r.nib, left := 16, used := 1 } := by
    have hrs : s.mux.start.reqs = [r] := hr
    rw [Mux.window_one hrs hh 14, Mux.grant_one hrs hh]
    rfl
  rw [← hw]
  show execMuxFrameStart s = _
  simp [execMuxFrameStart, hp, hb, hz, hr, Mux.start]

theorem muxFrameStart_zero (hz : s.mux.zero = true) (hs : s.dev.stop = none) :
    exec .muxFrameStart s = .next { s with mux := { s.mux with
      busy := true, zero := false, next := Vector.replicate 48 0#4, reqs := [], left := 0 } } := by
  show execMuxFrameStart s = _
  simp [execMuxFrameStart, hp, hb, hz, hs]

end

theorem muxFrameEnd_latches (hb : s.mux.busy = true) :
    exec .muxFrameEnd s = .next { s with mux := { s.mux with
      busy := false, shown := true, latched := s.mux.next, frames := satInc s.mux.frames, left := 0 } } := by
  show execMuxFrameEnd s = _
  rw [execMuxFrameEnd, if_pos hb]

/-- Settles O33: the window grants the one request that waits, or the zero frame discards what waits, and the end latches the image. -/
theorem muxFrames : Obligations.MuxFrames := by
  unfold Obligations.MuxFrames
  intro s r hp hb
  refine ⟨fun hz hr hh => ?_, fun hz hs => ?_⟩
  · exact ⟨_, muxFrameStart_granted hp hb hz hr hh, rfl, rfl, rfl, rfl, rfl, _, muxFrameEnd_latches rfl, rfl, rfl, rfl, rfl⟩
  · exact ⟨_, muxFrameStart_zero hp hb hz hs, rfl, rfl, rfl⟩

end Sys2Proof.Machine
end

section
/-! SUPPORT. The steps of the VDM machine with a port's partner: how each operation moves the machine, and that it touches nothing else but the
port's messages, its timers and the yard (R175 to R187). -/

namespace Sys2Proof.Machine

variable {s t u : State} {p q : Port} {h : Hand} {m : VdmP} {v c : Vdm}

/-! ## The machine moves -/

/-- From s to t the VDM machine of port p has come to m; else nothing has changed but the port's messages, its timers and the yard. -/
def State.vdmTo (s : State) (p : Port) (m : VdmP) (t : State) : Prop := s.policyKept p t ∧ (t.port p).vdm = m

/-- From s to t the VDM machine of port p has come to m, and no other port has changed. -/
def State.vdmEnds (s : State) (p : Port) (m : VdmP) (t : State) : Prop := s.othersKept p t ∧ (t.port p).vdm = m

theorem State.vdmEnds.endStep (k : s.vdmEnds p m t) : s.vdmEnds p m t.endStep := k

/-- A command sent in a state of the machine. -/
def VdmP.sent (m : VdmP) (st : VdmState) (c : Vdm) : VdmP := { m with st := st, out := some c, intr := false, waiting := false }

/-- The machine in NO_MODE. -/
def VdmP.inNoMode (m : VdmP) : VdmP :=
  { m with st := .noMode, out := none, intr := false, waiting := false, busies := 0, left := [], evt := setBit m.evt 5 }

/-- A message of the partner was seen at a version. -/
def VdmP.seen (m : VdmP) (n : Nat) : VdmP := { m with ver := min m.ver n }

/-- The pending command is answered at a version. -/
def VdmP.answered (m : VdmP) (n : Nat) : VdmP := { m with out := none, busies := 0, ver := min m.ver n }

/-- An event of the machine sets. -/
def VdmP.event (m : VdmP) (i : Nat) : VdmP := { m with evt := setBit m.evt i }

/-- A happening of the machine counts. -/
def VdmP.count (m : VdmP) (i : Fin 7) : VdmP := { m with cnt := bump m.cnt i }

/-- One more list of SVIDs is asked for. -/
def VdmP.nextRound (m : VdmP) : VdmP := { m with rounds := m.rounds + 1 }

/-- Discover SVIDs (R183). -/
def discSvidsCmd (ver : Nat) : Vdm := ⟨0xFF00#16, ver, .discSvids, .req, 0, .none⟩

/-- Entry e is taken up, of those left. -/
def VdmP.takes (m : VdmP) (e : Nat) (b : List Nat) : VdmP := { m with entry := e, left := b, busies := 0 }

/-- The step of the pending command is over without an answer. -/
def VdmP.dropped (m : VdmP) : VdmP := { m with out := none, waiting := false, busies := 0, intr := false }

section
variable (k : s.vdmTo p m t)
include k

theorem State.vdmTo.othersKept : s.othersKept p t := k.1.othersKept
theorem State.vdmTo.stop (hs : s.dev.stop = none) : t.dev.stop = none := by rw [k.1.dev, hs]

/-- The step ends there. -/
theorem State.vdmTo.endStep : s.vdmEnds p m t.endStep := ⟨k.1.othersKept, k.2⟩

theorem State.vdmTo.entry : t.entryOfVdm p = s.entryAt m.entry := by
  rw [State.entryOfVdm, k.1.alm, k.2]
  rfl

theorem State.vdmTo.listed (l : List (BitVec 16)) (hl : m.svids = (s.port p).vdm.svids ++ l.filter fun x => decide (x ≠ 0#16)) (e : Nat) :
    t.listed p [] e = s.listed p l e := by
  simp only [State.listed, State.entryAt, k.1.alm, k.2, hl, List.filter_nil, List.append_nil]

theorem State.vdmTo.onVdm (f : VdmP → VdmP) : s.vdmTo p (f m) (t.onVdm p f) :=
  ⟨k.1.trans (t.onVdm_policyKept p f), by rw [State.onVdm_vdm, k.2]⟩

theorem State.vdmTo.vdmEvt (i : Nat) : s.vdmTo p (m.event i) (t.vdmEvt p i) := k.onVdm (·.event i)

theorem State.vdmTo.vdmCnt (i : Fin 7) : s.vdmTo p (m.count i) (t.vdmCnt p i) := k.onVdm (·.count i)

theorem State.vdmTo.arm (i : TimerId) : s.vdmTo p m (t.arm p i) :=
  ⟨k.1.trans (t.arm_policyKept p i), by rw [State.arm_port, ← k.2]⟩

theorem State.vdmTo.disarms (l : List TimerId) : s.vdmTo p m (l.foldl (fun s i => s.disarm p i) t) := by
  obtain ⟨w, hw⟩ := t.disarms_port p l
  exact ⟨k.1.trans (t.disarms_policyKept p l), by rw [hw, ← k.2]⟩

theorem State.vdmTo.vdmTimersOff : s.vdmTo p m (t.vdmTimersOff p) := k.disarms _
theorem State.vdmTo.cableTimersOff : s.vdmTo p m (t.cableTimersOff p) := k.disarms _

theorem State.vdmTo.send (d : Sop) (n : TxKind) (x : PdMsg) : s.vdmTo p m (t.send p d n x) :=
  ⟨k.1.trans (t.send_policyKept p d n x), by rw [State.send_vdm, k.2]⟩

/-- The command sent last waits last. -/
theorem State.vdmTo.vdmSend (hs : s.dev.stop = none) (st : VdmState) (c : Vdm) :
    s.vdmTo p (m.sent st c) (t.vdmSend p st c) ∧ (t.vdmSend p st c).lastTx p = some ⟨st.sop, .vdm, .vdm c⟩ :=
  have ks := k.onVdm (·.sent st c)
  ⟨ks.send .., State.send_lastTx (ks.stop hs) ..⟩

theorem State.vdmTo.noMode : s.vdmTo p m.inNoMode (t.noMode p) := (k.onVdm _).vdmEvt 5

theorem State.vdmTo.verSeen (hv : verOk v.ver = true) : s.vdmTo p (m.seen v.ver) (t.verSeen p v) := by
  have hs : t.verSeen p v = t.onVdm p (·.seen v.ver) := by
    simp only [State.verSeen, hv, if_true]
    rfl
  exact hs ▸ k.onVdm _

theorem State.vdmTo.vdmAnswered (hv : verOk v.ver = true) : s.vdmTo p (m.answered v.ver) (t.vdmAnswered p v) :=
  (k.vdmTimersOff.onVdm fun m => { m with out := none, busies := 0 }).verSeen hv

/-- Discover SVIDs goes once more. -/
theorem State.vdmTo.askSvids (hs : s.dev.stop = none) :
    s.vdmTo p (m.nextRound.sent .discSvid (discSvidsCmd m.ver)) (t.askSvids p) ∧
      (t.askSvids p).lastTx p = some ⟨.sop, .vdm, .vdm (discSvidsCmd m.ver)⟩ := by
  have kr := k.onVdm VdmP.nextRound
  have ha : t.askSvids p = (t.onVdm p VdmP.nextRound).vdmSend p .discSvid (discSvidsCmd m.ver) := by
    rw [State.askSvids, k.2]
    rfl
  rw [ha]
  exact kr.vdmSend hs ..

theorem State.vdmTo.failed : s.vdmTo p m.dropped ((t.vdmTimersOff p).onVdm p VdmP.dropped) := k.vdmTimersOff.onVdm _

end

/-! ## The next entry (R183) -/

theorem State.nextEntry_pred (s : State) (p : Port) :
    (fun e => !(decide (e < s.alm.cfg.svids.length) &&
      (s.port p).vdm.svids.contains (tab s.alm.cfg.svids e ⟨0#16, 0, 0, 0⟩).svid)) = fun e => !s.listed p [] e := by
  funext e
  simp only [State.listed, State.entryAt, List.filter_nil, List.append_nil]

section
variable (k : s.vdmTo p m t)
include k

/-- With none of what is left listed there is no mode. -/
theorem State.vdmTo.nextEntry_none (hl : ∀ x ∈ m.left, t.listed p [] x = false) : s.vdmTo p m.inNoMode (t.nextEntry p) := by
  have hd : (t.port p).vdm.left.dropWhile (fun e => !t.listed p [] e) = [] := by
    rw [k.2]
    exact List.dropWhile_eq_nil_iff.2 fun x hx => by simp [hl x hx]
  have hn : t.nextEntry p = t.noMode p := by simp only [State.nextEntry, State.nextEntry_pred, hd]
  rw [hn]
  exact k.noMode

/-- The first entry listed of what is left is asked for its modes. -/
theorem State.vdmTo.nextEntry_found (hs : s.dev.stop = none) {a b : List Nat} {e : Nat} (hl : m.left = a ++ e :: b)
    (ha : ∀ x ∈ a, t.listed p [] x = false) (he : t.listed p [] e = true) :
    s.vdmTo p ((m.takes e b).sent .discModes ⟨(s.entryAt e).svid, m.ver, .discModes, .req, 0, .none⟩) (t.nextEntry p) ∧
      (t.nextEntry p).lastTx p = some ⟨.sop, .vdm, .vdm ⟨(s.entryAt e).svid, m.ver, .discModes, .req, 0, .none⟩⟩ := by
  have hd : (t.port p).vdm.left.dropWhile (fun x => !t.listed p [] x) = e :: b := by
    rw [k.2, hl, List.dropWhile_append_of_pos fun x hx => by simp [ha x hx], List.dropWhile_cons_of_neg (by simp [he])]
  have kt := k.onVdm (·.takes e b)
  have hn : t.nextEntry p = (t.onVdm p (·.takes e b)).vdmSend p .discModes
      ⟨((t.onVdm p (·.takes e b)).entryOfVdm p).svid, (t.port p).vdm.ver, .discModes, .req, 0, .none⟩ := by
    simp only [State.nextEntry, State.nextEntry_pred, hd]
    rfl
  rw [hn, kt.entry, k.2]
  exact kt.vdmSend hs ..

end

/-! ## The step on a VDM of the partner -/

/-- A VDM that a hand takes, of its own row: no exchange gives way to it, and the step is that hand's, which `msgOn.step` leaves open and the
mux chain's request names (R190). -/
theorem State.msgOn.vdmStep {x : RxMsg} (hon : s.msgOn h p x) (hx : x.isOther = false) {i : Instr} {row : MsgRow}
    {f : RxMsg → State → State} (hc : exec i s = s.onMsg h p row f) (hr : rowOf x = row) :
    ∃ u, s.vdmTo p (s.port p).vdm u ∧ (u.port p).prot.unsent = (s.port p).prot.unsent ∧ u.handNow p = h.val ∧
      exec i s = .next (f x u).endStep := by
  obtain ⟨⟨hb, hst, hch⟩, hrx, hsrc⟩ := hon
  obtain ⟨l, hl⟩ := List.head?_eq_some_iff.1 hrx
  obtain ⟨r, hr', hrc⟩ := Option.map_eq_some_iff.1 hch
  obtain ⟨hp, hev, hd⟩ : r.port = some p ∧ r.ev = .msg ∧ r.dead = false := by simpa using hrc
  have hsil : r.silent = false := by simp [YardRec.silent, hev, hd]
  let y := (s.beginStep h r).onPort p fun z => { z with prot.rx := l }
  have hy : y.port p = { s.port p with prot.rx := l } := State.onPort_port_self ..
  have hyk : s.policyKept p y := ⟨⟨fun q hq => State.onPort_port_ne _ _ _ _ hq, s.globalsKept_refl⟩, by rw [hy]; rfl⟩
  have htake : s.takeMsg h p (fun m => decide (rowOf m = row)) = some (x, y) := by
    simp only [State.takeMsg, hl, hr, decide_true, if_true, State.take, State.skipSilent_of_choose hr' hsil, hr', hp, hev, hsil]
    rfl
  have hu := State.disarm_port y p .receiverResponse
  refine ⟨y.disarm p .receiverResponse, ⟨hyk.trans (y.disarm_policyKept p _), by rw [hu, hy]⟩, by rw [hu, hy]; rfl, rfl, ?_⟩
  have hwake : (y.port p).pd.src ≠ .typecOnly := by rw [hy]; exact hsrc
  rw [hc, State.onMsg, State.handOn.running ⟨hb, hst, hch⟩, htake]
  simp [hyk.bmcRuns, hb, hwake, hx]

theorem State.disarm_handNow (s : State) (p q : Port) (i : TimerId) : (s.disarm p i).handNow q = s.handNow q := by
  cases hs : s.hnd.step <;> simp [State.handNow, State.disarm, Hnd.freeTimers, hs]

/-- An answer leaves the step with its hand. -/
theorem State.vdmAnswered_handNow (s : State) (p q : Port) (v : Vdm) : (s.vdmAnswered p v).handNow q = s.handNow q := by
  have hoff : (s.vdmTimersOff p).handNow q = s.handNow q := by
    simp only [State.vdmTimersOff, List.foldl_cons, List.foldl_nil, State.disarm_handNow]
  rw [← hoff]
  simp only [State.handNow, State.vdmAnswered, State.verSeen, State.onVdm, State.onPort_hnd]

/-- An ACK for the pending command, which has gone out, is acted on by the hand that takes it, with the command answered. -/
theorem State.msgOn.ack (hon : s.msgOn h p ⟨.sop, .vdm v⟩) (hver : verOk v.ver = true)
    (hans : (s.port p).vdm.answers v = true) (hun : (s.port p).prot.unsent .vdm = false) {st : VdmState}
    (haw : (s.port p).vdm.awaits st = true) {i : Instr} {row : MsgRow} {f : Vdm → State → State}
    (hc : exec i s = s.onAck h p row st f) (hr : vdmRow v = row) :
    ∃ u, s.vdmTo p ((s.port p).vdm.answered v.ver) u ∧ u.handNow p = h.val ∧ exec i s = .next (f v u).endStep := by
  obtain ⟨u, k, hprot, hh, he⟩ := hon.vdmStep rfl hc hr
  refine ⟨u.vdmAnswered p v, k.vdmAnswered hver, ?_, ?_⟩
  · rw [State.vdmAnswered_handNow, hh]
  · rw [he]
    simp only [k.2, haw, hans, hprot, hun, hver, Bool.and_self, Bool.not_true, Bool.or_self, Bool.false_eq_true, if_false, if_true]

end Sys2Proof.Machine
end

section
/-! SUPPORT. The obligation on partner discovery and mode entry, one theorem for each command (R179, R183, R186). -/

namespace Sys2Proof.Machine

variable {s t u : State} {p : Port} {h : Hand} {m : VdmP} {v : Vdm}

/-- Discovery begins with the entries of the port's list. -/
def VdmP.begins (m : VdmP) (l : List Nat) : VdmP := { m with left := l, svids := [], rounds := 0 }

theorem partnerDiscoveryStart_spec (hon : s.timerOn h p .partnerDiscovery) (hsrc : (s.port p).tc.isSrc = true)
    (hst : (s.port p).pd.src = .ready) :
    ∃ t, exec (.partnerDiscoveryStart h p) s = .next t ∧ s.othersKept p t ∧ (t.port p).vdm.st = .discId ∧
      t.lastTx p = some ⟨.sop, .vdm, .vdm (discIdentityCmd (s.port p).vdm.ver)⟩ := by
  obtain ⟨u, k, hv, he⟩ := hon.timerStep rfl (show exec (.partnerDiscoveryStart h p) s = execPartnerDiscoveryStart h p s from rfl)
  have ku : s.vdmTo p (s.port p).vdm u := ⟨k, hv⟩
  let w := u.onVdm p (·.begins ((u.port p).cfg.list.filter fun e => decide (e < 16)))
  have kw : s.vdmTo p _ w := ku.onVdm _
  obtain ⟨_, _, _, hp⟩ := kw.1.port
  have hready : (w.port p).pd.src = .ready := by rw [hp, hst]
  simp only [k.bmcRuns, hon.bmcRuns, k.tc, hsrc, hv, Bool.and_self, Bool.not_true, Bool.false_eq_true, if_false] at he
  obtain ⟨kt, hl⟩ := kw.vdmSend hon.stop .discId (discIdentityCmd (s.port p).vdm.ver)
  exact ⟨_, he.trans (congrArg (fun x : State => Host.Outcome.next x.endStep) (if_pos hready)), kt.endStep.1, congrArg (·.st) kt.endStep.2, hl⟩

/-! ## Accepted answers -/

/-- The partner's identity noted. -/
def VdmP.knows (m : VdmP) (i : Identity) : VdmP := { m with id := pidVid i }

/-- The partner's SVIDs noted. -/
def VdmP.lists (m : VdmP) (l : List (BitVec 16)) : VdmP := { m with svids := m.svids ++ l.filter fun x => decide (x ≠ 0#16) }

/-- The mode is entered, with its HPD bit low. -/
def VdmP.enters (m : VdmP) : VdmP := { m with entered := true, hpd := false }

/-- HPD State as the partner's status shows it. -/
def VdmP.shows (m : VdmP) (b : Bool) : VdmP := { m with hpd := b }

/-- The machine in MODE. -/
def VdmP.inMode (m : VdmP) : VdmP := { m with st := .mode }

/-- MODE reached touches no other port, and the hand of the step puts the port's nibble to the mux chain, where alternate modes are enabled. -/
theorem State.vdmTo.modeReached (k : s.vdmTo p m t) :
    s.vdmEnds p m.inMode (t.modeReached p) ∧
      (s.alm.cfg.altmode = true → (t.modeReached p).mux = s.mux.issue ⟨t.handNow p, p, (t.modeReached p).nibble p⟩) := by
  have kw := k.onVdm VdmP.inMode
  have hm : t.modeReached p = (t.onVdm p VdmP.inMode).muxUpdate p := rfl
  have hh : t.handNow p = (t.onVdm p VdmP.inMode).handNow p := by simp only [State.handNow, State.onVdm, State.onPort_hnd]
  rw [hm, hh]
  generalize t.onVdm p VdmP.inMode = w at kw ⊢
  refine ⟨⟨fun q hq => ?_, ?_⟩, fun halt => ?_⟩
  · rw [State.muxUpdate_port, kw.othersKept q hq]
  · rw [State.muxUpdate_port, kw.2]
  · have hmux : w.mux = s.mux := by
      obtain ⟨⟨⟨-, -, -, -, -, -, -, -, -, -, -, -, hx, -⟩, -⟩, -⟩ := kw
      exact hx
    have ha : w.alm.cfg.altmode = true := by rw [kw.1.alm, halt]
    rw [State.muxUpdate, if_pos ha, hmux]
    rfl

section
variable (hon : s.msgOn h p ⟨.sop, .vdm v⟩) (ht : v.typ = .ack) (hver : verOk v.ver = true) (hans : (s.port p).vdm.answers v = true)
  (hun : (s.port p).prot.unsent .vdm = false)
include hon ht hver hans hun

theorem discoverIdentityAck_spec {i : Identity} (hc : v.cmd = .discIdentity) (hb : v.body = .identity i)
    (haw : (s.port p).vdm.awaits .discId = true) :
    ∃ t, exec (.discoverIdentityAck h p) s = .next t ∧ s.othersKept p t ∧ (t.port p).vdm.id = pidVid i ∧
      (t.port p).vdm.st = .discSvid ∧ (t.port p).vdm.evt = setBit (s.port p).vdm.evt 0 ∧
      t.lastTx p = some ⟨.sop, .vdm, .vdm ⟨0xFF00#16, min (s.port p).vdm.ver v.ver, .discSvids, .req, 0, .none⟩⟩ := by
  obtain ⟨u, k, -, he⟩ := hon.ack hver hans hun haw
    (show exec (.discoverIdentityAck h p) s = execDiscoverIdentityAck h p s from rfl) (by simp [vdmRow, ht, hc])
  simp only [hb] at he
  obtain ⟨kt, hl⟩ := ((k.onVdm (·.knows i)).vdmEvt 0).askSvids hon.stop
  exact ⟨_, he, kt.endStep.1, congrArg (·.id) kt.endStep.2, congrArg (·.st) kt.endStep.2, congrArg (·.evt) kt.endStep.2, hl⟩

/-- A list of SVIDs is noted; then further ones are asked for, or the next entry follows. -/
theorem discoverSvidsAck_lists {l : List (BitVec 16)} (hc : v.cmd = .discSvids) (haw : (s.port p).vdm.awaits .discSvid = true)
    (hb : v.body = .svids l) :
    ∃ w, s.vdmTo p (((s.port p).vdm.answered v.ver).lists l) w ∧ exec (.discoverSvidsAck h p) s = .next (State.endStep
      (if l.length = 12 ∧ l.getLast? ≠ some 0#16 ∧ (s.port p).vdm.rounds < 4 then w.askSvids p else w.nextEntry p)) := by
  obtain ⟨u, k, -, he⟩ := hon.ack hver hans hun haw
    (show exec (.discoverSvidsAck h p) s = execDiscoverSvidsAck h p s from rfl) (by simp [vdmRow, ht, hc])
  have kw := k.onVdm (·.lists l)
  have hr : ((u.onVdm p (·.lists l)).port p).vdm.rounds = (s.port p).vdm.rounds := congrArg (·.rounds) kw.2
  refine ⟨_, kw, he.trans ?_⟩
  rw [← hr]
  simp only [hb, Bool.and_eq_true, decide_eq_true_eq, and_assoc]
  rfl

theorem discoverSvidsAck_again {l : List (BitVec 16)} (hc : v.cmd = .discSvids) (haw : (s.port p).vdm.awaits .discSvid = true)
    (hb : v.body = .svids l) (hl : l.length = 12) (hlast : l.getLast? ≠ some 0#16) (hrd : (s.port p).vdm.rounds < 4) :
    ∃ t, exec (.discoverSvidsAck h p) s = .next t ∧ s.othersKept p t ∧ (t.port p).vdm.st = .discSvid ∧
      (t.port p).vdm.rounds = (s.port p).vdm.rounds + 1 ∧ (∀ x ∈ l, x ≠ 0#16 → x ∈ (t.port p).vdm.svids) ∧
      t.lastTx p = some ⟨.sop, .vdm, .vdm ⟨0xFF00#16, min (s.port p).vdm.ver v.ver, .discSvids, .req, 0, .none⟩⟩ := by
  obtain ⟨w, k, he⟩ := discoverSvidsAck_lists hon ht hver hans hun hc haw hb
  rw [if_pos ⟨hl, hlast, hrd⟩] at he
  obtain ⟨kt, htx⟩ := k.askSvids hon.stop
  have hs : ((w.askSvids p).port p).vdm.svids = (s.port p).vdm.svids ++ l.filter fun x => decide (x ≠ 0#16) := congrArg (·.svids) kt.endStep.2
  refine ⟨_, he, kt.endStep.1, congrArg (·.st) kt.endStep.2, congrArg (·.rounds) kt.endStep.2, fun x hx h0 => ?_, htx⟩
  rw [State.endStep_port, hs]
  exact List.mem_append_right _ (List.mem_filter.2 ⟨hx, decide_eq_true h0⟩)

/-- After the last list of SVIDs the next entry follows, which is judged by all that the partner has listed. -/
theorem discoverSvidsAck_next {l : List (BitVec 16)} (hc : v.cmd = .discSvids) (haw : (s.port p).vdm.awaits .discSvid = true)
    (hb : v.body = .svids l) (hl : l.length < 12 ∨ l.getLast? = some 0#16 ∨ 4 ≤ (s.port p).vdm.rounds) :
    ∃ w, s.vdmTo p (((s.port p).vdm.answered v.ver).lists l) w ∧ (∀ e, w.listed p [] e = s.listed p l e) ∧
      exec (.discoverSvidsAck h p) s = .next (w.nextEntry p).endStep := by
  obtain ⟨w, k, he⟩ := discoverSvidsAck_lists hon ht hver hans hun hc haw hb
  have hn : ¬ (l.length = 12 ∧ l.getLast? ≠ some 0#16 ∧ (s.port p).vdm.rounds < 4) := by
    rintro ⟨h₁, h₂, h₃⟩
    rcases hl with h | h | h
    · omega
    · exact h₂ h
    · omega
  rw [if_neg hn] at he
  exact ⟨w, k, k.listed l rfl, he⟩

theorem discoverSvidsAck_found {l : List (BitVec 16)} {a b : List Nat} {e : Nat} (hc : v.cmd = .discSvids)
    (haw : (s.port p).vdm.awaits .discSvid = true) (hb : v.body = .svids l)
    (hl : l.length < 12 ∨ l.getLast? = some 0#16 ∨ 4 ≤ (s.port p).vdm.rounds) (hleft : (s.port p).vdm.left = a ++ e :: b)
    (ha : ∀ x ∈ a, s.listed p l x = false) (hlist : s.listed p l e = true) :
    ∃ t, exec (.discoverSvidsAck h p) s = .next t ∧ s.othersKept p t ∧ (t.port p).vdm.st = .discModes ∧
      (t.port p).vdm.entry = e ∧ (t.port p).vdm.left = b ∧ t.lastTx p = some ⟨.sop, .vdm, .vdm
        ⟨(s.entryAt e).svid, min (s.port p).vdm.ver v.ver, .discModes, .req, 0, .none⟩⟩ := by
  obtain ⟨w, k, hw, he⟩ := discoverSvidsAck_next hon ht hver hans hun hc haw hb hl
  obtain ⟨kt, htx⟩ := k.nextEntry_found hon.stop hleft (fun x hx => (hw x).trans (ha x hx)) ((hw e).trans hlist)
  exact ⟨_, he, kt.endStep.1, congrArg (·.st) kt.endStep.2, congrArg (·.entry) kt.endStep.2, congrArg (·.left) kt.endStep.2, htx⟩

theorem discoverSvidsAck_none {l : List (BitVec 16)} (hc : v.cmd = .discSvids) (haw : (s.port p).vdm.awaits .discSvid = true)
    (hb : v.body = .svids l) (hl : l.length < 12 ∨ l.getLast? = some 0#16 ∨ 4 ≤ (s.port p).vdm.rounds)
    (hnone : ∀ x ∈ (s.port p).vdm.left, s.listed p l x = false) :
    ∃ t, exec (.discoverSvidsAck h p) s = .next t ∧ s.othersKept p t ∧ (t.port p).vdm.st = .noMode ∧
      (t.port p).vdm.evt = setBit (s.port p).vdm.evt 5 := by
  obtain ⟨w, k, hw, he⟩ := discoverSvidsAck_next hon ht hver hans hun hc haw hb hl
  have kt := k.nextEntry_none fun x hx => (hw x).trans (hnone x hx)
  exact ⟨_, he, kt.endStep.1, congrArg (·.st) kt.endStep.2, congrArg (·.evt) kt.endStep.2⟩

theorem discoverModesAck_spec {q : ModeVdo} {l : List ModeVdo} (hc : v.cmd = .discModes) (haw : (s.port p).vdm.awaits .discModes = true)
    (hkind : (s.entryOfVdm p).kind ≠ 1) (hpos : (s.entryOfVdm p).objPos = 1) (hb : v.body = .modes (q :: l)) :
    ∃ t, exec (.discoverModesAck h p) s = .next t ∧ s.othersKept p t ∧ (t.port p).vdm.st = .enter ∧
      t.lastTx p = some ⟨.sop, .vdm, .vdm ⟨(s.entryOfVdm p).svid, min (s.port p).vdm.ver v.ver, .enterMode, .req, 1, .none⟩⟩ := by
  obtain ⟨u, k, -, he⟩ := hon.ack hver hans hun haw
    (show exec (.discoverModesAck h p) s = execDiscoverModesAck h p s from rfl) (by simp [vdmRow, ht, hc])
  have hentry : u.entryOfVdm p = s.entryOfVdm p := k.entry
  have hcmd : u.entryCmd p .enterMode 1 .none = ⟨(s.entryOfVdm p).svid, min (s.port p).vdm.ver v.ver, .enterMode, .req, 1, .none⟩ := by
    rw [State.entryCmd, hentry, k.2]
    rfl
  simp only [hb, hentry, hpos, hkind, hcmd, one_ne_zero, if_false, Nat.sub_self, List.getElem?_cons_zero, decide_false, Bool.false_and,
    Bool.false_eq_true] at he
  obtain ⟨kt, hl⟩ := k.vdmSend hon.stop .enter _
  exact ⟨_, he, kt.endStep.1, congrArg (·.st) kt.endStep.2, hl⟩

theorem enterModeAck_spec (hc : v.cmd = .enterMode) (haw : (s.port p).vdm.awaits .enter = true) :
    ∃ t, exec (.enterModeAck h p) s = .next t ∧ s.othersKept p t ∧ (t.port p).vdm.entered = true ∧
      (t.port p).vdm.evt = setBit (s.port p).vdm.evt 1 ∧
      (t.port p).vdm.st = (if (s.entryOfVdm p).kind = 1 then .dpStatus else .mode) := by
  obtain ⟨u, k, -, he⟩ := hon.ack hver hans hun haw
    (show exec (.enterModeAck h p) s = execEnterModeAck h p s from rfl) (by simp [vdmRow, ht, hc])
  obtain ⟨w, kw, he⟩ : ∃ w, s.vdmTo p ((((s.port p).vdm.answered v.ver).enters).event 1) w ∧ exec (.enterModeAck h p) s =
      .next (State.endStep (if (w.entryOfVdm p).kind = 1 then w.vdmSend p .dpStatus
        (w.entryCmd p .dpStatus (w.entryOfVdm p).objPos (.vdo dpStatusVdo)) else w.modeReached p)) :=
    ⟨_, (k.onVdm VdmP.enters).vdmEvt 1, he⟩
  rw [show w.entryOfVdm p = s.entryOfVdm p from kw.entry] at he
  split
  · next hk =>
    rw [if_pos hk] at he
    obtain ⟨kt, -⟩ := kw.vdmSend hon.stop .dpStatus _
    exact ⟨_, he, kt.endStep.1, congrArg (·.entered) kt.endStep.2, congrArg (·.evt) kt.endStep.2, congrArg (·.st) kt.endStep.2⟩
  · next hk =>
    rw [if_neg hk] at he
    obtain ⟨kt, -⟩ := kw.modeReached
    exact ⟨_, he, kt.endStep.1, congrArg (·.entered) kt.endStep.2, congrArg (·.evt) kt.endStep.2, congrArg (·.st) kt.endStep.2⟩

theorem dpStatusUpdateAck_spec {w : Word} (hc : v.cmd = .dpStatus) (hb : v.body = .vdo w) (haw : (s.port p).vdm.awaits .dpStatus = true) :
    ∃ t, exec (.dpStatusUpdateAck h p) s = .next t ∧ s.othersKept p t ∧ (t.port p).vdm.hpd = w.getLsbD 7 ∧
      (t.port p).vdm.st = .dpConfig := by
  obtain ⟨u, k, -, he⟩ := hon.ack hver hans hun haw
    (show exec (.dpStatusUpdateAck h p) s = execDpStatusUpdateAck h p s from rfl) (by simp [vdmRow, ht, hc])
  simp only [hb] at he
  obtain ⟨kt, -⟩ := (k.onVdm (·.shows (w.getLsbD 7))).vdmSend hon.stop .dpConfig _
  exact ⟨_, he, kt.endStep.1, congrArg (·.hpd) kt.endStep.2, congrArg (·.st) kt.endStep.2⟩

theorem dpConfigureAck_spec (hc : v.cmd = .dpConfigure) (haw : (s.port p).vdm.awaits .dpConfig = true) (halt : s.alm.cfg.altmode = true) :
    ∃ t, exec (.dpConfigureAck h p) s = .next t ∧ s.othersKept p t ∧ (t.port p).vdm.st = .mode ∧
      t.mux = s.mux.issue ⟨h.val, p, t.nibble p⟩ := by
  obtain ⟨u, k, hh, he⟩ := hon.ack hver hans hun haw
    (show exec (.dpConfigureAck h p) s = execDpConfigureAck h p s from rfl) (by simp [vdmRow, ht, hc])
  obtain ⟨kt, hm⟩ := k.modeReached
  have hmux := hm halt
  rw [hh] at hmux
  exact ⟨_, he, kt.endStep.1, congrArg (·.st) kt.endStep.2, hmux⟩

end

/-- Settles O31: each answer is taken by `onAck`, and the step that it brings moves the machine by the operations of the VDM layer. -/
theorem partnerDiscovery : Obligations.PartnerDiscovery := by
  unfold Obligations.PartnerDiscovery
  intro s h p v i w l q k a b e
  refine ⟨partnerDiscoveryStart_spec, fun hon ht hver hans hun => ⟨discoverIdentityAck_spec hon ht hver hans hun,
    fun hc haw hb => ⟨discoverSvidsAck_again hon ht hver hans hun hc haw hb, fun hl =>
      ⟨discoverSvidsAck_found hon ht hver hans hun hc haw hb hl, discoverSvidsAck_none hon ht hver hans hun hc haw hb hl⟩⟩,
    discoverModesAck_spec hon ht hver hans hun, enterModeAck_spec hon ht hver hans hun, dpStatusUpdateAck_spec hon ht hver hans hun,
    dpConfigureAck_spec hon ht hver hans hun⟩⟩

end Sys2Proof.Machine
end

section
/-! SUPPORT. The obligation on failing VDM steps, Attention and other commands, one theorem for each command (R175, R176, R178, R180, R183,
R185, R187). -/

namespace Sys2Proof.Machine

variable {s t u : State} {p : Port} {h : Hand} {m : VdmP} {v c : Vdm} {w : Word}

/-! ## A step that fails (R178, R180, R183) -/

/-- Cable discovery waits for its next attempt. -/
def VdmP.uncabled (m : VdmP) : VdmP := { m with cabOut := none }

section
variable (k : s.vdmTo p m t)
include k

/-- Discover Identity that fails ends discovery. -/
theorem State.vdmTo.stepFails_discId (hst : m.st = .discId) : s.vdmTo p m.dropped.inNoMode (t.vdmStepFails p) := by
  unfold State.vdmStepFails
  extract_lets x y
  have kd : s.vdmTo p m.dropped y := k.failed
  have hd : (y.port p).vdm.st = .discId := by rw [kd.2, ← hst]; rfl
  rw [hd]
  exact kd.noMode

/-- Enter Mode that fails with no entry left ends in NO_MODE. -/
theorem State.vdmTo.stepFails_enter (hst : m.st = .enter) (hl : m.left = []) : s.vdmTo p m.dropped.inNoMode (t.vdmStepFails p) := by
  unfold State.vdmStepFails
  extract_lets x y
  have kd : s.vdmTo p m.dropped y := k.failed
  have hd : (y.port p).vdm.st = .enter := by rw [kd.2, ← hst]; rfl
  rw [hd]
  refine kd.nextEntry_none fun e he => ?_
  rw [show m.dropped.left = [] from hl] at he
  exact absurd he List.not_mem_nil

/-- The HPD bit set, on the mux chain too, touches no other port. -/
theorem State.vdmTo.setHpd (b : Bool) : s.vdmEnds p (m.shows b) (t.setHpd p b) := by
  unfold State.setHpd
  split
  · next hb =>
    refine ⟨k.othersKept, ?_⟩
    rw [k.2] at hb ⊢
    rw [← hb]
    rfl
  · have kw : s.vdmTo p (m.shows b) (t.onVdm p (·.shows b)) := k.onVdm (·.shows b)
    exact ⟨fun q hq => (State.muxUpdate_port ..).trans (kw.othersKept q hq),
      (congrArg PortState.vdm (State.muxUpdate_port (t.onVdm p (·.shows b)) p p)).trans kw.2⟩

/-- An attempt on SOP′ that fails before the third brings the next one. -/
theorem State.vdmTo.cabStepFails (hc : m.cab = .cableSop1) (ht : m.tries < 3) :
    s.vdmTo p m.uncabled (t.cabStepFails p) ∧ (t.cabStepFails p).armed p .discoverIdentity := by
  have k₁ := k.cableTimersOff
  have k₂ := k₁.cableTimersOff
  have hf : t.cabStepFails p = (((t.cableTimersOff p).cableTimersOff p).onVdm p VdmP.uncabled).arm p .discoverIdentity := by
    unfold State.cabStepFails
    extract_lets x
    rw [if_pos (by rw [k₁.2, hc])]
    unfold State.cableTryFailed
    extract_lets y
    rw [if_pos (by rw [k₂.2]; exact ht)]
    rfl
  rw [hf]
  exact ⟨(k₂.onVdm _).arm _, State.arm_armed ..⟩

end

/-! ## NAK and BUSY (R178) -/

/-- A BUSY more. -/
def VdmP.busier (m : VdmP) : VdmP := { m with busies := m.busies + 1 }

/-- The command waits to be sent again. -/
def VdmP.waits (m : VdmP) : VdmP := { m with waiting := true }

theorem VdmP.verOk_of_heeds (hh : m.heeds v = true) : verOk v.ver = true := by
  simp only [VdmP.heeds, Bool.and_eq_true] at hh
  exact hh.2

section
variable (hon : s.msgOn h p ⟨.sop, .vdm v⟩)
include hon

theorem vdmNak_discId (ht : v.typ = .nak) (hh : (s.port p).vdm.heeds v = true) (hun : (s.port p).prot.unsent .vdm = false)
    (hst : (s.port p).vdm.st = .discId) :
    ∃ t, exec (.vdmNak h p) s = .next t ∧ s.othersKept p t ∧ (t.port p).vdm.st = .noMode ∧
      (t.port p).vdm.cnt = bump (s.port p).vdm.cnt 1 := by
  obtain ⟨u, k, hprot, -, he⟩ := hon.vdmStep rfl (show exec (.vdmNak h p) s = execVdmNak h p s from rfl) (by simp [rowOf, vdmRow, ht])
  simp only [k.2, hh, hprot, hun, Bool.not_false, Bool.and_self, if_true] at he
  have kt := ((k.verSeen (VdmP.verOk_of_heeds hh)).vdmCnt 1).stepFails_discId hst
  exact ⟨_, he, kt.endStep.1, congrArg (·.st) kt.endStep.2, congrArg (·.cnt) kt.endStep.2⟩

theorem vdmBusy_waits (ht : v.typ = .busy) (hh : (s.port p).vdm.heeds v = true) (hun : (s.port p).prot.unsent .vdm = false)
    (hb : (s.port p).vdm.busies < 3) :
    ∃ t, exec (.vdmBusy h p) s = .next t ∧ s.othersKept p t ∧ (t.port p).vdm.waiting = true ∧
      (t.port p).vdm.busies = (s.port p).vdm.busies + 1 ∧ t.armed p .vdmBusy := by
  obtain ⟨u, k, hprot, -, he⟩ := hon.vdmStep rfl (show exec (.vdmBusy h p) s = execVdmBusy h p s from rfl) (by simp [rowOf, vdmRow, ht])
  simp only [k.2, hh, hprot, hun, Bool.not_false, Bool.and_self, if_true] at he
  obtain ⟨w, kw, he⟩ : ∃ w, s.vdmTo p (((s.port p).vdm.seen v.ver).count 2).busier w ∧ exec (.vdmBusy h p) s = .next (State.endStep
      (if 4 ≤ (w.port p).vdm.busies then w.vdmStepFails p else (w.onVdm p VdmP.waits).arm p .vdmBusy)) :=
    ⟨_, ((k.verSeen (VdmP.verOk_of_heeds hh)).vdmCnt 2).vdmTimersOff.onVdm VdmP.busier, he⟩
  have hw : (w.port p).vdm.busies = (s.port p).vdm.busies + 1 := congrArg (·.busies) kw.2
  rw [if_neg (by omega)] at he
  have kt := (kw.onVdm VdmP.waits).arm .vdmBusy
  exact ⟨_, he, kt.endStep.1, congrArg (·.waiting) kt.endStep.2, congrArg (·.busies) kt.endStep.2,
    (State.endStep_armed ..).mpr (State.arm_armed ..)⟩

/-! ## Attention and other commands (R175, R176, R185) -/

/-- The VDO of an Attention noted. -/
def VdmP.attends (m : VdmP) (w : Word) : VdmP := { m with attn := w }

theorem attention_acts (ht : v.typ = .req) (hc : v.cmd = .attention) (hver : verOk v.ver = true) (hent : (s.port p).vdm.entered = true)
    (hsvid : v.svid = (s.entryOfVdm p).svid) (hpos : v.objPos = (s.entryOfVdm p).objPos) (hb : v.body = .vdo w)
    (hkind : (s.entryOfVdm p).kind = 2) :
    ∃ t, exec (.attention h p) s = .next t ∧ s.othersKept p t ∧ (t.port p).vdm.attn = w ∧
      (t.port p).vdm.hpd = w.getLsbD 0 ∧ (t.port p).vdm.evt = setBit (s.port p).vdm.evt 3 := by
  obtain ⟨u, k, -, -, he⟩ := hon.vdmStep rfl (show exec (.attention h p) s = execAttention h p s from rfl) (by simp [rowOf, vdmRow, ht, hc])
  have hentry : u.entryOfVdm p = s.entryOfVdm p := k.entry
  simp only [hentry, k.2, hent, hsvid, hpos, hver, hb, hkind, decide_true, Bool.and_self, if_true, OfNat.ofNat_ne_one, if_false] at he
  have kt := ((((k.verSeen hver).vdmCnt 0).vdmEvt 3).onVdm (·.attends w)).setHpd (w.getLsbD 0)
  exact ⟨_, he, kt.endStep.1, congrArg (·.attn) kt.endStep.2, congrArg (·.hpd) kt.endStep.2, congrArg (·.evt) kt.endStep.2⟩

theorem attention_discarded (ht : v.typ = .req) (hc : v.cmd = .attention) (hent : (s.port p).vdm.entered = false) :
    ∃ t, exec (.attention h p) s = .next t ∧ s.othersKept p t ∧ (t.port p).vdm.cnt = bump (s.port p).vdm.cnt 5 ∧
      (t.port p).vdm.hpd = (s.port p).vdm.hpd := by
  obtain ⟨u, k, -, -, he⟩ := hon.vdmStep rfl (show exec (.attention h p) s = execAttention h p s from rfl) (by simp [rowOf, vdmRow, ht, hc])
  simp only [k.2, hent, Bool.false_and, Bool.false_eq_true, if_false] at he
  have kt := k.vdmCnt 5
  exact ⟨_, he, kt.endStep.1, congrArg (·.cnt) kt.endStep.2, congrArg (·.hpd) kt.endStep.2⟩

theorem structuredVdmCommand_nak (ht : v.typ = .req) (hc : v.cmd ≠ .attention) (hver : verOk v.ver = true) :
    ∃ t, exec (.structuredVdmCommand h p) s = .next t ∧ s.othersKept p t ∧
      t.lastTx p = some ⟨.sop, .answer, .vdm ⟨v.svid, min (s.port p).vdm.ver v.ver, v.cmd, .nak, v.objPos, .none⟩⟩ := by
  obtain ⟨u, k, -, -, he⟩ := hon.vdmStep rfl
    (show exec (.structuredVdmCommand h p) s = execStructuredVdmCommand h p s from rfl) (by simp [rowOf, vdmRow, ht, hc])
  have kw := (k.vdmCnt 5).verSeen hver
  have hv : (((u.vdmCnt p 5).verSeen p v).port p).vdm.ver = min (s.port p).vdm.ver v.ver := congrArg (·.ver) kw.2
  simp only [ht, ne_eq, not_true_eq_false, if_false, hv] at he
  exact ⟨_, he, (kw.send ..).othersKept, State.send_lastTx (kw.stop hon.stop) ..⟩

end

theorem unstructuredVdm_notSupported (hon : s.msgOn h p ⟨.sop, .unstructuredVdm⟩) :
    ∃ t, exec (.unstructuredVdm h p) s = .next t ∧ s.othersKept p t ∧ t.lastTx p = some ⟨.sop, .answer, .notSupported⟩ :=
  hon.answered (show exec (.unstructuredVdm h p) s = execUnstructuredVdm h p s from rfl) rfl fun _ _ => rfl

/-! ## Timers (R178, R180, R183, R187) -/

/-- A step on the expiry of one of some timers is that on the expiry of the one at hand. -/
theorem State.timerOn.timersStep_eq {i : TimerId} (hon : s.timerOn h p i) (hb : timerBound i = false) {ts : TimerId → Bool} (hi : ts i = true)
    (f : TimerId → State → State) : s.timersStep h p ts f = s.timerStep h p i (f i) := by
  obtain ⟨e, -, rfl, -, -, hch⟩ := hon
  obtain ⟨r, hr, hrc⟩ := Option.map_eq_some_iff.1 hch
  obtain ⟨hp, hev, hd⟩ : r.port = some p ∧ r.ev = .timer e.1 e.2 ∧ r.dead = false := by simpa using hrc
  have hsil : r.silent = false := by simp [YardRec.silent, hev, hd, hb]
  simp only [State.timersStep, State.timerStep, State.handStep, State.take, State.skipSilent_of_choose hr hsil, hr, hp, hev, hi, hsil,
    decide_true]
  rfl

theorem tvdmbusyExpiry_spec (hon : s.timerOn h p .vdmBusy) (hw : (s.port p).vdm.waiting = true) (ho : (s.port p).vdm.out = some c) :
    ∃ t, exec (.tvdmbusyExpiry h p) s = .next t ∧ s.othersKept p t ∧ (t.port p).vdm.waiting = false ∧
      t.lastTx p = some ⟨(s.port p).vdm.st.sop, .vdm, .vdm { c with ver := (s.port p).vdm.ver }⟩ := by
  obtain ⟨u, k, hv, he⟩ := hon.timerStep rfl (show exec (.tvdmbusyExpiry h p) s = execTvdmbusyExpiry h p s from rfl)
  have ku : s.vdmTo p (s.port p).vdm u := ⟨k, hv⟩
  simp only [k.bmcRuns, hon.bmcRuns, hv, hw, Bool.and_self, if_true, State.vdmAgain, ho] at he
  obtain ⟨kt, hl⟩ := ku.vdmSend hon.stop (s.port p).vdm.st { c with ver := (s.port p).vdm.ver }
  exact ⟨_, he, kt.endStep.1, congrArg (·.waiting) kt.endStep.2, hl⟩

theorem tvdmsenderresponseExpiry_cable (hon : s.timerOn h p .cableResponse) (ho : (s.port p).vdm.cabOut.isSome = true)
    (hi : (s.port p).vdm.cabIntr = false) (hc : (s.port p).vdm.cab = .cableSop1) (ht : (s.port p).vdm.tries < 3) :
    ∃ t, exec (.tvdmsenderresponseExpiry h p) s = .next t ∧ s.othersKept p t ∧ (t.port p).vdm.cabOut = none ∧
      t.armed p .discoverIdentity ∧ (t.port p).vdm.cnt = bump (s.port p).vdm.cnt 3 := by
  obtain ⟨u, k, hv, he⟩ := hon.timerStep rfl ((show exec (.tvdmsenderresponseExpiry h p) s = execTvdmsenderresponseExpiry h p s from
    rfl).trans (hon.timersStep_eq rfl (by decide) _))
  have ku : s.vdmTo p (s.port p).vdm u := ⟨k, hv⟩
  simp only [k.bmcRuns, hon.bmcRuns, hv, ho, hi, Bool.not_true, Bool.not_false, Bool.and_self, Bool.false_eq_true, if_false, if_true] at he
  obtain ⟨kt, ha⟩ := (ku.vdmCnt 3).cabStepFails hc ht
  exact ⟨_, he, kt.endStep.1, congrArg (·.cabOut) kt.endStep.2, (State.endStep_armed ..).mpr ha, congrArg (·.cnt) kt.endStep.2⟩

theorem tvdmsenderresponseExpiry_discId (hon : s.timerOn h p .vdmSenderResponse) (ho : (s.port p).vdm.out = some c)
    (hi : (s.port p).vdm.intr = false) (hst : (s.port p).vdm.st = .discId) :
    ∃ t, exec (.tvdmsenderresponseExpiry h p) s = .next t ∧ s.othersKept p t ∧ (t.port p).vdm.st = .noMode ∧
      (t.port p).vdm.cnt = bump (s.port p).vdm.cnt 3 := by
  obtain ⟨u, k, hv, he⟩ := hon.timerStep rfl ((show exec (.tvdmsenderresponseExpiry h p) s = execTvdmsenderresponseExpiry h p s from
    rfl).trans (hon.timersStep_eq rfl (by decide) _))
  have ku : s.vdmTo p (s.port p).vdm u := ⟨k, hv⟩
  simp only [k.bmcRuns, hon.bmcRuns, hv, ho, hi, Option.isSome_some, Bool.not_true, Bool.not_false, Bool.and_self, Bool.false_eq_true,
    reduceCtorEq, if_false, if_true] at he
  have kt := (ku.vdmCnt 3).stepFails_discId hst
  exact ⟨_, he, kt.endStep.1, congrArg (·.st) kt.endStep.2, congrArg (·.cnt) kt.endStep.2⟩

theorem tvdmwaitmodeentryExpiry_spec (hon : s.timerOn h p .vdmWaitModeEntry) (haw : (s.port p).vdm.awaits .enter = true)
    (hl : (s.port p).vdm.left = []) :
    ∃ t, exec (.tvdmwaitmodeentryExpiry h p) s = .next t ∧ s.othersKept p t ∧ (t.port p).vdm.st = .noMode ∧
      (t.port p).vdm.cnt = bump (s.port p).vdm.cnt 3 := by
  obtain ⟨u, k, hv, he⟩ := hon.timerStep rfl (show exec (.tvdmwaitmodeentryExpiry h p) s = execTvdmwaitmodeentryExpiry h p s from rfl)
  have ku : s.vdmTo p (s.port p).vdm u := ⟨k, hv⟩
  simp only [k.bmcRuns, hon.bmcRuns, hv, haw, Bool.and_self, if_true] at he
  have hst : (s.port p).vdm.st = .enter := by
    simp only [VdmP.awaits, Bool.and_eq_true, decide_eq_true_eq] at haw
    obtain ⟨⟨⟨hst, -⟩, -⟩, -⟩ := haw
    exact hst
  have kt := (ku.vdmCnt 3).stepFails_enter hst hl
  exact ⟨_, he, kt.endStep.1, congrArg (·.st) kt.endStep.2, congrArg (·.cnt) kt.endStep.2⟩

/-- The low time of IRQ_HPD is over. -/
def VdmP.lowEnds (m : VdmP) : VdmP := { m with lowTime := false, lowIrq := false }

theorem irqHpdLowTimeEnd_spec (hon : s.timerOn h p .irqHpdLow) (hlow : (s.port p).vdm.lowTime = true) (hirq : (s.port p).vdm.lowIrq = false) :
    ∃ t, exec (.irqHpdLowTimeEnd h p) s = .next t ∧ s.othersKept p t ∧ (t.port p).vdm.lowTime = false ∧
      (t.port p).vdm.hpd = (s.port p).vdm.lowHpd := by
  obtain ⟨u, k, hv, he⟩ := hon.timerStep rfl (show exec (.irqHpdLowTimeEnd h p) s = execIrqHpdLowTimeEnd h p s from rfl)
  have ku : s.vdmTo p (s.port p).vdm u := ⟨k, hv⟩
  simp only [k.bmcRuns, hon.bmcRuns, hv, hlow, hirq, Bool.and_self, Bool.and_false, Bool.false_eq_true, if_true, if_false,
    State.hpdEffect] at he
  have kt := (ku.onVdm VdmP.lowEnds).setHpd (s.port p).vdm.lowHpd
  exact ⟨_, he, kt.endStep.1, congrArg (·.lowTime) kt.endStep.2, congrArg (·.hpd) kt.endStep.2⟩

/-- Settles O32: a failing step goes through `vdmStepFails` or `cabStepFails`, and what the partner sends unasked is acted on, counted or
refused. -/
theorem vdmFailuresAndCommands : Obligations.VdmFailuresAndCommands := by
  unfold Obligations.VdmFailuresAndCommands
  exact ⟨fun s h p v c => ⟨vdmNak_discId, vdmBusy_waits, tvdmbusyExpiry_spec, tvdmsenderresponseExpiry_cable,
      tvdmsenderresponseExpiry_discId, tvdmwaitmodeentryExpiry_spec⟩,
    fun s h p v w => ⟨fun hon ht hc hver => ⟨attention_acts hon ht hc hver, attention_discarded hon ht hc⟩,
      irqHpdLowTimeEnd_spec, structuredVdmCommand_nak, unstructuredVdm_notSupported⟩⟩

end Sys2Proof.Machine
end

section
/-! SUPPORT. A port that a fault state cuts (R219, R392): what of a port it rests on, and the changes that leave it,
and the safety of a state, alone. -/

namespace Sys2Proof.Machine

/-- A sluice in a state passes nothing where a fault state holds. -/
def cutOk (fault : Bool) (st : SlcState) : Bool := !fault || !st.passing

/-- Every port of a list of them is cut where a fault state holds. -/
def cutsOk (v : Vector PortState 48) : Bool := v.toList.all PortState.cutHolds

@[simp] theorem CntP.any_mk (fetg fets dscf limp phyx : Bool) (n b w l o e i r c) :
    (CntP.mk fetg fets dscf limp phyx n b w l o e i r c).any = (fetg || fets || dscf || limp || phyx) := by
  simp only [CntP.any]

@[simp] theorem CntP.any_self (c : CntP) : (c.fetg || c.fets || c.dscf || c.limp || c.phyx) = c.any := by simp only [CntP.any]

@[simp] theorem PortState.cutHolds_mk (a b c d e f k g h i j n l m) :
    (PortState.mk a b c d e f k g h i j n l m).cutHolds = cutOk n.any k.st := by
  simp only [PortState.cutHolds, cutOk, Slc.passing]

@[simp] theorem PortState.cutOk_self (x : PortState) : cutOk x.cnt.any x.slc.st = x.cutHolds := by
  simp only [PortState.cutHolds, cutOk, Slc.passing]

@[simp] theorem PortState.ite_cutHolds (c : Prop) [Decidable c] (x y : PortState) :
    (if c then x else y).cutHolds = if c then x.cutHolds else y.cutHolds := apply_ite ..

@[simp] theorem State.safe_mk (a b c d e f g h i j k l m v n o p q) :
    (State.mk a b c d e f g h i j k l m v n o p q).safe = cutsOk v := by
  simp only [State.safe, cutsOk]

@[simp] theorem State.cutsOk_ports (s : State) : cutsOk s.ports = s.safe := by simp only [State.safe, cutsOk]

@[simp] theorem State.ite_safe (c : Prop) [Decidable c] (a b : State) : (if c then a else b).safe = if c then a.safe else b.safe :=
  apply_ite ..

theorem State.safe_iff (s : State) : s.safe = true ↔ ∀ p, (s.port p).cutHolds = true := by
  refine ⟨fun h p => ?_, State.safe_of_forall⟩
  simp only [State.safe, List.all_eq_true, Vector.mem_toList_iff] at h
  exact h _ (Vector.getElem_mem p.isLt)

theorem State.safe_congr {s t : State} (h : ∀ p, (t.port p).cutHolds = (s.port p).cutHolds) : t.safe = s.safe :=
  Bool.eq_iff_iff.2 (by simp only [State.safe_iff, h])

@[simp] theorem State.onPort_safe (s : State) (p : Port) {f : PortState → PortState} (hf : ∀ x, (f x).cutHolds = x.cutHolds) :
    (s.onPort p f).safe = s.safe :=
  State.safe_congr fun q => by rw [State.onPort_port]; split <;> [rename_i h; rfl]; rw [hf, h]

@[simp] theorem State.onPorts_safe (s : State) {f : PortState → PortState} (hf : ∀ x, (f x).cutHolds = x.cutHolds) :
    (s.onPorts f).safe = s.safe :=
  State.safe_congr fun q => by rw [State.onPorts_port, hf]

theorem foldl_safe {α : Type} {f : State → α → State} (hf : ∀ s a, (f s a).safe = s.safe) (l : List α) (s : State) :
    (l.foldl f s).safe = s.safe := by
  induction l generalizing s with
  | nil => rfl
  | cons a l ih => exact (ih (f s a)).trans (hf s a)

@[simp] theorem State.forPorts_safe {f : State → Port → State} (hf : ∀ s p, (f s p).safe = s.safe) (l : List Port) (s : State) :
    (s.forPorts l f).safe = s.safe := foldl_safe hf l s

@[simp] theorem Slc.ite_st (c : Prop) [Decidable c] (x y : Slc) : (if c then x else y).st = if c then x.st else y.st := apply_ite ..

@[simp] theorem Slc.openWindow_st (c : Slc) : c.openWindow.st = c.st := by simp only [Slc.openWindow]

@[simp] theorem PortState.seeLow_cutHolds (x : PortState) (low : Bool) : (x.seeLow low).cutHolds = x.cutHolds := by simp [PortState.seeLow]

@[simp] theorem PortState.ack_cutHolds (x : PortState) (o : Nat) (w : Word) : (x.ack o w).cutHolds = x.cutHolds := by
  unfold PortState.ack; split <;> simp

@[simp] theorem PortState.enables_cutHolds (x : PortState) (o : Nat) (w : Word) : (x.enables o w).cutHolds = x.cutHolds := by
  unfold PortState.enables; split <;> simp

/-- What leaves every power path alone leaves the safety of a state alone. -/
theorem State.pathKept.safe {s t : State} (h : s.pathKept t) : t.safe = s.safe :=
  State.safe_congr fun q => by rw [PortState.cutHolds, h.cnt, h.slc]; rfl

end Sys2Proof.Machine
end

section
/-! SUPPORT. The operations that move no sluice and enter no fault state leave the safety of a state as it is. -/

namespace Sys2Proof.Machine

variable (s : State) (p : Port)

/-! ## Events, counters, the ledger, the yard and a hand's step -/

@[simp] theorem State.onD2_safe (d : WDie) (f : D2d → D2d) : (s.onD2 d f).safe = s.safe := by cases d <;> rfl
@[simp] theorem State.drawIn_safe (lo hi : Nat) : (s.drawIn lo hi).2.safe = s.safe := by simp [State.drawIn]
@[simp] theorem State.cisGrant_safe (k : Nat) : (s.cisGrant k).safe = s.safe := by simp [State.cisGrant]
@[simp] theorem State.pass_safe (n : Nat) (b : Bool) : (s.pass n b).safe = s.safe := by simp [State.pass]
@[simp] theorem State.locked_safe (b : Bool) {f : State → State} (hf : ∀ s, (f s).safe = s.safe) : (s.locked b f).safe = s.safe := by
  simp [State.locked, hf]

@[simp] theorem State.tcEvt_safe (i : Nat) : (s.tcEvt p i).safe = s.safe := by simp [State.tcEvt]
@[simp] theorem State.tcCnt_safe (i : Fin 12) : (s.tcCnt p i).safe = s.safe := by simp [State.tcCnt]
@[simp] theorem State.pdEvt_safe (i : Nat) : (s.pdEvt p i).safe = s.safe := by simp [State.pdEvt]
@[simp] theorem State.pdCnt_safe (i : Fin 13) : (s.pdCnt p i).safe = s.safe := by simp [State.pdCnt]
@[simp] theorem State.vdmEvt_safe (i : Nat) : (s.vdmEvt p i).safe = s.safe := by simp [State.vdmEvt]
@[simp] theorem State.vdmCnt_safe (i : Fin 7) : (s.vdmCnt p i).safe = s.safe := by simp [State.vdmCnt]
@[simp] theorem State.slcEvt_safe (i : Nat) : (s.slcEvt p i).safe = s.safe := by simp [State.slcEvt]
@[simp] theorem State.slcCnt_safe (i : Fin 8) : (s.slcCnt p i).safe = s.safe := by simp [State.slcCnt]
@[simp] theorem State.loopEvt_safe (i : Nat) : (s.loopEvt p i).safe = s.safe := by simp [State.loopEvt]
@[simp] theorem State.loopCnt_safe (i : Fin 4) : (s.loopCnt p i).safe = s.safe := by simp [State.loopCnt]
@[simp] theorem State.grdEvt_safe (i : Nat) : (s.grdEvt p i).safe = s.safe := by simp [State.grdEvt]
@[simp] theorem State.grdCnt_safe (i : Fin 5) : (s.grdCnt p i).safe = s.safe := by simp [State.grdCnt]
@[simp] theorem State.cisEvt_safe (i : Nat) : (s.cisEvt i).safe = s.safe := by simp [State.cisEvt]
@[simp] theorem State.cisCnt_safe (i : Fin 6) : (s.cisCnt i).safe = s.safe := by simp [State.cisCnt]
@[simp] theorem State.supEvt_safe (i : Nat) : (s.supEvt i).safe = s.safe := by simp [State.supEvt]
@[simp] theorem State.supCnt_safe (i : Fin 8) : (s.supCnt i).safe = s.safe := by simp [State.supCnt]
@[simp] theorem State.mtrEvt_safe (i : Nat) : (s.mtrEvt i).safe = s.safe := by simp [State.mtrEvt]
@[simp] theorem State.mtrCnt_safe (i : Fin 7) : (s.mtrCnt i).safe = s.safe := by simp [State.mtrCnt]
@[simp] theorem State.pwmCnt_safe (i : Fin 5) : (s.pwmCnt i).safe = s.safe := by simp [State.pwmCnt]
@[simp] theorem State.twiCnt_safe (t : Target) (i : Fin 5) : (s.twiCnt t i).safe = s.safe := by simp [State.twiCnt]
@[simp] theorem State.abortSamples_safe : (s.abortSamples p).safe = s.safe := by simp [State.abortSamples]
@[simp] theorem State.post_safe (from' : Nat) (p : Option Port) (cls : Nat) (e : EvCode) : (s.post from' p cls e).safe = s.safe := by
  simp [State.post]

@[simp] theorem State.postPort_safe (cls : Nat) (e : EvCode) : (s.postPort p cls e).safe = s.safe := by simp [State.postPort]
@[simp] theorem State.note_safe (from' : Nat) (p : Option Port) (cls : Nat) (n : Note) : (s.note from' p cls n).safe = s.safe := by
  simp [State.note]

@[simp] theorem State.noteConn_safe : (s.noteConn p).safe = s.safe := by simp [State.noteConn]
@[simp] theorem State.disarm_safe (t : TimerId) : (s.disarm p t).safe = s.safe := by simp [State.disarm]
@[simp] theorem State.arm_safe (t : TimerId) : (s.arm p t).safe = s.safe := by simp [State.arm]
@[simp] theorem State.disarmAll_safe : (s.disarmAll p).safe = s.safe := by simp [State.disarmAll]
@[simp] theorem State.yardClear_safe : (s.yardClear p).safe = s.safe := by simp [State.yardClear]
@[simp] theorem State.beginStep_safe (hand : Hand) (r : YardRec) : (s.beginStep hand r).safe = s.safe := by simp [State.beginStep]
@[simp] theorem State.endStep_safe : s.endStep.safe = s.safe := by simp [State.endStep]
@[simp] theorem State.skipSilent_safe (h : Hand) (n : Nat) : (State.skipSilent h n s).safe = s.safe := by
  induction n generalizing s with
  | zero => rfl
  | succ n ih => unfold State.skipSilent; split <;> [split; rfl] <;> simp [ih]

theorem State.take_safe {h : Hand} {o : Option Port} {e : EvCode → Bool} {c : EvCode} {t : State} (k : s.take h o e = some (c, t)) :
    t.safe = s.safe := by
  obtain ⟨r, -, -, -, -, -, rfl⟩ := State.take_spec k
  simp

theorem State.takeMsg_safe {h : Hand} {f : RxMsg → Bool} {m : RxMsg} {t : State} (k : s.takeMsg h p f = some (m, t)) :
    t.safe = s.safe := by
  obtain ⟨l, c, u, -, -, hu, rfl⟩ := State.takeMsg_spec k
  simp [State.take_safe s hu]

@[simp] theorem State.send_safe (kd : Sop) (k : TxKind) (m : PdMsg) : (s.send p kd k m).safe = s.safe := by simp [State.send]
@[simp] theorem State.slcCmd_safe (c : SlcCmd) : (s.slcCmd p c).safe = s.safe := by simp [State.slcCmd]
@[simp] theorem State.stgCmd_safe (c : StgCmd) : (s.stgCmd p c).safe = s.safe := by simp [State.stgCmd]

/-! ## Modes, messages, the stage, credits and the shed -/

@[simp] theorem State.muxUpdate_safe : (s.muxUpdate p).safe = s.safe := by simp [State.muxUpdate]
@[simp] theorem State.endMode_safe : (s.endMode p).safe = s.safe := (s.endMode_pathKept p).safe
@[simp] theorem State.dropMsgs_safe : (s.dropMsgs p).safe = s.safe := by simp [State.dropMsgs]
@[simp] theorem State.release_safe : (s.release p).safe = s.safe := by simp [State.release]
@[simp] theorem State.noteFree_safe (old : Int) : (s.noteFree old).safe = s.safe := by simp [State.noteFree]
@[simp] theorem State.leave_safe (c : ConnState) : (s.leave p c).safe = s.safe := (s.leave_pathKept p c).safe
@[simp] theorem State.detach_safe : (s.detach p).safe = s.safe := by simp [State.detach]
@[simp] theorem State.guardOff_safe : (s.guardOff p).safe = s.safe := by
  unfold State.guardOff
  split <;> simp

@[simp] theorem State.errRecov_safe : (s.errRecov p).safe = s.safe := (s.errRecov_pathKept p).safe
@[simp] theorem State.shed_safe : s.shed.safe = s.safe := s.shed_shedKept.1.safe
@[simp] theorem State.ledger_safe {f : State → State} (hf : ∀ s, (f s).safe = s.safe) : (s.ledger f).safe = s.safe := by
  simp [State.ledger, hf]

@[simp] theorem State.ledgerOf_safe {f : State → State} (hf : ∀ s, (f s).safe = s.safe) : (s.ledgerOf p f).safe = s.safe := by
  simp [State.ledgerOf, hf]

/-! ## Frames and loans of the commons link -/

@[simp] theorem State.onSide_safe (east : Bool) (f : LinkPort → LinkPort) : (s.onSide east f).safe = s.safe := by simp [State.onSide]
@[simp] theorem State.lnkCnt_safe (east : Bool) (i : Fin 6) : (s.lnkCnt east i).safe = s.safe := by simp [State.lnkCnt]
@[simp] theorem State.drift_safe (east : Bool) : (s.drift east).safe = s.safe := by simp [State.drift]
@[simp] theorem State.sendFrame_safe (east : Bool) (f : LinkFrame) : (s.sendFrame east f).safe = s.safe := by simp [State.sendFrame]
@[simp] theorem State.sendLine_safe (east : Bool) (f : LinkFrame) : (s.sendLine east f).safe = s.safe := by simp [State.sendLine]
@[simp] theorem State.nextXid_safe (east : Bool) (amount ends : Nat) : (s.nextXid east amount ends).2.safe = s.safe := by
  simp [State.nextXid]

@[simp] theorem State.sendGrant_safe (east : Bool) (req loan : BitVec 16) (amount leaseMs : Nat) :
    (s.sendGrant east req loan amount leaseMs).safe = s.safe := by
  simp [State.sendGrant]

@[simp] theorem State.sendLapse_safe (east : Bool) (loan : BitVec 16) (amount ends : Nat) :
    (s.sendLapse east loan amount ends).safe = s.safe := by
  simp [State.sendLapse]

@[simp] theorem State.onLoan_safe (i : Fin 32) (f : Loan → Loan) : (s.onLoan i f).safe = s.safe := by simp [State.onLoan]
@[simp] theorem State.dropLoan_safe (i : Fin 32) : (s.dropLoan i).safe = s.safe := by simp [State.dropLoan]
@[simp] theorem State.setReq_safe (east : Bool) (r : Option LoanReq) : (s.setReq east r).safe = s.safe := by simp [State.setReq]
@[simp] theorem State.askSide_safe (east : Bool) (amount hops : Nat) (second any : Bool) (up : Option (BitVec 16)) :
    (s.askSide east amount hops second any up).safe = s.safe := by
  simp [State.askSide]

@[simp] theorem State.refuseRelays_safe (g : Relayed → Bool) : (s.refuseRelays g).safe = s.safe := by
  unfold State.refuseRelays
  rw [foldl_safe fun s r => by split <;> simp]
  simp

@[simp] theorem State.seek_safe (short : Nat) : (s.seek short).safe = s.safe := by simp [State.seek]

/-! ## Offers and the sink's evaluation -/

@[simp] theorem State.vdmTimersOff_safe : (s.vdmTimersOff p).safe = s.safe := by simp [State.vdmTimersOff]
@[simp] theorem State.cableTimersOff_safe : (s.cableTimersOff p).safe = s.safe := by simp [State.cableTimersOff]
@[simp] theorem State.vdmInterrupt_safe : (s.vdmInterrupt p).safe = s.safe := by simp [State.vdmInterrupt]
@[simp] theorem State.offerTry_safe (n : Nat) : (s.offerTry p n).safe = s.safe := by simp [State.offerTry]
@[simp] theorem State.offer_safe : (s.offer p).safe = s.safe := by simp [State.offer]
@[simp] theorem State.offerDue_safe : (s.offerDue p).safe = s.safe := by simp [State.offerDue]
@[simp] theorem State.evaluate_safe : (s.evaluate p).safe = s.safe := by simp [State.evaluate]

/-! ## The connection machine and twins -/

@[simp] theorem State.accessory_safe : (s.accessory p).safe = s.safe := by simp [State.accessory]
@[simp] theorem State.toUnatt_safe : (s.toUnatt p).safe = s.safe := by simp [State.toUnatt, State.noteFrom]
@[simp] theorem State.seeVbc_safe (mv : Nat) : (s.seeVbc p mv).safe = s.safe := by simp [State.seeVbc]
@[simp] theorem State.vbcFell_safe (old : State) : (s.vbcFell old p).safe = s.safe := by simp [State.vbcFell]
@[simp] theorem State.limitsFor_safe (c : Option Contract) (raise : Bool) : (s.limitsFor p c raise).safe = s.safe := by
  simp [State.limitsFor]

@[simp] theorem State.limitsNow_safe : (s.limitsNow p).safe = s.safe := by simp [State.limitsNow]
@[simp] theorem State.vconnOn_safe : (s.vconnOn p).safe = s.safe := by simp [State.vconnOn]
@[simp] theorem State.vconnTry_safe : (s.vconnTry p).safe = s.safe := by simp [State.vconnTry]
@[simp] theorem State.attachSnk_safe : (s.attachSnk p).safe = s.safe := by simp [State.attachSnk]
@[simp] theorem State.isetFirst_safe : (s.isetFirst p).safe = s.safe := by simp [State.isetFirst]
@[simp] theorem State.stageUp_safe : (s.stageUp p).safe = s.safe := by simp [State.stageUp]
@[simp] theorem State.tryAttach_safe : (s.tryAttach p).safe = s.safe := by simp [State.tryAttach, State.attachSrc]
@[simp] theorem State.ccJudge_safe (had : Bool) : (s.ccJudge p had).safe = s.safe := by
  unfold State.ccJudge
  dsimp only
  (repeat' split) <;> simp

@[simp] theorem State.twinRetry_safe : (s.twinRetry p).safe = s.safe := by
  unfold State.twinRetry
  dsimp only
  (repeat' split) <;> simp

@[simp] theorem State.twinStart_safe : (s.twinStart p).safe = s.safe := by simp [State.twinStart]
@[simp] theorem State.twinFreed_safe : (s.twinFreed p).safe = s.safe := by simp [State.twinFreed]
@[simp] theorem State.twinLost_safe : (s.twinLost p).safe = s.safe := by simp [State.twinLost]
@[simp] theorem State.vbcLow_safe : (s.vbcLow p).safe = s.safe := by simp [State.vbcLow]

/-! ## The protocol layer -/

@[simp] theorem State.onProt_safe (f : Prot → Prot) : (s.onProt p f).safe = s.safe := by simp [State.onProt]
@[simp] theorem State.hardResetSeen_safe : (s.hardResetSeen p).safe = s.safe := by simp [State.hardResetSeen]
@[simp] theorem State.accept_safe (k : Packet) : (s.accept p k).safe = s.safe := by
  unfold State.accept
  dsimp only
  (repeat' split) <;> simp

@[simp] theorem State.lineIdle_safe : (s.lineIdle p).safe = s.safe := by simp [State.lineIdle]
@[simp] theorem State.hrTimers_safe : (s.hrTimers p).safe = s.safe := by simp [State.hrTimers]

/-! ## The policy machines -/

@[simp] theorem State.onPd_safe (f : Pd → Pd) : (s.onPd p f).safe = s.safe := by simp [State.onPd]
@[simp] theorem State.onVdm_safe (f : VdmP → VdmP) : (s.onVdm p f).safe = s.safe := by simp [State.onVdm]
@[simp] theorem State.vdmSend_safe (st : VdmState) (v : Vdm) : (s.vdmSend p st v).safe = s.safe := by simp [State.vdmSend]
@[simp] theorem State.cabSend_safe (st : VdmState) (v : Vdm) : (s.cabSend p st v).safe = s.safe := by simp [State.cabSend]
@[simp] theorem State.cableTry_safe : (s.cableTry p).safe = s.safe := by simp [State.cableTry]
@[simp] theorem State.cabAgain_safe : (s.cabAgain p).safe = s.safe := by simp [State.cabAgain]
@[simp] theorem State.vdmAgain_safe : (s.vdmAgain p).safe = s.safe := by
  unfold State.vdmAgain
  split <;> simp

@[simp] theorem State.noMode_safe : (s.noMode p).safe = s.safe := by simp [State.noMode]
@[simp] theorem State.nextEntry_safe : (s.nextEntry p).safe = s.safe := by
  unfold State.nextEntry
  dsimp only
  (repeat' split) <;> simp

@[simp] theorem State.cableDone_safe {f : State → State} (hf : ∀ s, (f s).safe = s.safe) : (s.cableDone p f).safe = s.safe := by
  simp [State.cableDone, hf]

@[simp] theorem State.cableFailed_safe {f : State → State} (hf : ∀ s, (f s).safe = s.safe) : (s.cableFailed p f).safe = s.safe := by
  simp [State.cableFailed, hf]

@[simp] theorem State.cableTryFailed_safe {f : State → State} (hf : ∀ s, (f s).safe = s.safe) :
    (s.cableTryFailed p f).safe = s.safe := by
  simp [State.cableTryFailed, hf]

@[simp] theorem State.alertTry_safe : (s.alertTry p).safe = s.safe := by
  unfold State.alertTry
  dsimp only
  (repeat' split) <;> simp

@[simp] theorem State.readyTail_safe : (s.readyTail p).safe = s.safe := by simp [State.readyTail]
@[simp] theorem State.enterReady_safe : (s.enterReady p).safe = s.safe := by simp [State.enterReady, State.firstReady]
@[simp] theorem State.sinkReady_safe : (s.sinkReady p).safe = s.safe := by simp [State.sinkReady]
@[simp] theorem State.takeVconn_safe : (s.takeVconn p).safe = s.safe := by simp [State.takeVconn]
@[simp] theorem State.eprFail_safe (reason : Nat) : (s.eprFail p reason).safe = s.safe := by simp [State.eprFail]
@[simp] theorem State.eprAnswer_safe : (s.eprAnswer p).safe = s.safe := by simp [State.eprAnswer]
@[simp] theorem State.vcsFailed_safe : (s.vcsFailed p).safe = s.safe := by simp [State.vcsFailed]
@[simp] theorem State.dropPledge_safe : (s.dropPledge p).safe = s.safe := by simp [State.dropPledge]
@[simp] theorem State.softReset_safe : (s.softReset p).safe = s.safe := by simp [State.softReset]
@[simp] theorem State.hrBegin_safe : (s.hrBegin p).safe = s.safe := by simp [State.hrBegin]
@[simp] theorem State.hardReset_safe : (s.hardReset p).safe = s.safe := by simp [State.hardReset, State.toErrRecov]
@[simp] theorem State.hrDischarged_safe : (s.hrDischarged p).safe = s.safe := by simp [State.hrDischarged]

/-! ## Answers to messages -/

@[simp] theorem State.say_safe (m : PdMsg) : (s.say p m).safe = s.safe := by simp [State.say]
@[simp] theorem State.notSupported_safe : (s.notSupported p).safe = s.safe := by simp [State.notSupported]
@[simp] theorem State.refuseSwap_safe : (s.refuseSwap p).safe = s.safe := by simp [State.refuseSwap]
@[simp] theorem State.reject_safe : (s.reject p).safe = s.safe := by simp [State.reject]
@[simp] theorem State.acceptReq_safe (c : Contract) : (s.acceptReq p c).safe = s.safe := by simp [State.acceptReq]
@[simp] theorem State.waitTwin_safe : (s.waitTwin p).safe = s.safe := by simp [State.waitTwin]
@[simp] theorem State.waitCred_safe (short : Nat) : (s.waitCred p short).safe = s.safe := by simp [State.waitCred]
@[simp] theorem State.admission_safe (r : Rdo) (eprMsg : Bool) : (s.admission p r eprMsg).safe = s.safe := by
  unfold State.admission
  dsimp only
  (repeat' split) <;> simp

@[simp] theorem State.eprLeft_safe : (s.eprLeft p).safe = s.safe := by simp [State.eprLeft]
@[simp] theorem State.contractReached_safe : (s.contractReached p).safe = s.safe := by
  unfold State.contractReached
  split <;> simp

@[simp] theorem State.acceptAcked_safe : (s.acceptAcked p).safe = s.safe := by simp [State.acceptAcked]
@[simp] theorem State.txOk_safe (k : TxKind) : (s.txOk p k).safe = s.safe := by
  cases k <;> simp [State.txOk]

@[simp] theorem State.vdmStepFails_safe : (s.vdmStepFails p).safe = s.safe := by
  unfold State.vdmStepFails
  dsimp only
  (repeat' split) <;> simp

@[simp] theorem State.cabStepFails_safe : (s.cabStepFails p).safe = s.safe := by simp [State.cabStepFails]
@[simp] theorem State.capsFailed_safe : (s.capsFailed p).safe = s.safe := by simp [State.capsFailed]
@[simp] theorem State.txFail_safe (k : TxKind) : (s.txFail p k).safe = s.safe := by
  cases k <;> simp [State.txFail]

/-! ## The guard -/

@[simp] theorem State.onGrd_safe (f : GrdP → GrdP) : (s.onGrd p f).safe = s.safe := by simp [State.onGrd]
@[simp] theorem State.guardPost_safe (offer : Bool) : (s.guardPost p offer).safe = s.safe := by simp [State.guardPost]
@[simp] theorem State.guardCut_safe : (s.guardCut p).safe = s.safe := by simp [State.guardCut]
@[simp] theorem State.guardFree_safe : (s.guardFree p).safe = s.safe := by simp [State.guardFree]
@[simp] theorem State.judgeZero_safe : (s.judgeZero p).safe = s.safe := by simp [State.judgeZero]
@[simp] theorem State.dieHotOn_safe : (s.dieHotOn p).safe = s.safe := by simp [State.dieHotOn]

/-! ## Metering and tallies -/

@[simp] theorem State.onMet_safe (f : Met → Met) : (s.onMet p f).safe = s.safe := by simp [State.onMet]
@[simp] theorem State.askTally_safe (k : TallyKind) : (s.askTally k).safe = s.safe := by simp [State.askTally]
@[simp] theorem State.tallySnap_safe : s.tallySnap.safe = s.safe := by
  unfold State.tallySnap
  split <;> simp

@[simp] theorem State.wrBclr_safe (w : Word) : (s.wrBclr w).safe = s.safe := by
  unfold State.wrBclr
  (repeat' split) <;> simp

@[simp] theorem State.latchMet_safe (t : Target) : (s.latchMet t p).safe = s.safe := by simp [State.latchMet]
@[simp] theorem State.onGrp_safe (g : Group) (f : Grp → Grp) : (s.onGrp g f).safe = s.safe := by simp [State.onGrp]
@[simp] theorem State.onMod_safe (i : Fin 3) (f : Modl → Modl) : (s.onMod p i f).safe = s.safe := by simp [State.onMod]
@[simp] theorem State.prefSee_safe (d : WDie) (uv : Nat) : (s.prefSee d uv).safe = s.safe := by
  unfold State.prefSee
  split <;> simp

@[simp] theorem State.flashTally_safe : s.flashTally.safe = s.safe := by simp [State.flashTally]
@[simp] theorem State.tryRecord_safe (k : TallyKind) : (s.tryRecord k).safe = s.safe := by simp [State.tryRecord]
@[simp] theorem State.restoreTally_safe (l : List TallySlot) : (s.restoreTally l).safe = s.safe := by
  unfold State.restoreTally
  dsimp only
  (repeat' split) <;> simp

/-! ## Rest and the input supervisor -/

@[simp] theorem State.supFreeze_safe : s.supFreeze.safe = s.safe := by simp [State.supFreeze]
@[simp] theorem State.wake_safe (src : WakeSource) : (s.wake src).safe = s.safe := by
  unfold State.wake
  (repeat' split) <;> simp

@[simp] theorem State.onSup_safe (f : Sup → Sup) : (s.onSup f).safe = s.safe := by simp [State.onSup]
@[simp] theorem State.seeVsb_safe : s.seeVsb.safe = s.safe := by simp [State.seeVsb]
@[simp] theorem State.seeA_safe (v : Nat) : (s.seeA v).safe = s.safe := by simp [State.seeA]
@[simp] theorem State.seeB_safe (v : Nat) : (s.seeB v).safe = s.safe := by simp [State.seeB]
@[simp] theorem State.warnTally_safe : s.warnTally.safe = s.safe := by simp [State.warnTally]
@[simp] theorem State.setWrn_safe : s.setWrn.safe = s.safe := by simp [State.setWrn]
@[simp] theorem State.crierAsk_safe (c : InputCause) : (s.crierAsk c).safe = s.safe := by simp [State.crierAsk]
@[simp] theorem State.tryHandOver_safe : s.tryHandOver.safe = s.safe := by simp [State.tryHandOver]
@[simp] theorem State.startReturn_safe : s.startReturn.safe = s.safe := by simp [State.startReturn]
@[simp] theorem State.tryEmergency_safe : s.tryEmergency.safe = s.safe := by simp [State.tryEmergency]
@[simp] theorem State.gateSlow_safe (slow : Bool) : (s.gateSlow slow).safe = s.safe := by simp [State.gateSlow]

/-! ## The commons link -/

@[simp] theorem State.dropBorrowed_safe : s.dropBorrowed.safe = s.safe := by
  unfold State.dropBorrowed
  rw [foldl_safe fun s i => by simp]
  simp

@[simp] theorem State.setProfile_safe (reserve : Bool) : (s.setProfile reserve).safe = s.safe := by simp [State.setProfile]
@[simp] theorem State.loanNote_safe : s.loanNote.safe = s.safe := by simp [State.loanNote]
@[simp] theorem State.endSearch_safe (any : Bool) : (s.endSearch any).safe = s.safe := by simp [State.endSearch]
@[simp] theorem State.relayNext_safe (east : Bool) : (s.relayNext east).safe = s.safe := by
  unfold State.relayNext
  split <;> simp [State.seekNext]

@[simp] theorem State.portFree_safe (east : Bool) : (s.portFree east).safe = s.safe := by
  unfold State.portFree
  split <;> simp

@[simp] theorem State.closeReq_safe (east : Bool) : (s.closeReq east).safe = s.safe := by
  unfold State.closeReq
  split <;> simp

@[simp] theorem State.noteLate_safe (east : Bool) : (s.noteLate east).safe = s.safe := by
  unfold State.noteLate
  (repeat' split) <;> simp

@[simp] theorem State.answerReq_safe (east : Bool) (reqId : BitVec 16) (amount hops : Nat) :
    (s.answerReq east reqId amount hops).safe = s.safe := by
  unfold State.answerReq
  split <;> simp [State.lendOwn]

@[simp] theorem State.borrowOwn_safe (east : Bool) (reqId loanId : BitVec 16) (amount leaseMs : Nat) (i : Fin 32) :
    (s.borrowOwn east reqId loanId amount leaseMs i).safe = s.safe := by
  unfold State.borrowOwn
  dsimp only
  (repeat' split) <;> simp

@[simp] theorem State.relayGot_safe (east : Bool) (reqId : BitVec 16) (a : Nat) : (s.relayGot east reqId a).safe = s.safe := by
  unfold State.relayGot
  split <;> simp

@[simp] theorem State.takeGrant_safe (east : Bool) (reqId loanId : BitVec 16) (amount leaseMs : Nat) :
    (s.takeGrant east reqId loanId amount leaseMs).safe = s.safe := by
  unfold State.takeGrant
  (repeat' split) <;> simp [State.relayLoan]

@[simp] theorem State.lapseBorrowed_safe (i : Fin 32) (a : Nat) : (s.lapseBorrowed i a).safe = s.safe := by simp [State.lapseBorrowed]
@[simp] theorem State.regain_safe (i : Fin 32) (a : Nat) : (s.regain i a).safe = s.safe := by simp [State.regain]
@[simp] theorem State.outLapsed_safe (i : Fin 32) (a : Nat) : (s.outLapsed i a).safe = s.safe := by simp [State.outLapsed]
@[simp] theorem State.takeLapse_safe (east : Bool) (loanId : BitVec 16) (amount : Nat) :
    (s.takeLapse east loanId amount).safe = s.safe := by
  unfold State.takeLapse
  split <;> simp

@[simp] theorem State.sendRenew_safe (i : Fin 32) (a leaseMs : Nat) : (s.sendRenew i a leaseMs).safe = s.safe := by simp [State.sendRenew]
@[simp] theorem State.takeRenew_safe (east : Bool) (loanId : BitVec 16) (amount leaseMs : Nat) :
    (s.takeRenew east loanId amount leaseMs).safe = s.safe := by
  unfold State.takeRenew
  split <;> simp

@[simp] theorem State.takeRenewAck_safe (east : Bool) (loanId : BitVec 16) (kept : Nat) :
    (s.takeRenewAck east loanId kept).safe = s.safe := by
  unfold State.takeRenewAck
  split <;> simp

@[simp] theorem State.dropLoans_safe (east : Bool) : (s.dropLoans east).safe = s.safe :=
  State.ledger_safe s fun s => foldl_safe (fun s i => by simp) _ s

@[simp] theorem State.takeId_safe (n : Nat) : (s.takeId n).safe = s.safe := by simp [State.takeId]
@[simp] theorem State.chainWave_safe : s.chainWave.safe = s.safe := by simp [State.chainWave]
@[simp] theorem State.sendWest_safe (f : LinkFrame) : (s.sendWest f).safe = s.safe := by simp [State.sendWest]
@[simp] theorem State.setLink_safe (east : Bool) (st : LinkState) : (s.setLink east st).safe = s.safe := by simp [State.setLink]
@[simp] theorem State.reopen_safe : s.reopen.safe = s.safe := by simp [State.reopen]
@[simp] theorem State.portChanged_safe (prompt : Bool) : (s.portChanged prompt).safe = s.safe := by simp [State.portChanged]
@[simp] theorem State.linkChanged_safe : s.linkChanged.safe = s.safe := by simp [State.linkChanged]
@[simp] theorem State.wakeSide_safe (east : Bool) : (s.wakeSide east).safe = s.safe := by simp [State.wakeSide]
@[simp] theorem State.startAudit_safe : s.startAudit.safe = s.safe := by simp [State.startAudit]
@[simp] theorem State.auditResult_safe (no : BitVec 16) (r : BitVec 3) (nodes : BitVec 16) : (s.auditResult no r nodes).safe = s.safe := by
  simp [State.auditResult]

@[simp] theorem State.heardOn_safe (east : Bool) : (s.heardOn east).safe = s.safe := by simp [State.heardOn]
@[simp] theorem State.restNow_safe : s.restNow.safe = s.safe := by simp [State.restNow, State.dowserStop]
@[simp] theorem State.sleepSent_safe (f : LinkFrame) : (s.sleepSent f).safe = s.safe := by
  unfold State.sleepSent
  split <;> simp

@[simp] theorem State.wrLnkCtl_safe (w : Word) : (s.wrLnkCtl w).safe = s.safe := by simp [State.wrLnkCtl, State.linkReset]

/-! ## The sluice -/

@[simp] theorem State.popSlc_safe : (s.popSlc p).safe = s.safe := by simp [State.popSlc]
@[simp] theorem State.gateDown_safe (dur : Nat) : (s.gateDown p dur).safe = s.safe := by simp [State.gateDown]

/-! ## The stage -/

@[simp] theorem State.popStg_safe : (s.popStg p).safe = s.safe := by simp [State.popStg]
@[simp] theorem State.startWait_safe (fsw : Nat) : (s.startWait fsw).2.safe = s.safe := by simp [State.startWait]
@[simp] theorem PortState.latest_cutHolds {f : PortState → PortState} (hf : ∀ x, (f x).cutHolds = x.cutHolds) (x : PortState) :
    (PortState.latest f x).cutHolds = x.cutHolds := by
  have hy (y : PortState) (hy : y.cutHolds = x.cutHolds) (o) : PortState.cutHolds { f y with prior := o } = x.cutHolds := by
    rw [← hy, ← hf y]
    simp
  unfold PortState.latest
  split <;> exact hy _ (by simp) _

@[simp] theorem State.refCmd_safe {f : PortState → PortState} (hf : ∀ x, (f x).cutHolds = x.cutHolds) :
    (s.refCmd p f).safe = s.safe := by
  simp [State.refCmd, hf]

@[simp] theorem State.freerun_safe : s.freerun.safe = s.safe := by simp [State.freerun]

/-! ## The output lost and a Hard Reset -/

@[simp] theorem State.loseOutput_safe : (s.loseOutput p).safe = s.safe := by
  unfold State.loseOutput
  dsimp only
  (repeat' split) <;> simp

/-! ## Pumps -/

@[simp] theorem State.setPump_safe (n : Pump) (r : Option PumpRun) : (s.setPump n r).safe = s.safe := by simp [State.setPump]
@[simp] theorem State.pumpFree_safe (n : Pump) (r : PumpRun) (cycles : Nat) : (s.pumpFree n r cycles).safe = s.safe := by
  simp [State.pumpFree]

@[simp] theorem State.endOf_safe (n : Pump) (r : PumpRun) (trough : Trough) : (s.endOf n r trough).safe = s.safe := by
  simp [State.endOf, State.deliver]

/-! ## Loop slots and dispatch -/

@[simp] theorem State.dispatch_safe (n : Pump) (tie level preset : Bool) (wait : Nat) :
    (s.dispatch n p tie level preset wait).safe = s.safe := by
  simp [State.dispatch, State.noteWait, State.noteSteal]

@[simp] theorem State.wrLoopCtl_safe (w : Word) : (s.wrLoopCtl p w).safe = s.safe := by simp [State.wrLoopCtl, State.hostAuto]
@[simp] theorem State.wrLoopMduty_safe (w : Word) : (s.wrLoopMduty p w).safe = s.safe := by simp [State.wrLoopMduty]
@[simp] theorem State.wrCoef_safe (i : Fin 256) (w : Word) : (s.wrCoef p i w).safe = s.safe := by simp [State.wrCoef]

/-! ## Resets, start-up and rest -/

@[simp] theorem State.supHeard_safe (d : WDie) : (s.supHeard d).safe = s.safe := by
  unfold State.supHeard
  split <;> simp

@[simp] theorem State.applyImage_safe (m : Image) : (s.applyImage m).safe = s.safe := by
  unfold State.applyImage
  rw [State.linkChanged_safe, State.tryHandOver_safe]
  exact State.safe_congr fun q => by simp [State.port]

@[simp] theorem State.calAll_safe (gain : Bool) : (s.calAll gain).safe = s.safe := by
  unfold State.calAll
  exact State.safe_congr fun q => by simp [State.port, apply_ite PortState.cutHolds]

@[simp] theorem State.enable_safe : (s.enable p).safe = s.safe := by simp [State.enable]
@[simp] theorem State.resetDone_safe : (s.resetDone p).safe = s.safe := by simp [State.resetDone]
@[simp] theorem State.adminNote_safe : (s.adminNote p).safe = s.safe := by simp [State.adminNote]
@[simp] theorem State.wrTcCtl_safe (w : Word) : (s.wrTcCtl p w).safe = s.safe := by simp [State.wrTcCtl, State.adm]

/-! ## Vendor-defined messages -/

@[simp] theorem State.verSeen_safe (v : Vdm) : (s.verSeen p v).safe = s.safe := by simp [State.verSeen]
@[simp] theorem State.vdmAnswered_safe (v : Vdm) : (s.vdmAnswered p v).safe = s.safe := by simp [State.vdmAnswered]
@[simp] theorem State.askSvids_safe : (s.askSvids p).safe = s.safe := by simp [State.askSvids]
@[simp] theorem State.modeReached_safe : (s.modeReached p).safe = s.safe := by simp [State.modeReached]
@[simp] theorem State.setHpd_safe (b : Bool) : (s.setHpd p b).safe = s.safe := by simp [State.setHpd]
@[simp] theorem State.hpdEffect_safe (was hpd irq : Bool) : (s.hpdEffect p was hpd irq).safe = s.safe := by simp [State.hpdEffect]

/-! ## Registers read -/

@[simp] theorem State.afterRead_safe (t : Target) (i : Nat) : (s.afterRead t i).safe = s.safe := by
  unfold State.afterRead
  (repeat' split) <;> simp

/-! ## Registers written -/

@[simp] theorem State.ack_safe (i : Nat) (w : Word) : (s.ack i w).safe = s.safe := by
  unfold State.ack
  (repeat' split) <;> simp

@[simp] theorem State.enables_safe (i : Nat) (w : Word) : (s.enables i w).safe = s.safe := by
  unfold State.enables
  (repeat' split) <;> simp

@[simp] theorem State.clearCounts_safe (b : ClearBlock) : (s.clearCounts b).safe = s.safe := by
  unfold State.clearCounts
  split <;> simp

@[simp] theorem State.hwmClear_safe : s.hwmClear.safe = s.safe := by simp [State.hwmClear]
@[simp] theorem State.wrUnlock_safe (key : BitVec 16) : (s.wrUnlock key).safe = s.safe := by simp [State.wrUnlock]
@[simp] theorem State.wrCclr_safe (b : ClearBlock) (w : Word) : (s.wrCclr b w).safe = s.safe := by simp [State.wrCclr]

/-! ## Two-wire transactions -/

@[simp] theorem State.answer_safe (reply : List Byte) (nak : Bool) : (s.answer reply nak).safe = s.safe := by simp [State.answer]
@[simp] theorem State.noAck_safe : s.noAck.safe = s.safe := by simp [State.noAck]
@[simp] theorem State.twiEvt_safe (i : Nat) : (s.twiEvt i).safe = s.safe := by simp [State.twiEvt]
@[simp] theorem State.readSeq_safe (t : Target) (k : Nat) (f : Nat → Nat) : (State.readSeq t k f s).2.safe = s.safe := by
  induction k generalizing f s with
  | zero => rfl
  | succ k ih => simp [State.readSeq, ih]

@[simp] theorem State.readBytes_safe (t : Target) (n : Nat) (f : Nat → Nat) : (s.readBytes t n f).2.safe = s.safe := by
  simp [State.readBytes]

@[simp] theorem State.setIndex_safe (idx : Index) (k : Nat) : (s.setIndex idx k).safe = s.safe := by simp [State.setIndex]
@[simp] theorem State.stretch_safe (c : TwmOp) : (s.stretch c).safe = s.safe := by
  unfold State.stretch
  split <;> simp

@[simp] theorem State.twmWrite_safe (idx : Index) (bytes : List Byte) : (s.twmWrite idx bytes).safe = s.safe := by simp [State.twmWrite]
@[simp] theorem State.twmSetIndex_safe (idx : Index) : (s.twmSetIndex idx).safe = s.safe := by simp [State.twmSetIndex]
@[simp] theorem State.twmStream_safe (idx : Index) (n : Nat) : (s.twmStream idx n).safe = s.safe := by simp [State.twmStream]
@[simp] theorem State.twmStreamed_safe (idx : Index) (n : Nat) : (s.twmStreamed idx n).safe = s.safe := by simp [State.twmStreamed]
@[simp] theorem State.twmCounted_safe (idx : Index) (after : List Byte) (extra : Nat) : (s.twmCounted idx after extra).safe = s.safe := by
  unfold State.twmCounted
  split <;> simp

@[simp] theorem State.twmCurrent_safe (n : Nat) : (s.twmCurrent n).safe = s.safe := by simp [State.twmCurrent]
@[simp] theorem State.auxNone_safe (t : AuxTarget) (addr : BitVec 7) : (s.auxNone t addr).safe = s.safe := by simp [State.auxNone]
@[simp] theorem State.setOffset_safe (o : Nat) : (s.setOffset p o).safe = s.safe := by simp [State.setOffset]
@[simp] theorem State.auxStream_safe (t : AuxTarget) (off n : Nat) : (s.auxStream t p off n).safe = s.safe := by simp [State.auxStream]

end Sys2Proof.Machine
end

section
/-! SUPPORT. The operations that move a sluice or enter a fault state keep a safe state safe: a sluice begins to pass only on a port
in no fault state (R196), and a port that enters one has its sluice cut (R219). -/

namespace Sys2Proof.Machine

variable {s t u : State} {p : Port}

/-- A port whose sluice a fault state has cut in s, or that is in none, is so in t. -/
def State.cutsKept (s t : State) : Prop := ∀ q, (s.port q).cutHolds = true → (t.port q).cutHolds = true

theorem State.cutsKept_refl (s : State) : s.cutsKept s := fun _ => id

theorem State.cutsKept.trans (h : s.cutsKept t) (k : t.cutsKept u) : s.cutsKept u := fun q hq => k q (h q hq)

theorem State.cutsKept.safe (h : s.cutsKept t) (hs : s.safe = true) : t.safe = true :=
  t.safe_iff.2 fun q => h q (s.safe_iff.1 hs q)

theorem PortState.cutHolds_of_not_passing {x : PortState} (h : x.slc.passing = false) : x.cutHolds = true := by
  simp [PortState.cutHolds, h]

theorem PortState.cutHolds_congr {x y : PortState} (hc : y.cnt = x.cnt) (hs : y.slc = x.slc) : y.cutHolds = x.cutHolds := by
  rw [PortState.cutHolds, hc, hs, PortState.cutHolds]

theorem State.pathKept.cutsKept (h : s.pathKept t) : s.cutsKept t :=
  fun q hq => by rwa [PortState.cutHolds_congr (h.cnt q) (h.slc q)]

theorem State.onPort_cutsKept (s : State) (p : Port) {f : PortState → PortState}
    (hf : (s.port p).cutHolds = true → (f (s.port p)).cutHolds = true) : s.cutsKept (s.onPort p f) := fun q hq => by
  rw [State.onPort_port]
  split
  next h => exact hf (h ▸ hq)
  next => exact hq

theorem State.slcOff_cutsKept (s : State) (p : Port) : s.cutsKept (s.slcOff p) := fun q hq => by
  by_cases h : q = p
  · exact PortState.cutHolds_of_not_passing (h ▸ s.slcOff_passing p)
  · rwa [(s.slcOff_onlyYard p).1 q h]

theorem State.stageHalt_cutsKept (s : State) (p : Port) : s.cutsKept (s.stageHalt p) := fun q hq => by
  obtain ⟨g, l, r, e, -⟩ := s.stageHalt_port p q
  rwa [PortState.cutHolds_congr (by rw [e]) (by rw [e])]

/-- The samples, the waiting events and the slot of a port are dropped beside its power path. -/
theorem State.dropWork_pathKept (s : State) (p : Port) : s.pathKept (((s.abortSamples p).yardDrop p).slotClear p) := by
  have ha : s.pathKept (s.abortSamples p) :=
    State.pathKept.with (t := s.onPort p fun x => { x with loop := { x.loop with running := false } }) (s.onPort_pathKept p) rfl rfl
  have hd : (s.abortSamples p).pathKept ((s.abortSamples p).yardDrop p) := (State.disarmAll_pathKept _ p).with rfl rfl
  exact (ha.trans hd).with rfl rfl

/-- A port reset ends with a sluice that passes nothing (R48, R393). -/
theorem State.resetRun_cutsKept (s : State) (p : Port) : s.cutsKept (s.resetRun p) := by
  unfold State.resetRun
  extract_lets s₁ s₂ kept s₃
  have h₁ : s.cutsKept s₁ := ((s.leave_pathKept p _).trans (s.ledgerOf_shedKept p _).1).cutsKept
  have h₂ : s₁.cutsKept s₂ := by
    exact (s₁.dropWork_pathKept p).cutsKept.trans (State.slcOff_cutsKept _ p)
  have hp : (s₂.port p).slc.passing = false := State.slcOff_passing ..
  have h₃ : s₂.cutsKept s₃ ∧ (s₃.port p).slc.passing = false := by
    unfold s₃
    split
    · exact ⟨s₂.cutsKept_refl, hp⟩
    · obtain ⟨g, l, r, e, -⟩ := s₂.stageHalt_port p p
      exact ⟨s₂.stageHalt_cutsKept p, by rw [e]; exact hp⟩
  refine ((h₁.trans h₂).trans h₃.1).trans (s₃.onPort_cutsKept p fun _ => PortState.cutHolds_of_not_passing ?_)
  exact Bool.eq_false_iff.2 fun hn => Bool.eq_false_iff.1 h₃.2 (((s₃.port p).beginReset_quieter _).2.1 hn)

theorem State.resetGo_cutsKept (s : State) (p : Port) : s.cutsKept (s.resetGo p) := by
  unfold State.resetGo
  split
  · exact (s.resetRun_cutsKept p).trans (State.twinNotice_shedKept _ p).1.cutsKept
  · exact s.cutsKept_refl

theorem State.stageCut_cutsKept (s : State) (p : Port) : s.cutsKept (s.stageCut p) :=
  (s.stageHalt_cutsKept p).trans (State.resetGo_cutsKept _ _)

theorem State.faultStage_cutsKept (s : State) (p : Port) (k : FaultKind) : s.cutsKept (s.faultStage p k) := by
  unfold State.faultStage
  split
  · exact s.cutsKept_refl
  · exact s.stageCut_cutsKept p
  · split
    · exact s.cutsKept_refl
    · exact s.stageCut_cutsKept p

theorem State.faultLeave_cutsKept (s : State) (p : Port) (k : FaultKind) : s.cutsKept (s.faultLeave p k) := by
  unfold State.faultLeave
  extract_lets x keep
  generalize hf : (fun s : State => (s.leave p .fault).onPort p _) = f
  have h : s.cutsKept (f s) := by
    rw [← hf]
    exact (s.leave_pathKept p .fault).cutsKept.trans (State.onPort_cutsKept _ p (by simp))
  exact h.trans (s.ledgerOf_shedKept p f).1.cutsKept

/-- A port in a fault state that enters another one, but FETS, keeps its stage: the first fault governs the power path (R393). -/
theorem State.faultStage_of_any {k : FaultKind} (ha : (s.port p).cnt.any = true) (hk : k ≠ .fets) : s.faultStage p k = s := by
  unfold State.faultStage
  cases k <;> simp_all

/-- A port that was in no fault state, or enters FETS, takes the sluice of the fault; any other has had it cut by the first. -/
theorem State.fault_safe (k : FaultKind) (h : s.safe = true) : (s.fault p k).safe = true := by
  rw [State.fault]
  split
  · exact h
  extract_lets sink first s₁ s₂ s₃ s₄
  have hne : ∀ q, q ≠ p → (s₃.port q).cutHolds = true := fun q hq => by
    have h₁ : s₁.port q = s.port q := by
      unfold s₁
      split
      · exact s.onPort_port_ne p q _ hq
      · rfl
    exact s₂.faultLeave_cutsKept p k q (s₁.faultStage_cutsKept p k q (h₁ ▸ s.safe_iff.1 h q))
  have hp : (s₄.port p).slc.passing = false := by
    unfold s₄
    rw [State.onPort_port_self]
    cases hf : first || decide (k = .fets) with
    | true =>
      rw [if_pos rfl]
      exact Slc.fault_passing (s₃.port p).slc k sink
    | false =>
      obtain ⟨hfirst, hk⟩ := Bool.or_eq_false_iff.1 hf
      have ha : (s.port p).cnt.any = true := by simpa [first] using hfirst
      have hs : s₂ = s := by
        simp only [s₂, s₁, hf]
        exact State.faultStage_of_any ha (by simpa using hk)
      have hs₃ : (s₃.port p).slc = (s.port p).slc := by rw [(s₂.faultLeave_port p k).2.1, hs]
      have hcut := s.safe_iff.1 h p
      simpa [hs₃, PortState.cutHolds, ha] using hcut
  refine State.safe_of_forall fun q => ?_
  by_cases hq : q = p
  · rw [State.postPort_port, hq]
    exact PortState.cutHolds_of_not_passing hp
  · rw [State.postPort_port, State.onPort_port_ne _ _ _ _ hq]
    exact hne q hq

@[simp] theorem State.faultOn_safe (k : FaultKind) (h : s.safe = true) : (s.faultOn p k).safe = true := by
  simp [State.faultOn, State.fault_safe k h]

/-- A sluice that goes to a state in which it passes nothing is cut, whatever fault state holds. -/
theorem State.slcTo_cut_safe {f : Slc → Slc} (h : s.safe = true) (hf : (f (s.port p).slc).passing = false) : (s.slcTo p f).safe = true :=
  (s.onPort_cutsKept p (f := fun x => { x with slc := f x.slc }) fun _ => PortState.cutHolds_of_not_passing hf).safe h

/-- A port that passes current is in no fault state, so its sluice may go anywhere. -/
theorem State.slcTo_safe_of_passing (f : Slc → Slc) (h : s.safe = true) (hp : (s.port p).slc.passing = true) :
    (s.slcTo p f).safe = true := by
  refine (s.onPort_cutsKept p (f := fun x => { x with slc := f x.slc }) fun hx => ?_).safe h
  have ha : (s.port p).cnt.any = false := by simpa [PortState.cutHolds, hp] using hx
  simp [cutOk, ha]

/-- A ramp begins only where no fault state holds (R196). -/
@[simp] theorem State.tryRamp_safe (h : s.safe = true) : (s.tryRamp p).safe = true := by
  cases hm : s.mayRamp p with
  | false => rwa [State.tryRamp_of_not hm]
  | true =>
    obtain ⟨⟨ho, -⟩, ⟨c, w, e, -⟩, -⟩ := State.tryRamp_of hm
    have ha : (s.port p).cnt.any = false := by simp_all [State.mayRamp]
    refine State.safe_of_forall fun q => ?_
    by_cases hq : q = p
    · simp [hq, e, ha, cutOk]
    · rw [ho q hq]
      exact s.safe_iff.1 h q

@[simp] theorem State.trip_safe (n : Nat) (h : s.safe = true) : (s.trip p n).safe = true := by
  unfold State.trip
  extract_lets a
  have ha : a.safe = true := State.slcTo_cut_safe (by simpa [PortState.keepWas] using h) rfl
  simpa using ha

@[simp] theorem State.limpOff_safe (h : s.safe = true) : (s.limpOff p).safe = true := by
  have hs : (s.slcTo p fun c => { c with st := .fault }).safe = true := State.slcTo_cut_safe h rfl
  simpa [State.limpOff]

@[simp] theorem State.slcOff_safe (h : s.safe = true) : (s.slcOff p).safe = true := (s.slcOff_cutsKept p).safe h
@[simp] theorem State.stageCut_safe (h : s.safe = true) : (s.stageCut p).safe = true := (s.stageCut_cutsKept p).safe h
@[simp] theorem State.resetGo_safe (h : s.safe = true) : (s.resetGo p).safe = true := (s.resetGo_cutsKept p).safe h
@[simp] theorem State.resetRun_safe (h : s.safe = true) : (s.resetRun p).safe = true := (s.resetRun_cutsKept p).safe h

/-- A fold of an operation that keeps a state safe keeps it safe. -/
theorem foldl_keepsSafe {α : Type} {f : State → α → State} (hf : ∀ s a, s.safe = true → (f s a).safe = true) (l : List α)
    (h : s.safe = true) : (l.foldl f s).safe = true := by
  induction l generalizing s with
  | nil => exact h
  | cons a l ih => exact ih (hf s a h)

/-! ## Pumps -/

@[simp] theorem State.limpEntry_safe (n : Nat) (h : s.safe = true) : (s.limpEntry p n).safe = true := by simp [State.limpEntry, h]

@[simp] theorem State.overrun_safe (h : s.safe = true) : (s.overrun p).safe = true := by simp [State.overrun, h]

@[simp] theorem State.pyTrap_safe (n : Pump) (r : PumpRun) (c a : Nat) (h : s.safe = true) : (s.pyTrap n r c a).safe = true := by
  simp [State.pyTrap, h]

@[simp] theorem State.pyRun_safe (n : Pump) (o : PyOp) (f : PyMeaning) (h : s.safe = true) : (s.pyRun n o f).safe = true := by
  unfold State.pyRun
  (repeat' split) <;> simp [h]

@[simp] theorem State.romEnd_safe (n : Pump) (r : PumpRun) (h : s.safe = true) : (s.romEnd n r).safe = true := by
  simp [State.romEnd, h]

/-! ## Resets -/

theorem PortState.discharging_reset_cutHolds (x : PortState) (n : Nat) : ((PortState.reset p).discharging x n).cutHolds = true := rfl

@[simp] theorem State.deviceReset_safe (s : State) (n : Nat) : (s.deviceReset n).safe = true :=
  State.safe_of_forall fun q => by simp [State.deviceReset, State.port, PortState.discharging_reset_cutHolds]

@[simp] theorem State.stopPhase_safe (c : StopCause) (h : s.safe = true) : (s.stopPhase c).safe = true := by
  unfold State.stopPhase
  split
  · exact h
  · rw [State.askTally_safe]
    exact foldl_keepsSafe (fun _ _ => State.slcOff_safe) _ (by simpa using h)

@[simp] theorem State.portReset_safe (h : s.safe = true) : (s.portReset p).safe = true := by
  simp [State.portReset, h, PortState.awaitReset]

/-! ## Words at their registers -/

theorem State.locked_keepsSafe (b : Bool) {f : State → State} (h : s.safe = true) (hf : s.safe = true → (f s).safe = true) :
    (s.locked b f).safe = true := by
  simp [State.locked, h, hf]

@[simp] theorem State.wrDevRst_safe (w : Word) (h : s.safe = true) : (s.wrDevRst w).safe = true := by
  unfold State.wrDevRst
  exact State.locked_keepsSafe _ h fun h => by simp [h]

@[simp] theorem State.wrAlmCtl_safe (w : Word) (h : s.safe = true) : (s.wrAlmCtl w).safe = true := by
  unfold State.wrAlmCtl
  exact State.locked_keepsSafe _ (by simp [h]) fun h => by simp_all

@[simp] theorem State.wrCntRst_safe (w : Word) (h : s.safe = true) : (s.wrCntRst p w).safe = true := by
  unfold State.wrCntRst
  exact State.locked_keepsSafe _ h fun h => by simp [h]

@[simp] theorem State.globalCtl_safe (i : Nat) (w : Word) (h : s.safe = true) : (s.globalCtl i w).safe = true := by
  unfold State.globalCtl
  split <;> simp [h]

@[simp] theorem State.portCtl_safe (o : Nat) (w : Word) (h : s.safe = true) : (s.portCtl p o w).safe = true := by
  unfold State.portCtl
  split <;> simp [h]

@[simp] theorem State.regWrite_safe (i : Nat) (w : Word) (h : s.safe = true) : (s.regWrite i w).safe = true := by
  unfold State.regWrite State.control
  split <;> [skip; split <;> [skip; split]] <;> simp [h]

@[simp] theorem State.drain_safe (h : s.safe = true) : s.drain.safe = true := by
  unfold State.drain
  split
  · exact foldl_keepsSafe (fun _ _ => State.regWrite_safe _ _) _ (by simpa using h)
  · exact h

@[simp] theorem State.twmServe_safe (c : TwmOp) (h : s.safe = true) : (s.twmServe c).safe = true := by
  cases c <;> simp [State.twmServe, h]

@[simp] theorem State.twmRelease_safe (h : s.safe = true) : s.twmRelease.safe = true :=
  foldl_keepsSafe (fun _ _ => State.twmServe_safe _) _ (by simpa using h)

end Sys2Proof.Machine
end

section
/-! SUPPORT. The ways in which a command runs keep a safe state safe: a step of a hand, a frame of the commons link,
a word at its register. -/

namespace Sys2Proof.Machine

variable {s : State}

/-- A next state is safe, if there is one. -/
inductive SafeNext : Res State → Prop where
  | next {t : State} (h : t.safe = true) : SafeNext (.next t)
  | fault (r : Fault) : SafeNext (.fault r)

@[simp] theorem safeNext_next_iff {t : State} : SafeNext (.next t) ↔ t.safe = true := ⟨fun h => by cases h; assumption, .next⟩

@[simp] theorem safeNext_ite_iff {c : Prop} [Decidable c] {a b : Res State} :
    SafeNext (if c then a else b) ↔ (c → SafeNext a) ∧ (¬ c → SafeNext b) := by
  split <;> simp_all

@[simp] theorem hostWrite_safe (h : s.safe = true) (i : Nat) (w : Word) {f : State → State}
    (hf : ∀ u, u.safe = true → (f u).safe = true) :
    SafeNext (s.hostWrite i w f) := by
  rw [State.hostWrite_spec]
  refine .next ?_
  split
  · exact hf _ (by simpa using h)
  · exact h

@[simp] theorem handStep_safe (h : s.safe = true) (k : Hand) (o : Option Port) (e : EvCode → Bool) {f : EvCode → State → State}
    (hf : ∀ c u, u.safe = true → (f c u).safe = true) : SafeNext (s.handStep k o e f) := by
  obtain he | ⟨c, u, -, hu, he⟩ := s.handStep_spec k o e f <;> rw [he]
  · exact .next h
  · exact .next (by simpa using hf c u (by rw [State.take_safe s hu, h]))

@[simp] theorem timersStep_safe (h : s.safe = true) (k : Hand) (p : Port) (e : TimerId → Bool) {f : TimerId → State → State}
    (hf : ∀ i u, u.safe = true → (f i u).safe = true) : SafeNext (s.timersStep k p e f) := by
  refine handStep_safe h k _ _ fun c u hu => ?_
  split
  · split
    · exact hf _ _ (by simpa using hu)
    · exact hu
  · exact hu

@[simp] theorem timerStep_safe (h : s.safe = true) (k : Hand) (p : Port) (i : TimerId) {f : State → State}
    (hf : ∀ u, u.safe = true → (f u).safe = true) : SafeNext (s.timerStep k p i f) :=
  timersStep_safe h k p _ fun _ => hf

@[simp] theorem onTimer_safe (h : s.safe = true) (k : Hand) (p : Port) (i : TimerId) {f : State → State}
    (hf : ∀ u, u.safe = true → (f u).safe = true) : SafeNext (s.onTimer k p i f) :=
  timerStep_safe h k p i fun u hu => by split <;> simp_all

@[simp] theorem onMsg_safe (h : s.safe = true) (k : Hand) (p : Port) (r : MsgRow) {f : RxMsg → State → State}
    (hf : ∀ m u, u.safe = true → (f m u).safe = true) : SafeNext (s.onMsg k p r f) := by
  unfold State.onMsg
  split
  · exact .next h
  · split
    · exact .next h
    next m u hu =>
      have hu : u.safe = true := by rw [State.takeMsg_safe s p hu, h]
      have hm := hf m ((if m.isOther then u.vdmInterrupt p else u).disarm p .receiverResponse) (by simp [hu])
      exact .next (by simp [hu, hm])

@[simp] theorem onAck_safe (h : s.safe = true) (k : Hand) (p : Port) (r : MsgRow) (st : VdmState) {f : Vdm → State → State}
    (hf : ∀ v u, u.safe = true → (f v u).safe = true) : SafeNext (s.onAck k p r st f) := by
  refine onMsg_safe h k p r fun m u hu => ?_
  split
  · simp [hu, hf]
  · exact hu

@[simp] theorem onFrame_safe (h : s.safe = true) (d : LinkSide) (k : LinkHdr) {f : State → State}
    (hf : ∀ u, u.safe = true → (f u).safe = true) : SafeNext (s.onFrame d k f) := by
  unfold State.onFrame
  extract_lets e l u
  have hu : u.safe = true := by simp [u, h]
  split
  · exact .next h
  · split
    · exact .next (by simp [hu])
    · exact .next (by simp [hu, hf])

@[simp] theorem onLoanFrame_safe (h : s.safe = true) (d : LinkSide) (k : LinkHdr) {f : State → State}
    (hf : ∀ u, u.safe = true → (f u).safe = true) : SafeNext (s.onLoanFrame d k f) := by
  unfold State.onLoanFrame
  extract_lets l
  split
  · exact .next h
  · split
    · exact .next (by simp [h])
    · exact onFrame_safe h d k fun u hu => by split <;> simp_all

@[simp] theorem onAuditFrame_safe (h : s.safe = true) (d : LinkSide) (k : LinkHdr) {f : State → State}
    (hf : ∀ u, u.safe = true → (f u).safe = true) : SafeNext (s.onAuditFrame d k f) := by
  unfold State.onAuditFrame
  split
  · exact .next h
  · exact onFrame_safe h d k hf

end Sys2Proof.Machine
end

section
/-! SUPPORT. Every command keeps a safe state safe, one theorem for each. -/

namespace Sys2Proof.Machine

variable {s : State} (p : Port) (k : Hand)

/-! ## What some of them do to a port -/

@[simp] theorem PortState.denFall_cutHolds (x : PortState) : x.denFall.cutHolds = x.cutHolds := by simp [PortState.denFall]

@[simp] theorem PortState.latch_cutHolds (x : PortState) (m : LoopMeas) (g : Stg) : (x.latch m g).cutHolds = x.cutHolds := by
  simp only [PortState.latch, PortState.cutHolds_mk, PortState.cutOk_self, PortState.seeLow_cutHolds]

@[simp] theorem PortState.period_cutHolds (x : PortState) (T b : Nat) : (x.period T b).cutHolds = x.cutHolds := by
  unfold PortState.period
  dsimp only
  (repeat' split) <;> simp

@[simp] theorem PortState.start_cutHolds (x : PortState) (a b c : Nat) (d e : Bool) (n : Nat) :
    (PortState.start a b c d e n x).cutHolds = x.cutHolds := by simp [PortState.start]

@[simp] theorem PortState.stop_cutHolds (x : PortState) : (PortState.stop x).cutHolds = x.cutHolds := by simp [PortState.stop]

@[simp] theorem PortState.dowserGo_cutHolds (x : PortState) : x.dowserGo.cutHolds = x.cutHolds := by simp [PortState.dowserGo]

theorem PortState.dieLost_cutHolds (n : Nat) (x : PortState) : (PortState.dieLost n x).cutHolds = true := by
  cases h : x.cnt.any <;> simp [PortState.dieLost, h, cutOk, SlcState.passing]

@[simp] theorem Slc.undoAt_st (c w : Slc) (i : Fin 8) : (c.undoAt w i).st = c.st := by simp only [Slc.undoAt]

variable (h : s.safe = true)
include h

/-! ## The almanac (R63 to R88) -/

@[simp] theorem execAlmanacReadDone_safe (sfdp : Option Sfdp) (imgA imgB : List Byte) :
    SafeNext (execAlmanacReadDone sfdp imgA imgB s) := by
  simp [execAlmanacReadDone, h]

/-! ## The connection machine (R89 to R103) -/

@[simp] theorem execCcTerminationSeen_safe (cc1 cc2 : Nat) : SafeNext (execCcTerminationSeen p cc1 cc2 s) := by
  simp [execCcTerminationSeen, h]

@[simp] theorem execTccdebounceExpiry_safe (vbc : Nat) : SafeNext (execTccdebounceExpiry p vbc s) := by
  unfold execTccdebounceExpiry
  dsimp only
  (repeat' split) <;> simp [h]

@[simp] theorem execSinkVbusDetect_safe (vbc : Nat) : SafeNext (execSinkVbusDetect p vbc s) := by simp [execSinkVbusDetect, h]
@[simp] theorem execBackvRelease_safe (vbc : Nat) : SafeNext (execBackvRelease p vbc s) := by simp [execBackvRelease, h]
@[simp] theorem execTpddebounceExpiry_safe : SafeNext (execTpddebounceExpiry p s) := by
  unfold execTpddebounceExpiry
  (repeat' split) <;> simp [h]

@[simp] theorem execTsrcdisconnectExpiry_safe : SafeNext (execTsrcdisconnectExpiry p s) := by simp [execTsrcdisconnectExpiry, h]
@[simp] theorem execSinkVbusLost_safe : SafeNext (execSinkVbusLost p s) := by simp [execSinkVbusLost, h]
@[simp] theorem execDrpToggle_safe : SafeNext (execDrpToggle p s) := by
  unfold execDrpToggle
  dsimp only
  (repeat' split) <;> simp [h]

@[simp] theorem execErrRecovEnd_safe : SafeNext (execErrRecovEnd p s) := by simp [execErrRecovEnd, h]
@[simp] theorem execSelftestResult_safe (pass : Bool) : SafeNext (execSelftestResult p pass s) := by simp [execSelftestResult, h]
@[simp] theorem execVconnOvercurrent_safe : SafeNext (execVconnOvercurrent p s) := by simp [execVconnOvercurrent, h]
@[simp] theorem execVconnInLow_safe (d : WDie) : SafeNext (execVconnInLow d s) := by
  unfold execVconnInLow
  split <;> simp [h]

@[simp] theorem execVconnInRecover_safe (d : WDie) : SafeNext (execVconnInRecover d s) := by
  unfold execVconnInRecover
  split <;> simp [h]

/-! ## The protocol layer (R105 to R111) -/

@[simp] theorem execPreambleDetected_safe (amp kbps : Nat) : SafeNext (execPreambleDetected p amp kbps s) := by
  simp [execPreambleDetected, h]

@[simp] theorem execCapture_safe (amp : Nat) : SafeNext (execCapture p amp s) := by
  unfold execCapture
  split <;> simp [h]

@[simp] theorem execHardResetOrderedSet_safe : SafeNext (execHardResetOrderedSet p s) := by simp [execHardResetOrderedSet, h]
@[simp] theorem execPacketReceive_safe (k : Packet) : SafeNext (execPacketReceive p k s) := by
  unfold execPacketReceive
  dsimp only
  (repeat' split) <;> simp [h, State.packetEnd]

@[simp] theorem execTransmitStart_safe : SafeNext (execTransmitStart p s) := by
  unfold execTransmitStart
  dsimp only
  (repeat' split) <;> simp [h]

@[simp] theorem execTransmitEnd_safe : SafeNext (execTransmitEnd p s) := by simp [execTransmitEnd, h]
@[simp] theorem execTreceiveExpiry_safe : SafeNext (execTreceiveExpiry p s) := by
  unfold execTreceiveExpiry
  dsimp only
  (repeat' split) <;> simp [h]

/-! ## Messages (R137 to R175) -/

@[simp] theorem execRequest_safe : SafeNext (execRequest k p s) := onMsg_safe h _ _ _ fun m u hu => by split <;> simp [hu]
@[simp] theorem execEprRequest_safe : SafeNext (execEprRequest k p s) := onMsg_safe h _ _ _ fun m u hu => by split <;> simp [hu]
@[simp] theorem execSoftReset_safe : SafeNext (execSoftReset k p s) := by simp [execSoftReset, h]
@[simp] theorem execHardResetReceived_safe : SafeNext (execHardResetReceived k p s) := by simp [execHardResetReceived, h]
@[simp] theorem execAccept_safe : SafeNext (execAccept k p s) := by simp [execAccept, h]
@[simp] theorem execReject_safe : SafeNext (execReject k p s) := by simp [execReject, h]
@[simp] theorem execWait_safe : SafeNext (execWait k p s) := by simp [execWait, h]
@[simp] theorem execPsRdy_safe : SafeNext (execPsRdy k p s) :=
  onMsg_safe h _ _ _ fun m u hu => by dsimp only; (repeat' split) <;> simp [hu, State.dropVconn, State.sinkContract]

@[simp] theorem execNotSupportedReceived_safe : SafeNext (execNotSupportedReceived k p s) := by simp [execNotSupportedReceived, h]
@[simp] theorem execSourceCapabilities_safe : SafeNext (execSourceCapabilities k p s) :=
  onMsg_safe h _ _ _ fun m u hu => by split <;> simp [hu]

@[simp] theorem execEprSourceCapabilities_safe : SafeNext (execEprSourceCapabilities k p s) :=
  onMsg_safe h _ _ _ fun m u hu => by split <;> simp [hu]

@[simp] theorem execGetSourceCap_safe : SafeNext (execGetSourceCap k p s) := by simp [execGetSourceCap, h]
@[simp] theorem execGetSinkCap_safe : SafeNext (execGetSinkCap k p s) := by simp [execGetSinkCap, h]
@[simp] theorem execGetPpsStatus_safe : SafeNext (execGetPpsStatus k p s) := by simp [execGetPpsStatus, h]
@[simp] theorem execGetStatus_safe : SafeNext (execGetStatus k p s) := by simp [execGetStatus, h]
@[simp] theorem execGetRevision_safe : SafeNext (execGetRevision k p s) := by simp [execGetRevision, h]
@[simp] theorem execEprModeEnter_safe : SafeNext (execEprModeEnter k p s) := by simp [execEprModeEnter, h]
@[simp] theorem execEprModeExit_safe : SafeNext (execEprModeExit k p s) :=
  onMsg_safe h _ _ _ fun m u hu => by dsimp only; (repeat' split) <;> simp [hu]

@[simp] theorem execEprModeResponse_safe : SafeNext (execEprModeResponse k p s) :=
  onMsg_safe h _ _ _ fun m u hu => by dsimp only; (repeat' split) <;> simp [hu]

@[simp] theorem execEprKeepalive_safe : SafeNext (execEprKeepalive k p s) := by simp [execEprKeepalive, h]
@[simp] theorem execVconnSwap_safe : SafeNext (execVconnSwap k p s) := by simp [execVconnSwap, h]
@[simp] theorem execPrSwap_safe : SafeNext (execPrSwap k p s) := by simp [execPrSwap, h]
@[simp] theorem execDrSwap_safe : SafeNext (execDrSwap k p s) := by simp [execDrSwap, h]
@[simp] theorem execFrSwap_safe : SafeNext (execFrSwap k p s) := by simp [execFrSwap, h]
@[simp] theorem execDataReset_safe : SafeNext (execDataReset k p s) := by simp [execDataReset, h]
@[simp] theorem execUnsupportedMessage_safe : SafeNext (execUnsupportedMessage k p s) := by simp [execUnsupportedMessage, h]

@[simp] theorem execTxGoodcrc_safe : SafeNext (execTxGoodcrc k p s) :=
  handStep_safe h _ _ _ fun c u hu => by split <;> simp [hu]

@[simp] theorem execTxfail_safe : SafeNext (execTxfail k p s) :=
  handStep_safe h _ _ _ fun c u hu => by split <;> simp [hu]

/-! ## The guard (R113 to R128) -/

@[simp] theorem execDowserFrame_safe (r : DowserReading) : SafeNext (execDowserFrame p r s) := by
  unfold execDowserFrame
  split <;> simp [h, State.judgeWet, State.setWet, State.setFlood, State.judgeCorr]

@[simp] theorem execNtcMeasure_safe (ohm : Nat) : SafeNext (execNtcMeasure p ohm s) := by simp [execNtcMeasure, h]
@[simp] theorem execDieTempReport_safe (d : Die) (sensor : Fin 8) (temp : Int) : SafeNext (execDieTempReport d sensor temp s) := by
  simp [execDieTempReport, h]

@[simp] theorem execThermalEvaluation_safe : SafeNext (execThermalEvaluation p s) := by simp [execThermalEvaluation, h]
@[simp] theorem execCutClear_safe (c : CutId) : SafeNext (execCutClear c s) := by
  unfold execCutClear
  split <;> simp [h]

@[simp] theorem execGuardNotice_safe : SafeNext (execGuardNotice k p s) := by simp [execGuardNotice, h, State.alertTemp]

/-! ## Metering, calibration and tallies (R304 to R330) -/

@[simp] theorem execMeteringSample_safe (m : List MetSample) : SafeNext (execMeteringSample m s) := by simp [execMeteringSample, h]
@[simp] theorem execBillingClear_safe (w : Word) : SafeNext (execBillingClear w s) := by simp [execBillingClear, h]
@[simp] theorem execMetStatRead_safe (t : Target) : SafeNext (execMetStatRead t p s) := by simp [execMetStatRead, h]
@[simp] theorem execCalSlotStart_safe (g : Group) : SafeNext (execCalSlotStart g s) := by simp [execCalSlotStart, h]
@[simp] theorem execReliefSwitchIn_safe (g : Group) : SafeNext (execReliefSwitchIn g s) := by simp [execReliefSwitchIn, h]
@[simp] theorem execCalResult_safe (g : Group) (offset gain : Int) : SafeNext (execCalResult g offset gain s) := by simp [execCalResult, h]
@[simp] theorem execReliefSwitchBack_safe (g : Group) : SafeNext (execReliefSwitchBack g s) := by simp [execReliefSwitchBack, h]
@[simp] theorem execReliefCalibration_safe (g : Group) (pass : Bool) : SafeNext (execReliefCalibration g pass s) := by
  simp [execReliefCalibration, h]

@[simp] theorem execCalstale_safe (m : Modulator) : SafeNext (execCalstale p m s) := by simp [execCalstale, h]
@[simp] theorem execPrefMeasure_safe (d : WDie) (uv : Nat) : SafeNext (execPrefMeasure d uv s) := by simp [execPrefMeasure, h]
@[simp] theorem execHoldSnsSample_safe (mv : Nat) : SafeNext (execHoldSnsSample mv s) := by simp [execHoldSnsSample, h]
@[simp] theorem execTallyRecordStart_safe : SafeNext (execTallyRecordStart s) := by
  unfold execTallyRecordStart
  split <;> simp [h]

@[simp] theorem execHoldupRecheck_safe : SafeNext (execHoldupRecheck s) := by
  unfold execHoldupRecheck
  split <;> simp [h]

@[simp] theorem execTallyInterval_safe : SafeNext (execTallyInterval s) := by simp [execTallyInterval, h]
@[simp] theorem execPageProgramDone_safe : SafeNext (execPageProgramDone s) := by
  unfold execPageProgramDone
  split <;> simp [h]

@[simp] theorem execTallyReadback_safe (ok : Bool) : SafeNext (execTallyReadback ok s) := by
  unfold execTallyReadback
  split <;> simp [h, State.slotDone]

@[simp] theorem execBlockEraseDone_safe : SafeNext (execBlockEraseDone s) := by
  unfold execBlockEraseDone
  split <;> simp [h]

/-! ## The ledger and the commons link (R331 to R361) -/

@[simp] theorem execProfileChange_safe : SafeNext (execProfileChange s) := by
  unfold execProfileChange
  split <;> simp [h]

@[simp] theorem execCisStatRead_safe (t : Target) : SafeNext (execCisStatRead t s) := by simp [execCisStatRead, h]
@[simp] theorem execLoanRequestTimeout_safe (d : LinkSide) : SafeNext (execLoanRequestTimeout d s) := by simp [execLoanRequestTimeout, h]
@[simp] theorem execBorrowerLeaseEnd_safe (i : Fin 32) : SafeNext (execBorrowerLeaseEnd i s) := by simp [execBorrowerLeaseEnd, h]
@[simp] theorem execLenderLeaseEnd_safe (i : Fin 32) : SafeNext (execLenderLeaseEnd i s) := by simp [execLenderLeaseEnd, h]
@[simp] theorem execRenewDue_safe (i : Fin 32) : SafeNext (execRenewDue i s) := by simp [execRenewDue, h]
@[simp] theorem execRenewMissing_safe (i : Fin 32) : SafeNext (execRenewMissing i s) := by simp [execRenewMissing, h]
@[simp] theorem execShedLead_safe (i : Fin 32) : SafeNext (execShedLead i s) := by simp [execShedLead, h]
@[simp] theorem execAuditStart_safe : SafeNext (execAuditStart s) := by simp [execAuditStart, h]
@[simp] theorem execAuditTokenLost_safe : SafeNext (execAuditTokenLost s) := by simp [execAuditTokenLost, h]

@[simp] theorem execHello_safe (d : LinkSide) (n : LinkHdr) (f : Hello) : SafeNext (execHello d n f s) := by
  unfold execHello
  dsimp only
  (repeat' split) <;> simp [h]

@[simp] theorem execAck_safe (d : LinkSide) (seq : BitVec 4) : SafeNext (execAck d seq s) := by
  unfold execAck
  dsimp only
  (repeat' split) <;> simp [h]

@[simp] theorem execLinkAckTimeout_safe (d : LinkSide) : SafeNext (execLinkAckTimeout d s) := by
  unfold execLinkAckTimeout
  dsimp only
  (repeat' split) <;> simp [h]

@[simp] theorem execWakeBurstEnd_safe (d : LinkSide) : SafeNext (execWakeBurstEnd d s) := by simp [execWakeBurstEnd, h]
@[simp] theorem execLinkFrameDropped_safe (d : LinkSide) (why : FrameDrop) : SafeNext (execLinkFrameDropped d why s) := by
  simp [execLinkFrameDropped, h]

@[simp] theorem execEnum_safe (d : LinkSide) (k : LinkHdr) (nextId : BitVec 16) (waveUid : BitVec 48) (chain : Bool) :
    SafeNext (execEnum d k nextId waveUid chain s) := by
  simp [execEnum, h, State.takeEnum, State.ringEnds]

@[simp] theorem execEnumDone_safe (d : LinkSide) (k : LinkHdr) (nodes : BitVec 16) (closing : Bool) :
    SafeNext (execEnumDone d k nodes closing s) := by
  simp [execEnumDone, h, State.takeEnumDone]

@[simp] theorem execCandidateWaveStart_safe : SafeNext (execCandidateWaveStart s) := by simp [execCandidateWaveStart, h]
@[simp] theorem execAudit_safe (d : LinkSide) (k : LinkHdr) (t : AuditTok) : SafeNext (execAudit d k t s) := by
  simp [execAudit, h, State.takeAudit, State.auditBack]

@[simp] theorem execAuditRes_safe (d : LinkSide) (k : LinkHdr) (auditNo : BitVec 16) (result : BitVec 3) (nodes : BitVec 16) :
    SafeNext (execAuditRes d k auditNo result nodes s) := by
  simp [execAuditRes, h]

@[simp] theorem execSleep_safe (d : LinkSide) (k : LinkHdr) (wakeMs : Nat) : SafeNext (execSleep d k wakeMs s) := by simp [execSleep, h]
@[simp] theorem execReq_safe (d : LinkSide) (k : LinkHdr) (reqId : BitVec 16) (amount hops : Nat) :
    SafeNext (execReq d k reqId amount hops s) := by
  simp [execReq, h]

@[simp] theorem execGrant_safe (d : LinkSide) (k : LinkHdr) (reqId xid loanId : BitVec 16) (amount leaseMs : Nat) :
    SafeNext (execGrant d k reqId xid loanId amount leaseMs s) := by
  simp [execGrant, h]

@[simp] theorem execRefuse_safe (d : LinkSide) (k : LinkHdr) (reqId : BitVec 16) : SafeNext (execRefuse d k reqId s) :=
  onLoanFrame_safe h _ _ fun u hu => by split <;> simp [hu]

@[simp] theorem execRenew_safe (d : LinkSide) (k : LinkHdr) (loanId : BitVec 16) (amount leaseMs : Nat) :
    SafeNext (execRenew d k loanId amount leaseMs s) := by
  simp [execRenew, h]

@[simp] theorem execRenewAck_safe (d : LinkSide) (k : LinkHdr) (loanId : BitVec 16) (kept : Nat) :
    SafeNext (execRenewAck d k loanId kept s) := by
  simp [execRenewAck, h]

@[simp] theorem execLapse_safe (d : LinkSide) (k : LinkHdr) (xid loanId : BitVec 16) (amount : Nat) :
    SafeNext (execLapse d k xid loanId amount s) := by
  simp [execLapse, h]

@[simp] theorem execHelloTimer_safe (d : LinkSide) : SafeNext (execHelloTimer d s) := by simp [execHelloTimer, h]
@[simp] theorem execLinkPartnerLost_safe (d : LinkSide) : SafeNext (execLinkPartnerLost d s) := by simp [execLinkPartnerLost, h]
@[simp] theorem execLinkReset_safe (d : LinkSide) : SafeNext (execLinkReset d s) := by simp [execLinkReset, h]
@[simp] theorem execAuditSlotGuardEnd_safe (d : LinkSide) : SafeNext (execAuditSlotGuardEnd d s) := by
  unfold execAuditSlotGuardEnd
  split <;> simp [h]

/-! ## The sluice (R195 to R221) -/

@[simp] theorem execSluiceOn_safe : SafeNext (execSluiceOn p s) := by
  unfold execSluiceOn
  split <;> simp [h]

@[simp] theorem execSluiceOff_safe : SafeNext (execSluiceOff p s) := by
  unfold execSluiceOff
  split <;> simp [h]

@[simp] theorem execIlimActChange_safe : SafeNext (execIlimActChange p s) := by
  unfold execIlimActChange
  split <;> simp [h]

@[simp] theorem execPrechargeEnd_safe : SafeNext (execPrechargeEnd p s) := by simp [execPrechargeEnd, h]
@[simp] theorem execSlopeEnd_safe : SafeNext (execSlopeEnd p s) := by simp [execSlopeEnd, h]

@[simp] theorem execRampOn_safe (d : Nat) : SafeNext (execRampOn p d s) := by
  unfold execRampOn
  extract_lets c
  split
  next hc =>
    have hp : (s.port p).slc.passing = true := by simp_all [c, Slc.passing, SlcState.passing]
    simp [State.slcTo_safe_of_passing _ h hp]
  next => exact .next h

@[simp] theorem execGateRiseCheckFail_safe : SafeNext (execGateRiseCheckFail p s) := by simp [execGateRiseCheckFail, h]

@[simp] theorem execLimitEntry_safe (n : Nat) : SafeNext (execLimitEntry p n s) := by
  unfold execLimitEntry
  extract_lets c
  split
  next hc =>
    have hp : (s.port p).slc.passing = true := by
      simp only [c, Bool.or_eq_true, decide_eq_true_eq] at hc
      rcases hc with hc | hc <;> simp [Slc.passing, SlcState.passing, hc]
    simp [State.slcTo_safe_of_passing _ h hp]
  next => exact .next h

@[simp] theorem execLimitExit_safe (n : Nat) : SafeNext (execLimitExit p n s) := by
  unfold execLimitExit
  extract_lets c
  split
  next hc =>
    have hp : (s.port p).slc.passing = true := by simp_all [c, Slc.passing, SlcState.passing]
    exact .next (State.slcTo_safe_of_passing _ h hp)
  next => exact .next h

@[simp] theorem execFaultTimerTrip_safe (limUs : Nat) : SafeNext (execFaultTimerTrip p limUs s) := by simp [execFaultTimerTrip, h]

@[simp] theorem execFastTrip_safe : SafeNext (execFastTrip p s) := by
  unfold execFastTrip
  extract_lets c
  split <;> [skip; split]
  · simp [h]
  · rw [safeNext_next_iff, State.slcCnt_safe, State.slcEvt_safe, State.onPort_safe _ _ fun x => ?_]
    · exact h
    · dsimp only; split <;> simp
  · exact .next h

@[simp] theorem execReverseCurrentTrip_safe : SafeNext (execReverseCurrentTrip p s) := by simp [execReverseCurrentTrip, h]
@[simp] theorem execRampTimeout_safe : SafeNext (execRampTimeout p s) := by simp [execRampTimeout, h]

@[simp] theorem execTripDischarged_safe (d n : Nat) : SafeNext (execTripDischarged p d n s) := by
  unfold execTripDischarged
  split <;> [(extract_lets u; split); skip]
  · simp [u, h]
  · refine .next (State.slcTo_cut_safe (by simp [u, h]) ?_)
    dsimp only [Slc.passing]
    split <;> rfl
  · exact .next h

@[simp] theorem execRetryOffTimeEnd_safe : SafeNext (execRetryOffTimeEnd p s) := by
  unfold execRetryOffTimeEnd
  extract_lets c
  split <;> [split; skip]
  · exact .next (State.tryRamp_safe (State.slcTo_cut_safe h rfl))
  · simp [h]
  · exact .next h

@[simp] theorem execRetryCountReset_safe : SafeNext (execRetryCountReset p s) := by simp [execRetryCountReset, h]

@[simp] theorem execDischargeDone_safe (d : Nat) : SafeNext (execDischargeDone p d s) := by
  unfold execDischargeDone
  split <;> [(extract_lets u; split); split]
  · simp [u, h]
  · exact .next (State.tryRamp_safe (State.slcTo_cut_safe (by simp [u, h]) rfl))
  · simp [h]
  · exact .next h

@[simp] theorem execDscf_safe : SafeNext (execDscf p s) := by simp [execDscf, h]
@[simp] theorem execFets_safe : SafeNext (execFets p s) := by simp [execFets, h]

theorem vauxCut_safe : (s.vauxCut p).safe = true := by
  unfold State.vauxCut
  extract_lets u v
  have hv : v.safe = true := State.stageCut_safe (by simp [u, h])
  split
  · simp [State.slcTo_cut_safe (f := Slc.discharge v.dev.aon) hv rfl]
  · exact hv

@[simp] theorem execVauxLow_safe : SafeNext (execVauxLow s) :=
  .next (foldl_keepsSafe (fun _ p hs => vauxCut_safe p hs) _ (by simpa using h))

@[simp] theorem execVauxRecover_safe : SafeNext (execVauxRecover s) :=
  .next (foldl_keepsSafe (fun s p hs => by dsimp only; split <;> simp [hs]) _ (by simpa using h))

/-! ## The stage (R223 to R242) -/

@[simp] theorem execStageStart_safe (a b : Nat) : SafeNext (execStageStart p a b s) := by
  unfold execStageStart
  split <;> simp [h]

@[simp] theorem execStageStop_safe : SafeNext (execStageStop p s) := by
  unfold execStageStop
  split <;> simp [h]

@[simp] theorem execTargetChange_safe : SafeNext (execTargetChange p s) := by
  unfold execTargetChange
  split <;> simp [h]

@[simp] theorem execStopTimeout_safe : SafeNext (execStopTimeout p s) := by simp [execStopTimeout, h]

@[simp] theorem execPeriodStart_safe (c : LoopConv) : SafeNext (execPeriodStart p c s) := by
  unfold execPeriodStart
  split
  · extract_lets m b q T g old u v w
    have hu : u.safe = true := by simp [u, h]
    have hv : v.safe = true := by simp [v, hu]
    simp [w, hv]
  · exact .next h

@[simp] theorem execRefTrim_safe : SafeNext (execRefTrim p s) := by simp [execRefTrim, h]
@[simp] theorem execFrameStart_safe : SafeNext (execFrameStart s) := by simp [execFrameStart, h]
@[simp] theorem execSyncEdge_safe (e : Int) : SafeNext (execSyncEdge e s) := by
  unfold execSyncEdge
  dsimp only
  (repeat' split) <;> simp [h]

@[simp] theorem execSyncWindowMiss_safe : SafeNext (execSyncWindowMiss s) := by simp [execSyncWindowMiss, h]

/-! ## Timers (R137, R138) -/

@[simp] theorem execVsafe5vInBand_safe (vbc : Nat) : SafeNext (execVsafe5vInBand p vbc s) := by simp [execVsafe5vInBand, h]
@[simp] theorem execSenderResponseTimerExpiry_safe : SafeNext (execSenderResponseTimerExpiry k p s) := by
  simp [execSenderResponseTimerExpiry, h]

@[simp] theorem execTtypecsendsourcecapExpiry_safe : SafeNext (execTtypecsendsourcecapExpiry k p s) := by
  simp [execTtypecsendsourcecapExpiry, h]

@[simp] theorem execTsrctransitionExpiry_safe : SafeNext (execTsrctransitionExpiry k p s) :=
  onTimer_safe h _ _ _ fun u hu => by split <;> simp [hu]

@[simp] theorem execTransitionLimitExpiry_safe : SafeNext (execTransitionLimitExpiry k p s) := by simp [execTransitionLimitExpiry, h]
@[simp] theorem execSettleReport_safe (mv : Nat) : SafeNext (execSettleReport p mv s) := by
  unfold execSettleReport
  dsimp only
  (repeat' split) <;> simp [h]

@[simp] theorem execWaitWindowExpiry_safe : SafeNext (execWaitWindowExpiry k p s) := by simp [execWaitWindowExpiry, h]
@[simp] theorem execRejectResendCaps_safe : SafeNext (execRejectResendCaps k p s) := by simp [execRejectResendCaps, h]
@[simp] theorem execSinkWaitCapTimerExpiry_safe : SafeNext (execSinkWaitCapTimerExpiry k p s) := by simp [execSinkWaitCapTimerExpiry, h]
@[simp] theorem execPsTransitionTimerExpiry_safe : SafeNext (execPsTransitionTimerExpiry k p s) := by simp [execPsTransitionTimerExpiry, h]
@[simp] theorem execTsinkrequestExpiry_safe : SafeNext (execTsinkrequestExpiry k p s) := by simp [execTsinkrequestExpiry, h]
@[simp] theorem execTpshardresetExpiry_safe : SafeNext (execTpshardresetExpiry k p s) := by simp [execTpshardresetExpiry, h]
@[simp] theorem execTsrcrecoverExpiry_safe : SafeNext (execTsrcrecoverExpiry k p s) := by simp [execTsrcrecoverExpiry, h]
@[simp] theorem execSinkHardResetRecoveryExpiry_safe : SafeNext (execSinkHardResetRecoveryExpiry k p s) := by
  simp [execSinkHardResetRecoveryExpiry, h]

@[simp] theorem execSinkHardResetVbusReturn_safe (vbc : Nat) : SafeNext (execSinkHardResetVbusReturn p vbc s) := by
  simp [execSinkHardResetVbusReturn, h]

@[simp] theorem execTppstimeoutExpiry_safe : SafeNext (execTppstimeoutExpiry k p s) :=
  onTimer_safe h _ _ _ fun u hu => by split <;> simp [hu]

@[simp] theorem execTsourceeprkeepaliveExpiry_safe : SafeNext (execTsourceeprkeepaliveExpiry k p s) := by
  simp [execTsourceeprkeepaliveExpiry, h]

@[simp] theorem execTsinkeprkeepaliveExpiry_safe : SafeNext (execTsinkeprkeepaliveExpiry k p s) := by simp [execTsinkeprkeepaliveExpiry, h]
@[simp] theorem execTvconnsourceonExpiry_safe : SafeNext (execTvconnsourceonExpiry k p s) := by simp [execTvconnsourceonExpiry, h]
@[simp] theorem execShedNotice_safe : SafeNext (execShedNotice k p s) := by simp [execShedNotice, h]
@[simp] theorem execShedLimitExpiry_safe : SafeNext (execShedLimitExpiry k p s) := by simp [execShedLimitExpiry, h]
@[simp] theorem execFreeRise_safe : SafeNext (execFreeRise p s) := by
  unfold execFreeRise
  dsimp only
  (repeat' split) <;> simp [h]

@[simp] theorem execReofferSpacingExpiry_safe : SafeNext (execReofferSpacingExpiry k p s) := by simp [execReofferSpacingExpiry, h]
@[simp] theorem execSluiceStateChange_safe : SafeNext (execSluiceStateChange k p s) := by simp [execSluiceStateChange, h]
@[simp] theorem execCrierAlert_safe : SafeNext (execCrierAlert k s) :=
  handStep_safe h _ _ _ fun e u hu => by split <;> simp [hu, State.alertInput]

@[simp] theorem execAlertWaitExpiry_safe : SafeNext (execAlertWaitExpiry k p s) := by simp [execAlertWaitExpiry, h]

/-! ## Loop slots and pumps (R245 to R262) -/

@[simp] theorem execSampleTrigger_safe : SafeNext (execSampleTrigger p s) := by simp [execSampleTrigger, h]
@[simp] theorem execStealThreshold_safe : SafeNext (execStealThreshold p s) := by simp [execStealThreshold, h]
@[simp] theorem execSampleDispatch_safe (n : Pump) (wait : Nat) (c : FreeCycle) : SafeNext (execSampleDispatch n wait c s) := by
  unfold execSampleDispatch
  (repeat' split) <;> simp [h]

@[simp] theorem execPresetDispatch_safe (n : Pump) (wait : Nat) (c : FreeCycle) : SafeNext (execPresetDispatch n wait c s) := by
  unfold execPresetDispatch
  (repeat' split) <;> simp [h, State.badCoef]

@[simp] theorem execCommitDeadline_safe : SafeNext (execCommitDeadline p s) := by simp [execCommitDeadline, h]
@[simp] theorem execTroughGrant_safe (reqs : List (Fin 26)) : SafeNext (execTroughGrant reqs s) := by
  unfold execTroughGrant
  dsimp only
  (repeat' split) <;> simp [h]

@[simp] theorem execLoopManual_safe : SafeNext (execLoopManual p s) := by simp [execLoopManual, h]
@[simp] theorem execLoopAuto_safe : SafeNext (execLoopAuto p s) := by simp [execLoopAuto, h]
@[simp] theorem execLoopMdutyWrite_safe (w : Word) : SafeNext (execLoopMdutyWrite p w s) := by simp [execLoopMdutyWrite, h]
@[simp] theorem execCoefWindowWrite_safe (i : Fin 256) (w : Word) : SafeNext (execCoefWindowWrite p i w s) := by
  simp [execCoefWindowWrite, h]

/-! ## The end of a sample and traps -/

@[simp] theorem execEndSample_safe (n : Pump) : SafeNext (execEndSample n s) := by
  unfold execEndSample
  (repeat' split) <;> simp [h]

@[simp] theorem execIllegalOpcode_safe (n : Pump) : SafeNext (execIllegalOpcode n s) := by
  unfold execIllegalOpcode
  (repeat' split) <;> simp [h]

@[simp] theorem execStageUnitCommit_safe (n : Pump) : SafeNext (execStageUnitCommit n s) := by
  unfold execStageUnitCommit
  (repeat' split) <;> simp [h]

@[simp] theorem execRunawayTrap_safe (n : Pump) : SafeNext (execRunawayTrap n s) := by
  unfold execRunawayTrap
  split <;> simp [h]

/-! ## Resets, start-up and rest (R29 to R63) -/

omit h in
@[simp] theorem execStandbyPor_safe : SafeNext (execStandbyPor s) :=
  .next (State.safe_of_forall fun q => by simp [State.port, PortState.discharging_reset_cutHolds])

omit h in
@[simp] theorem execSupplyBelowThreshold_safe (m : MainSupply) : SafeNext (execSupplyBelowThreshold m s) := .next (s.deviceReset_safe 1)

omit h in
@[simp] theorem execRstNLow_safe : SafeNext (execRstNLow s) := .next (s.deviceReset_safe 2)

@[simp] theorem execResetRelease_safe (a : BitVec 3) (b : Bool) : SafeNext (execResetRelease a b s) := by
  unfold execResetRelease
  split <;> [split; skip]
  · exact .fault _
  · simp [h]
  · simp [h]

@[simp] theorem execStartupOscillatorRunning_safe : SafeNext (execStartupOscillatorRunning s) := by simp [execStartupOscillatorRunning, h]
@[simp] theorem execD2dTrainingAttemptEnd_safe (d : WDie) (ok : Bool) (ucrev : Byte) :
    SafeNext (execD2dTrainingAttemptEnd d ok ucrev s) := by
  simp [execD2dTrainingAttemptEnd, h, State.linksDone]

@[simp] theorem execFlitCrcFail_safe (d : WDie) : SafeNext (execFlitCrcFail d s) := by simp [execFlitCrcFail, h]

@[simp] theorem execD2dLinkLost_safe (d : WDie) : SafeNext (execD2dLinkLost d s) := by
  unfold execD2dLinkLost
  extract_lets l u v
  split
  · have hu : u.safe = true := by cases d <;> simp [u, h]
    have hv : v.safe = true := by
      refine foldl_keepsSafe (fun s p hs => ?_) _ hu
      have hd : (((s.abortSamples p).yardClear p).onPort p (PortState.dieLost s.dev.aon)).safe = true :=
        (State.onPort_cutsKept _ p fun _ => PortState.dieLost_cutHolds _ _).safe (by simp [hs])
      simp [hd]
    simp [hv]
  · simp [h]

@[simp] theorem execD2dfCisternRelease_safe (d : WDie) : SafeNext (execD2dfCisternRelease d s) := by
  unfold execD2dfCisternRelease
  (repeat' split) <;> simp [h]

@[simp] theorem execDevRst_safe (w : Word) : SafeNext (execDevRst w s) := hostWrite_safe h _ _ fun _ => State.wrDevRst_safe _

@[simp] theorem execAlmanacReload_safe (w : Word) : SafeNext (execAlmanacReload w s) := hostWrite_safe h _ _ fun _ => State.wrAlmCtl_safe _

@[simp] theorem execStopPhaseEnd_safe : SafeNext (execStopPhaseEnd s) := by
  unfold execStopPhaseEnd
  split <;> simp [h, State.muxZero]

@[simp] theorem execAlmanacApplyDone_safe : SafeNext (execAlmanacApplyDone s) := by
  unfold execAlmanacApplyDone
  (repeat' split) <;> simp [h]

@[simp] theorem execCounterRestoreDone_safe (slots : List TallySlot) : SafeNext (execCounterRestoreDone slots s) := by
  simp [execCounterRestoreDone, h]

@[simp] theorem execInitialCalibrationDone_safe (pref0 pref1 : Nat) : SafeNext (execInitialCalibrationDone pref0 pref1 s) := by
  simp [execInitialCalibrationDone, h]

@[simp] theorem execPortsEnabled_safe (ms : Nat) : SafeNext (execPortsEnabled ms s) := by
  simp [execPortsEnabled, h, State.firstErase, State.enableFirst]

@[simp] theorem execXrefCrystalQualified_safe : SafeNext (execXrefCrystalQualified s) := by simp [execXrefCrystalQualified, h]
@[simp] theorem execXrefCrystalFail_safe : SafeNext (execXrefCrystalFail s) := by simp [execXrefCrystalFail, h]
@[simp] theorem execPllLockLost_safe : SafeNext (execPllLockLost s) := by simp [execPllLockLost, h]
@[simp] theorem execX32CrystalFail_safe : SafeNext (execX32CrystalFail s) := by simp [execX32CrystalFail, h]
@[simp] theorem execX32CrystalRecover_safe : SafeNext (execX32CrystalRecover s) := by simp [execX32CrystalRecover, h]

@[simp] theorem execPortReset_safe : SafeNext (execPortReset p s) := hostWrite_safe h _ _ fun _ => State.wrCntRst_safe _

@[simp] theorem execPortResetComplete_safe : SafeNext (execPortResetComplete p s) := by simp [execPortResetComplete, h, State.twinAgain]
@[simp] theorem execAdmDisable_safe : SafeNext (execAdmDisable p s) := by simp [execAdmDisable, h]
@[simp] theorem execAdmEnable_safe : SafeNext (execAdmEnable p s) := by simp [execAdmEnable, h]
@[simp] theorem execRestEntry_safe : SafeNext (execRestEntry s) := by simp [execRestEntry, h]
@[simp] theorem execRestWake_safe (src : WakeSource) : SafeNext (execRestWake src s) := by simp [execRestWake, h]
@[simp] theorem execRestExitLinksRetrained_safe : SafeNext (execRestExitLinksRetrained s) := by simp [execRestExitLinksRetrained, h]

@[simp] theorem execRestExitComplete_safe : SafeNext (execRestExitComplete s) := by simp [execRestExitComplete, h]

/-! ## The input supervisor (R362 to R376) -/

@[simp] theorem execWrnSet_safe (inA : Nat) : SafeNext (execWrnSet inA s) := by simp [execWrnSet, h]
@[simp] theorem execWrnClear_safe (inA : Nat) : SafeNext (execWrnClear inA s) := by simp [execWrnClear, h, State.clearWrn]
@[simp] theorem execWrnAlert_safe : SafeNext (execWrnAlert s) := by simp [execWrnAlert, h]
@[simp] theorem execHoRequest_safe (inA : Nat) : SafeNext (execHoRequest inA s) := by simp [execHoRequest, h]
@[simp] theorem execHoRequestClear_safe (inA : Nat) : SafeNext (execHoRequestClear inA s) := by simp [execHoRequestClear, h]
@[simp] theorem execHoGateCheck_safe (slow : Bool) : SafeNext (execHoGateCheck slow s) := by simp [execHoGateCheck, h]
@[simp] theorem execHoComplete_safe (us : Nat) : SafeNext (execHoComplete us s) := by simp [execHoComplete, h]
@[simp] theorem execQualStart_safe (inA : Nat) : SafeNext (execQualStart inA s) := by simp [execQualStart, h]
@[simp] theorem execQualBreak_safe (inA : Nat) : SafeNext (execQualBreak inA s) := by simp [execQualBreak, h]
@[simp] theorem execQualComplete_safe : SafeNext (execQualComplete s) := by simp [execQualComplete, h]
@[simp] theorem execEmergencyReturn_safe (inA : Nat) : SafeNext (execEmergencyReturn inA s) := by simp [execEmergencyReturn, h]
@[simp] theorem execRtnGateCheck_safe (slow : Bool) : SafeNext (execRtnGateCheck slow s) := by simp [execRtnGateCheck, h]
@[simp] theorem execRtnComplete_safe (us : Nat) : SafeNext (execRtnComplete us s) := by simp [execRtnComplete, h]
@[simp] theorem execRsvLowSet_safe (inB : Nat) : SafeNext (execRsvLowSet inB s) := by simp [execRsvLowSet, h]
@[simp] theorem execRsvLowClear_safe (inB : Nat) : SafeNext (execRsvLowClear inB s) := by simp [execRsvLowClear, h]
@[simp] theorem execBrownOutWarning_safe : SafeNext (execBrownOutWarning s) := by simp [execBrownOutWarning, h]
@[simp] theorem execBrownOutClear_safe : SafeNext (execBrownOutClear s) := by simp [execBrownOutClear, h]

/-! ## Vendor-defined messages (R175 to R187) -/

@[simp] theorem execTvconnstableExpiry_safe : SafeNext (execTvconnstableExpiry k p s) := by simp [execTvconnstableExpiry, h]
@[simp] theorem execCableDiscoverIdentityResponse_safe : SafeNext (execCableDiscoverIdentityResponse k p s) :=
  onMsg_safe h _ _ _ fun m u hu => by dsimp only; (repeat' split) <;> simp [hu]

@[simp] theorem execTdiscoveridentityExpiry_safe : SafeNext (execTdiscoveridentityExpiry k p s) := by simp [execTdiscoveridentityExpiry, h]
@[simp] theorem execCableDiscoveryTimeLimit_safe : SafeNext (execCableDiscoveryTimeLimit k p s) := by simp [execCableDiscoveryTimeLimit, h]
@[simp] theorem execSop2DiscoverIdentityResponse_safe : SafeNext (execSop2DiscoverIdentityResponse k p s) :=
  onMsg_safe h _ _ _ fun m u hu => by dsimp only; (repeat' split) <;> simp [hu]

@[simp] theorem execPartnerDiscoveryStart_safe : SafeNext (execPartnerDiscoveryStart k p s) := by simp [execPartnerDiscoveryStart, h]
@[simp] theorem execDiscoverIdentityAck_safe : SafeNext (execDiscoverIdentityAck k p s) :=
  onAck_safe h _ _ _ _ fun v u hu => by split <;> simp [hu]

@[simp] theorem execDiscoverSvidsAck_safe : SafeNext (execDiscoverSvidsAck k p s) := by simp [execDiscoverSvidsAck, h]
@[simp] theorem execDiscoverModesAck_safe : SafeNext (execDiscoverModesAck k p s) :=
  onAck_safe h _ _ _ _ fun v u hu => by dsimp only; (repeat' split) <;> simp [hu]

@[simp] theorem execEnterModeAck_safe : SafeNext (execEnterModeAck k p s) := by simp [execEnterModeAck, h]
@[simp] theorem execDpStatusUpdateAck_safe : SafeNext (execDpStatusUpdateAck k p s) :=
  onAck_safe h _ _ _ _ fun v u hu => by split <;> simp [hu]

@[simp] theorem execDpConfigureAck_safe : SafeNext (execDpConfigureAck k p s) := by simp [execDpConfigureAck, h]
@[simp] theorem execVdmNak_safe : SafeNext (execVdmNak k p s) := onMsg_safe h _ _ _ fun m u hu => by split <;> simp [hu]
@[simp] theorem execVdmBusy_safe : SafeNext (execVdmBusy k p s) := onMsg_safe h _ _ _ fun m u hu => by split <;> simp [hu]
@[simp] theorem execTvdmbusyExpiry_safe : SafeNext (execTvdmbusyExpiry k p s) := by simp [execTvdmbusyExpiry, h]
@[simp] theorem execTvdmsenderresponseExpiry_safe : SafeNext (execTvdmsenderresponseExpiry k p s) := by
  simp [execTvdmsenderresponseExpiry, h]

@[simp] theorem execTvdmwaitmodeentryExpiry_safe : SafeNext (execTvdmwaitmodeentryExpiry k p s) := by simp [execTvdmwaitmodeentryExpiry, h]
@[simp] theorem execAttention_safe : SafeNext (execAttention k p s) :=
  onMsg_safe h _ _ _ fun m u hu => by dsimp only; (repeat' split) <;> simp [hu, State.dpAttention]

@[simp] theorem execIrqHpdLowTimeEnd_safe : SafeNext (execIrqHpdLowTimeEnd k p s) := by simp [execIrqHpdLowTimeEnd, h]
@[simp] theorem execStructuredVdmCommand_safe : SafeNext (execStructuredVdmCommand k p s) :=
  onMsg_safe h _ _ _ fun m u hu => by split <;> simp [hu]

@[simp] theorem execUnstructuredVdm_safe : SafeNext (execUnstructuredVdm k p s) := by simp [execUnstructuredVdm, h]
@[simp] theorem execMuxFrameStart_safe : SafeNext (execMuxFrameStart s) := by simp [execMuxFrameStart, h]
@[simp] theorem execMuxFrameEnd_safe : SafeNext (execMuxFrameEnd s) := by simp [execMuxFrameEnd, h]

/-! ## Two-wire transactions and words at their registers (R378 to R388) -/

@[simp] theorem execTwmWrite_safe (idx : Index) (bytes : List Byte) : SafeNext (execTwmWrite idx bytes s) := by simp [execTwmWrite, h]
@[simp] theorem execTwmSetIndex_safe (idx : Index) : SafeNext (execTwmSetIndex idx s) := by simp [execTwmSetIndex, h]
@[simp] theorem execTwmStreamedRead_safe (idx : Index) (n : Nat) : SafeNext (execTwmStreamedRead idx n s) := by
  simp [execTwmStreamedRead, h]

@[simp] theorem execTwmCountedRead_safe (idx : Index) (after : List Byte) (extra : Nat) :
    SafeNext (execTwmCountedRead idx after extra s) := by
  simp [execTwmCountedRead, h]

@[simp] theorem execTwmCurrentRead_safe (n : Nat) : SafeNext (execTwmCurrentRead n s) := by simp [execTwmCurrentRead, h]
@[simp] theorem execPllsLocked_safe : SafeNext (execPllsLocked s) := by simp [execPllsLocked, h]
@[simp] theorem execRestExitPllRelock_safe : SafeNext (execRestExitPllRelock s) := by simp [execRestExitPllRelock, h]
@[simp] theorem execMeteringSetOffset_safe (t : AuxTarget) (addr : BitVec 7) (off : Byte) :
    SafeNext (execMeteringSetOffset t addr off s) := by
  unfold execMeteringSetOffset
  split <;> simp [h]

@[simp] theorem execMeteringStreamedRead_safe (t : AuxTarget) (addr : BitVec 7) (off : Byte) (n : Nat) :
    SafeNext (execMeteringStreamedRead t addr off n s) := by
  unfold execMeteringStreamedRead
  split <;> simp [h]

@[simp] theorem execMeteringCountedRead_safe (t : AuxTarget) (addr : BitVec 7) (off : Byte) (after : List Byte) (extra : Nat) :
    SafeNext (execMeteringCountedRead t addr off after extra s) := by
  unfold execMeteringCountedRead
  dsimp only
  (repeat' split) <;> simp [h]

@[simp] theorem execMeteringCurrentRead_safe (t : AuxTarget) (addr : BitVec 7) (n : Nat) :
    SafeNext (execMeteringCurrentRead t addr n s) := by
  unfold execMeteringCurrentRead
  split <;> simp [h]

@[simp] theorem execMeteringWrite_safe (t : AuxTarget) (addr : BitVec 7) (off : Byte) (bytes : List Byte) :
    SafeNext (execMeteringWrite t addr off bytes s) := by
  unfold execMeteringWrite
  split <;> simp [h]

@[simp] theorem execSclTimeout_safe (t : Target) : SafeNext (execSclTimeout t s) := by simp [execSclTimeout, h]
@[simp] theorem execUnlockFirstKey_safe : SafeNext (execUnlockFirstKey s) := by simp [execUnlockFirstKey, h]
@[simp] theorem execUnlockSecondKey_safe : SafeNext (execUnlockSecondKey s) := by simp [execUnlockSecondKey, h]
@[simp] theorem execUnlockClose_safe (key : BitVec 16) : SafeNext (execUnlockClose key s) := by simp [execUnlockClose, h]
@[simp] theorem execUnlockKeyWindowExpiry_safe : SafeNext (execUnlockKeyWindowExpiry s) := by simp [execUnlockKeyWindowExpiry, h]
@[simp] theorem execUnlockTimeout_safe : SafeNext (execUnlockTimeout s) := by simp [execUnlockTimeout, h]
@[simp] theorem execCounterClear_safe (b : ClearBlock) : SafeNext (execCounterClear b s) := by simp [execCounterClear, h]
@[simp] theorem execHwmclr_safe : SafeNext (execHwmclr s) := by simp [execHwmclr, h]

@[simp] theorem execEventAck_safe (i : Index) (w : Word) :
    SafeNext (execEventAck i w s) := hostWrite_safe h _ _ fun _ => State.regWrite_safe _ _

@[simp] theorem execRegisterWrite_safe (i : Index) (w : Word) : SafeNext (execRegisterWrite i w s) :=
  hostWrite_safe h _ _ fun _ => State.regWrite_safe _ _

/-! ## The yard and the mux chain (R129 to R136, R190 to R193) -/

@[simp] theorem execYardEventAccept_safe : SafeNext (execYardEventAccept s) := by simp [execYardEventAccept, h]
@[simp] theorem execYardTimerExpiry_safe (t : TimerId) : SafeNext (execYardTimerExpiry p t s) := by
  unfold execYardTimerExpiry
  (repeat' split) <;> simp [h]

end Sys2Proof.Machine
end

section
/-! SUPPORT. The obligation on the safety of the sluice. -/

namespace Sys2Proof.Machine

variable {s : State}

/-- Every command keeps a safe state safe: those of the Pyrog by what a pump's instruction can do, any other by its own theorem. -/
theorem exec_safe (c : Instr) (h : s.safe = true) : SafeNext (exec c s) := by
  delta exec
  cases c
  case mov | mova | lea | add | sub | neg | abs | mul | mac | msu | shl | shr | asr | rnd | sat | min | max | clmp | and | or | xor | not |
      ceq | cne | clt | cle | cltu | cleu | bz | bnz | bra | jmp | call | ret | stg | stgb | trap | nop =>
    exact .next (State.pyRun_safe _ _ _ h)
  all_goals
    dsimp only
    simp [h]

theorem State.idle_safe (h : s.safe = true) : s.idle.safe = true := by
  unfold State.idle State.skipAll
  split
  · rw [foldl_safe fun s k => State.skipSilent_safe s k _, State.pass_safe, State.drain_safe h]
  · rw [State.pass_safe, State.drain_safe h]

/-- Settles O60: with a command waiting it is the command, and an idle microsecond lets only committed words and silent events act. -/
theorem sluiceSafety : Obligations.SluiceSafety := by
  unfold Obligations.SluiceSafety
  intro s t h hst
  unfold step at hst
  split at hst
  · obtain rfl := Host.Outcome.next.inj hst
    exact State.idle_safe h
  next c rest hp =>
    have hs := exec_safe (s := { s with pending := rest }) c (by simpa using h)
    rw [hst] at hs
    exact safeNext_next_iff.1 hs

end Sys2Proof.Machine
end

section
/-! SUPPORT. The obligation on the ramp of the sluice, LIMIT and its fault accumulator: what each change leaves in the sluice's own
state. -/

namespace Sys2Proof.Machine

variable {s : State} {p : Port}

/-! ## A change of the sluice (R196) -/

@[simp] theorem State.slcTo_slc (f : Slc → Slc) : ((s.slcTo p f).port p).slc = f (s.port p).slc := by simp [State.slcTo_port]

@[simp] theorem State.slcEvt_slc (i : Nat) :
    ((s.slcEvt p i).port p).slc = { (s.port p).slc with evt := setBit (s.port p).slc.evt i } := by simp [State.slcEvt]

@[simp] theorem State.slcCnt_slc (i : Fin 8) :
    ((s.slcCnt p i).port p).slc = { (s.port p).slc with cnt := bump (s.port p).slc.cnt i } := by simp [State.slcCnt]

theorem State.slcEvt_onlyYard (s : State) (p : Port) (i : Nat) : s.onlyPortYard p (s.slcEvt p i) := s.onPort_onlyYard p _

theorem State.slcCnt_onlyYard (s : State) (p : Port) (i : Fin 8) : s.onlyPortYard p (s.slcCnt p i) := s.onPort_onlyYard p _

/-- A happening that is both an event and a counter of the sluice reports itself. -/
def State.slcNote (s : State) (p : Port) (e : Nat) (n : Fin 8) : State := (s.slcEvt p e).slcCnt p n

theorem State.slcNote_onlyYard (s : State) (p : Port) (e : Nat) (n : Fin 8) : s.onlyPortYard p (s.slcNote p e n) :=
  (s.slcEvt_onlyYard p e).trans (State.slcCnt_onlyYard ..)

@[simp] theorem State.slcNote_slc (e : Nat) (n : Fin 8) :
    ((s.slcNote p e n).port p).slc =
      { (s.port p).slc with evt := setBit (s.port p).slc.evt e, cnt := bump (s.port p).slc.cnt n } := by simp [State.slcNote]

/-! ## The ramp (R197) and ON (R207) -/

theorem prechargeEnd_spec (hst : (s.port p).slc.st = .ramp) (hph : (s.port p).slc.phase = .precharge) :
    ∃ t, exec (.prechargeEnd p) s = .next t ∧ s.onlyPort p t ∧
      (t.port p).slc = { (s.port p).slc with phase := .slope, gck := true } := by
  refine ⟨s.onPort p fun x => { x with slc := { x.slc with phase := .slope, gck := true } }, ?_, s.onPort_only p _, by simp⟩
  show execPrechargeEnd p s = _
  simp [execPrechargeEnd, hst, hph]

theorem slopeEnd_spec (hst : (s.port p).slc.st = .ramp) (hph : (s.port p).slc.phase = .slope) :
    ∃ t, exec (.slopeEnd p) s = .next t ∧ s.onlyPort p t ∧ (t.port p).slc = { (s.port p).slc with phase := .enhance } := by
  refine ⟨s.onPort p fun x => { x with slc := { x.slc with phase := .enhance } }, ?_, s.onPort_only p _, by simp⟩
  show execSlopeEnd p s = _
  simp [execSlopeEnd, hst, hph]

/-- ON at AON time `aon`, after a ramp of `dur` units of 0.1 ms. -/
def Slc.turnOn (aon dur : Nat) (c : Slc) : Slc :=
  { c with st := .on, gateAt := aon, phase := .none, tRamp := min dur 0xFFFF, low0 := c.sink && c.low0 }

theorem rampOn_spec (dur : Nat) (hst : (s.port p).slc.st = .ramp) (hph : (s.port p).slc.phase = .enhance) :
    ∃ t, exec (.rampOn p dur) s = .next t ∧ s.onlyPortYard p t ∧ (t.port p).slc.st = .on ∧
      (t.port p).slc.tRamp = min dur 0xFFFF ∧ (t.port p).slc.evt = setBit (s.port p).slc.evt 0 := by
  refine ⟨(s.slcTo p (Slc.turnOn s.dev.aon dur)).slcEvt p 0, ?_, (s.slcTo_onlyYard p _).trans (State.slcEvt_onlyYard ..), ?_⟩
  · show execRampOn p dur s = _
    simp only [execRampOn, hst, hph, decide_true, Bool.and_self, ↓reduceIte]
    rfl
  · simp [Slc.turnOn]

theorem retryCountReset_spec (hst : (s.port p).slc.st = .on) :
    ∃ t, exec (.retryCountReset p) s = .next t ∧ s.onlyPort p t ∧ (t.port p).slc = { (s.port p).slc with retries := 0 } := by
  refine ⟨s.onPort p fun x => { x with slc := { x.slc with retries := 0 } }, ?_, s.onPort_only p _, by simp⟩
  show execRetryCountReset p s = _
  simp [execRetryCountReset, hst]

/-! ## LIMIT (R203, R204) -/

/-- LIMIT, `n` µs after the accumulator last stopped rising: it has fallen by a sixteenth of a µs for each. -/
def Slc.limited (n : Nat) (c : Slc) : Slc := { c with st := .limit, limOn := decide (c.st = .on), acc := c.acc - n }

/-- The state that LIMIT was entered from, at AON time `aon` and after `n` µs of LIMIT. -/
def Slc.unlimited (aon n : Nat) (c : Slc) : Slc :=
  { c with st := if c.limOn then .on else .ramp, gateAt := if c.limOn then aon else c.gateAt, limOn := false, acc := c.acc + 16 * n }

theorem exec_limitEntry (n : Nat) (hst : (s.port p).slc.st = .ramp ∨ (s.port p).slc.st = .on) :
    exec (.limitEntry p n) s = .next ((s.slcTo p (Slc.limited n)).slcNote p 1 1) := by
  show execLimitEntry p n s = _
  simp only [execLimitEntry, Bool.or_eq_true, decide_eq_true_eq, hst, ↓reduceIte]
  rfl

theorem exec_limitExit (n : Nat) (hst : (s.port p).slc.st = .limit) :
    exec (.limitExit p n) s = .next (s.slcTo p (Slc.unlimited s.dev.aon n)) := by
  show execLimitExit p n s = _
  simp only [execLimitExit, hst, ↓reduceIte]
  rfl

theorem limitExit_spec (n : Nat) (hst : (s.port p).slc.st = .limit) :
    ∃ t, exec (.limitExit p n) s = .next t ∧ s.onlyPortYard p t ∧ (t.port p).slc.acc = (s.port p).slc.acc + 16 * n ∧
      (t.port p).slc.st = (if (s.port p).slc.limOn then .on else .ramp) :=
  ⟨_, exec_limitExit n hst, s.slcTo_onlyYard p _, by simp [Slc.unlimited], by simp [Slc.unlimited]⟩

theorem limitEntry_spec (n : Nat) (hst : (s.port p).slc.st = .ramp ∨ (s.port p).slc.st = .on) :
    ∃ t, exec (.limitEntry p n) s = .next t ∧ s.onlyPortYard p t ∧ (t.port p).slc.st = .limit ∧
      (t.port p).slc.acc = (s.port p).slc.acc - n ∧ (t.port p).slc.evt = setBit (s.port p).slc.evt 1 ∧
      (∃ u, exec (.limitExit p n) t = .next u ∧ (u.port p).slc.st = (s.port p).slc.st) := by
  refine ⟨_, exec_limitEntry n hst, (s.slcTo_onlyYard p _).trans (State.slcNote_onlyYard ..), by simp [Slc.limited],
    by simp [Slc.limited], by simp [Slc.limited], _, exec_limitExit n (by simp [Slc.limited]), ?_⟩
  obtain h | h := hst <;> simp [Slc.limited, Slc.unlimited, h]

/-- Settles O5, command by command: each is one change of the sluice's state, and LIMIT keeps in LIMON where it came from. -/
theorem sluiceRampAndLimit : Obligations.SluiceRampAndLimit := by
  unfold Obligations.SluiceRampAndLimit
  exact ⟨fun s p dur => ⟨prechargeEnd_spec, slopeEnd_spec, rampOn_spec dur, retryCountReset_spec⟩,
    fun s p n => ⟨limitEntry_spec n, limitExit_spec n⟩⟩

end Sys2Proof.Machine
end

section
/-! SUPPORT. The obligation on the sluice's trips, its returns and its damage faults: a trip, the end of a trip and of a discharge, and
what may follow them. -/

namespace Sys2Proof.Machine

variable {s : State} {p : Port}

/-! ## A trip (R204 to R206) -/

theorem Slc.stateAt_of {c : Slc} (n : Nat) (hd : c.st ≠ .discharge) (ht : c.st ≠ .trip) : c.stateAt n = (c.st, c.limOn) := by
  unfold Slc.stateAt
  split <;> simp [hd, ht]

/-- A sluice that passes current has coincided with nothing that it lost to. -/
theorem Slc.tripFrom_of_passing {c : Slc} (n : Nat) (h : c.passing = true) : c.tripFrom n = (c.st, c.limOn) := by
  have hd : c.st ≠ .discharge := fun hst => by simp [Slc.passing, SlcState.passing, hst] at h
  have ht : c.st ≠ .trip := fun hst => by simp [Slc.passing, SlcState.passing, hst] at h
  rw [Slc.tripFrom, if_neg ht, Slc.stateAt_of n hd ht]

theorem State.trip_onlyYard (s : State) (p : Port) (cause : Nat) : s.onlyPortYard p (s.trip p cause) :=
  ((s.onPort_onlyYard p _).trans (State.slcTo_onlyYard _ p _)).trans (State.onPort_onlyYard _ p _)

theorem State.trip_port (s : State) (p : Port) (cause : Nat) :
    ((s.trip p cause).port p).slc.st = .trip ∧ ((s.trip p cause).port p).slc.tcause = cause ∧
      ((s.trip p cause).port p).slc.evt = (s.port p).slc.evt ∧
      ((s.trip p cause).port p).met.trips = min ((s.port p).met.trips + 1) 0xFFFFFFFF := by
  simp [State.trip, State.slcTo_port, PortState.keepWas]

/-- What a trip of a cause leaves, its event reported, from a state that differs from s in port p alone. -/
theorem State.trip_noted {t : State} (ho : s.onlyPortYard p t) (cause e : Nat) (n : Fin 8) :
    s.onlyPortYard p ((t.trip p cause).slcNote p e n) ∧ (((t.trip p cause).slcNote p e n).port p).slc.st = .trip ∧
      (((t.trip p cause).slcNote p e n).port p).slc.tcause = cause ∧
      (((t.trip p cause).slcNote p e n).port p).slc.evt = setBit (t.port p).slc.evt e ∧
      (((t.trip p cause).slcNote p e n).port p).met.trips = min ((t.port p).met.trips + 1) 0xFFFFFFFF := by
  obtain ⟨hst, hc, he, hm⟩ := t.trip_port p cause
  refine ⟨(ho.trans (t.trip_onlyYard p cause)).trans (State.slcNote_onlyYard ..), by simpa using hst, by simpa using hc,
    by simp [he], ?_⟩
  simpa [State.slcNote, State.slcEvt, State.slcCnt] using hm

/-- A port whose sluice has stood in LIMIT for `n` µs. -/
def PortState.stressed (n : Nat) (x : PortState) : PortState := { x with slc := { x.slc with acc := x.slc.acc + 16 * n } }

theorem faultTimerTrip_spec (n : Nat) (hst : (s.port p).slc.st = .limit)
    (hacc : 19 * (16 * tFault (s.port p).cfg.faultT) ≤ 20 * ((s.port p).slc.acc + 16 * n)) :
    ∃ t, exec (.faultTimerTrip p n) s = .next t ∧ s.onlyPortYard p t ∧ (t.port p).slc.st = .trip ∧ (t.port p).slc.tcause = 1 ∧
      (t.port p).slc.evt = setBit (s.port p).slc.evt 2 ∧ (t.port p).met.trips = min ((s.port p).met.trips + 1) 0xFFFFFFFF := by
  obtain ⟨ho, ht, hc, he, hm⟩ := State.trip_noted (s.onPort_onlyYard p (PortState.stressed n)) 1 2 2
  refine ⟨((s.onPort p (PortState.stressed n)).trip p 1).slcNote p 2 2, ?_, ho, ht, hc, by simpa [PortState.stressed] using he,
    by simpa [PortState.stressed] using hm⟩
  show execFaultTimerTrip p n s = _
  have hf : (s.port p).slc.tripFrom s.dev.aon = (.limit, (s.port p).slc.limOn) := by
    rw [Slc.tripFrom_of_passing _ (by simp [Slc.passing, SlcState.passing, hst]), hst]
  simp only [execFaultTimerTrip, hf]
  rw [if_pos (by simp; omega)]
  rfl

theorem fastTrip_spec (hst : (s.port p).slc.passing = true ∨ (s.port p).slc.st = .discharge) :
    ∃ t, exec (.fastTrip p) s = .next t ∧ s.onlyPortYard p t ∧ (t.port p).slc.st = .trip ∧ (t.port p).slc.tcause = 2 ∧
      (t.port p).slc.evt = setBit (s.port p).slc.evt 3 ∧ (t.port p).met.trips = min ((s.port p).met.trips + 1) 0xFFFFFFFF := by
  refine ⟨(s.trip p 2).slcNote p 3 3, ?_, State.trip_noted (s.onlyPortYard_refl p) 2 3 3⟩
  show execFastTrip p s = _
  simp only [execFastTrip, Bool.or_eq_true, decide_eq_true_eq, hst, ↓reduceIte]
  rfl

theorem reverseCurrentTrip_spec (hst : (s.port p).slc.passing = true) :
    ∃ t, exec (.reverseCurrentTrip p) s = .next t ∧ s.onlyPortYard p t ∧ (t.port p).slc.st = .trip ∧ (t.port p).slc.tcause = 3 ∧
      (t.port p).slc.evt = setBit (s.port p).slc.evt 4 := by
  obtain ⟨ho, ht, hc, he, -⟩ := State.trip_noted (s.onlyPortYard_refl p) 3 4 4
  refine ⟨(s.trip p 3).slcNote p 4 4, ?_, ho, ht, hc, he⟩
  show execReverseCurrentTrip p s = _
  simp only [execReverseCurrentTrip, Slc.tripFrom_of_passing _ hst]
  rw [if_pos (show (s.port p).slc.st.passing = true from hst)]
  rfl

theorem rampTimeout_spec (hst : (s.port p).slc.st = .ramp ∨ (s.port p).slc.st = .limit ∧ (s.port p).slc.limOn = false) :
    ∃ t, exec (.rampTimeout p) s = .next t ∧ s.onlyPortYard p t ∧ (t.port p).slc.st = .trip ∧ (t.port p).slc.tcause = 4 ∧
      (t.port p).slc.evt = setBit (s.port p).slc.evt 5 := by
  have hp : (s.port p).slc.passing = true := by obtain h | ⟨h, -⟩ := hst <;> simp [Slc.passing, SlcState.passing, h]
  obtain ⟨ho, ht, hc, he, -⟩ := State.trip_noted (s.onlyPortYard_refl p) 4 5 5
  refine ⟨(s.trip p 4).slcNote p 5 5, ?_, ho, ht, hc, he⟩
  show execRampTimeout p s = _
  simp only [execRampTimeout, Slc.tripFrom_of_passing _ hp]
  rw [if_pos (by simpa using hst)]
  rfl

/-! ## The way back to OFF, and a ramp that may follow at once (R196, R207, R210) -/

/-- A ramp leaves the discharge FET and the off-time as they are. -/
theorem State.tryRamp_dsc_offRun (s : State) (p : Port) :
    ((s.tryRamp p).port p).slc.dsc = (s.port p).slc.dsc ∧ ((s.tryRamp p).port p).slc.offRun = (s.port p).slc.offRun := by
  unfold State.tryRamp
  extract_lets x a b
  have hb : (b.port p).slc.dsc = (s.port p).slc.dsc ∧ (b.port p).slc.offRun = (s.port p).slc.offRun := by
    simp [b, a, PortState.keepWas]
  split
  · split
    · simpa using hb
    · exact hb
  · exact ⟨rfl, rfl⟩

/-- A sluice in OFF stays there, or ramps on an on request. -/
theorem State.tryRamp_st (hst : (s.port p).slc.st = .off) :
    ((s.tryRamp p).port p).slc.st = .off ∨ ((s.tryRamp p).port p).slc.st = .ramp ∧ (s.port p).slc.onReq = true := by
  cases h : s.mayRamp p with
  | false => exact .inl (by rw [State.tryRamp_of_not h, hst])
  | true =>
    refine .inr ⟨(State.tryRamp_of h).2.2.1, ?_⟩
    simp only [State.mayRamp, Bool.and_eq_true] at h
    exact h.1.1.1.1.1.2

/-- The off-time that a trip of `us` µs of stress starts. -/
def PortState.startOff (us : Nat) (x : PortState) : PortState :=
  { x with slc := { x.slc with offt := max (64 * 2 ^ x.cfg.retry) (63 * us / 1000), offRun := true } }

theorem tripDischarged_spec (dur us : Nat) (hst : (s.port p).slc.st = .trip) (hl : (s.port p).cnt.limp = false) :
    ∃ t, exec (.tripDischarged p dur us) s = .next t ∧ s.onlyPortYard p t ∧
      (t.port p).slc.st = (if (s.port p).slc.offIn then .off else .retryWait) ∧ (t.port p).slc.dsc = false ∧
      (t.port p).slc.offRun = true ∧ (t.port p).slc.window = true ∧ 64 * 2 ^ (s.port p).cfg.retry ≤ (t.port p).slc.offt ∧
      63 * us / 1000 ≤ (t.port p).slc.offt := by
  refine ⟨(((s.gateDown p dur).onPort p (PortState.startOff us)).slcTo p fun c => { c with
    st := if c.offIn then .off else .retryWait, offIn := false }), ?_,
    ((s.onPort_onlyYard p _).trans (State.onPort_onlyYard ..)).trans (State.slcTo_onlyYard ..), ?_⟩
  · show execTripDischarged p dur us s = _
    rw [execTripDischarged, if_pos hst]
    exact if_neg (by simp [State.gateDown, hl])
  · simp [State.gateDown, PortState.startOff, Slc.openWindow]

theorem retryOffTimeEnd_spec (hst : (s.port p).slc.st = .retryWait) (ho : (s.port p).slc.offRun = true) :
    ∃ t, exec (.retryOffTimeEnd p) s = .next t ∧ s.onlyPortYard p t ∧ (t.port p).slc.offRun = false ∧
      ((t.port p).slc.st = .off ∨ (t.port p).slc.st = .ramp ∧ (s.port p).slc.onReq = true) := by
  generalize ht : (s.slcTo p fun c => { c with st := .off, offRun := false, retry := c.onReq }) = t
  have hslc : (t.port p).slc = { (s.port p).slc with st := .off, offRun := false, retry := (s.port p).slc.onReq } := by
    rw [← ht, State.slcTo_slc]
  refine ⟨t.tryRamp p, ?_, (ht ▸ s.slcTo_onlyYard p _).trans (t.tryRamp_onlyYard p), ?_, ?_⟩
  · show execRetryOffTimeEnd p s = _
    simp [execRetryOffTimeEnd, hst, ho, ← ht]
  · rw [(t.tryRamp_dsc_offRun p).2, hslc]
  · simpa [hslc] using t.tryRamp_st (p := p) (by rw [hslc])

theorem dischargeDone_spec (dur : Nat) (hst : (s.port p).slc.st = .discharge) (hl : (s.port p).cnt.limp = false) :
    ∃ t, exec (.dischargeDone p dur) s = .next t ∧ s.onlyPortYard p t ∧ (t.port p).slc.dsc = false ∧
      ((t.port p).slc.st = .off ∨ (t.port p).slc.st = .ramp ∧ (s.port p).slc.onReq = true) := by
  generalize ht : ((s.gateDown p dur).slcTo p fun c => { c with st := .off }) = t
  have hslc : (t.port p).slc.st = .off ∧ (t.port p).slc.dsc = false ∧ (t.port p).slc.onReq = (s.port p).slc.onReq := by
    simp [← ht, State.gateDown, Slc.openWindow]
  obtain ⟨hoff, hdsc, hreq⟩ := hslc
  have hy : s.onlyPortYard p t := ht ▸ (s.onPort_onlyYard p _).trans (State.slcTo_onlyYard ..)
  refine ⟨t.tryRamp p, ?_, hy.trans (t.tryRamp_onlyYard p), ?_, ?_⟩
  · show execDischargeDone p dur s = _
    rw [execDischargeDone, if_pos hst, ← ht]
    exact if_neg (by simp [State.gateDown, hl])
  · rw [(t.tryRamp_dsc_offRun p).1, hdsc]
  · exact hreq ▸ t.tryRamp_st hoff

end Sys2Proof.Machine
end

section
/-! SUPPORT. What follows for its twin when a port enters a fault state (R165, R170, R171) starts and stops no stage: the twin's hand at
most commands it. -/

namespace Sys2Proof.Machine

variable {s t : State} {p q : Port}

/-- Which stages run. -/
def State.dens (s : State) : Port → Bool := fun q => (s.port q).stg.den

theorem State.den_of_dens (h : t.dens = s.dens) (q : Port) : (t.port q).stg.den = (s.port q).stg.den := congrFun h q

theorem State.pathKept.dens (h : s.pathKept t) : t.dens = s.dens := funext fun q => by simp only [State.dens, h.stg]

theorem State.dens_of_viewOf (h : ∀ q, t.viewOf q = s.viewOf q) : t.dens = s.dens :=
  funext fun q => congrArg (·.stg.den) (State.core_of_viewOf (h q))

@[simp] theorem PortState.ite_den (c : Prop) [Decidable c] (x y : PortState) :
    (if c then x else y).stg.den = if c then x.stg.den else y.stg.den := apply_ite (fun z : PortState => z.stg.den) c x y

@[simp] theorem State.ite_dens (c : Prop) [Decidable c] (a b : State) : (if c then a else b).dens = if c then a.dens else b.dens :=
  apply_ite ..

@[simp] theorem State.onPort_dens {f : PortState → PortState} (hf : ∀ x, (f x).stg.den = x.stg.den) : (s.onPort p f).dens = s.dens := by
  funext q
  simp only [State.dens, State.onPort_port]
  split
  next h => rw [hf, h]
  next => rfl

@[simp] theorem State.post_dens (n : Nat) (o : Option Port) (c : Nat) (e : EvCode) : (s.post n o c e).dens = s.dens := rfl
@[simp] theorem State.note_dens (n : Nat) (o : Option Port) (c : Nat) (e : Note) : (s.note n o c e).dens = s.dens := rfl
@[simp] theorem State.noteConn_dens : (s.noteConn p).dens = s.dens := rfl
@[simp] theorem State.muxUpdate_dens : (s.muxUpdate p).dens = s.dens := (s.muxUpdate_pathKept p).dens
@[simp] theorem State.seek_dens (n : Nat) : (s.seek n).dens = s.dens := State.dens_of_viewOf fun _ => State.seek_viewOf n

@[simp] theorem State.ledgerOf_dens {f : State → State} (hf : ∀ s, (f s).dens = s.dens) : (s.ledgerOf p f).dens = s.dens :=
  (s.ledgerOf_shedKept p f).1.dens.trans (hf s)

/-! ## Messages, timers and commands -/

@[simp] theorem State.send_dens (a : Sop) (k : TxKind) (m : PdMsg) : (s.send p a k m).dens = s.dens := by simp [State.send]
@[simp] theorem State.arm_dens (i : TimerId) : (s.arm p i).dens = s.dens :=
  State.onPort_dens (s := s) (f := fun x => { x with pd.live := (i, s.hnd.tagNext) :: x.pd.live.filter fun e => e.1 ≠ i }) fun _ => rfl
@[simp] theorem State.disarm_dens (i : TimerId) : (s.disarm p i).dens = s.dens := (s.disarm_pathKept p i).dens
@[simp] theorem State.vdmQuiet_dens : (s.vdmQuiet p).dens = s.dens := (s.vdmQuiet_pathKept p).dens
@[simp] theorem State.slcCmd_dens (c : SlcCmd) : (s.slcCmd p c).dens = s.dens := by simp [State.slcCmd]
@[simp] theorem State.stgCmd_dens (c : StgCmd) : (s.stgCmd p c).dens = s.dens := by simp [State.stgCmd]
@[simp] theorem State.isetFirst_dens : (s.isetFirst p).dens = s.dens := by simp [State.isetFirst]
@[simp] theorem State.limitsFor_dens (c : Option Contract) (b : Bool) : (s.limitsFor p c b).dens = s.dens := by simp [State.limitsFor]

/-! ## Offers, requests and attaches -/

@[simp] theorem State.vdmInterrupt_dens : (s.vdmInterrupt p).dens = s.dens := by
  simp [State.vdmInterrupt, State.vdmTimersOff, State.cableTimersOff, State.vdmEvt, State.vdmCnt]

@[simp] theorem State.offerTry_dens (n : Nat) : (s.offerTry p n).dens = s.dens := by simp [State.offerTry]
@[simp] theorem State.offerDue_dens : (s.offerDue p).dens = s.dens := by simp [State.offerDue, State.offer]
@[simp] theorem State.evaluate_dens : (s.evaluate p).dens = s.dens := by simp [State.evaluate]
@[simp] theorem State.vconnTry_dens : (s.vconnTry p).dens = s.dens := by simp [State.vconnTry, State.vconnOn]
@[simp] theorem State.attachSrc_dens : (s.attachSrc p).dens = s.dens := by simp [State.attachSrc, State.tcEvt, State.tcCnt, State.limitsNow]
@[simp] theorem State.attachSnk_dens : (s.attachSnk p).dens = s.dens := by simp [State.attachSnk, State.tcEvt, State.tcCnt, State.limitsNow]
@[simp] theorem State.tryAttach_dens : (s.tryAttach p).dens = s.dens := by simp [State.tryAttach, State.pdEvt, State.pdCnt]

@[simp] theorem State.twinRetry_dens : (s.twinRetry p).dens = s.dens := by
  unfold State.twinRetry
  extract_lets x
  (repeat' split) <;> simp

@[simp] theorem State.twinStart_dens : (s.twinStart p).dens = s.dens := by simp [State.twinStart]

theorem State.twinFreed_dens : (s.twinFreed p).dens = s.dens := by simp [State.twinFreed]

end Sys2Proof.Machine
end

section
/-! SUPPORT. The damage checks of a sluice on a port in no fault state (R212, R217 to R220): the state that they enter, and that nothing
after it changes the port's power path. -/

namespace Sys2Proof.Machine

variable {s t : State} {p q : Port} {k : FaultKind}

/-! ## What has lost to a fault (R216) -/

@[simp] theorem Slc.fault_evt (c : Slc) (k : FaultKind) (sink : Bool) : (c.fault k sink).evt = c.evt := by
  cases k with
  | limp => cases h : c.st <;> simp [Slc.fault, h]
  | fetg | fets | dscf | phyx => rfl

@[simp] theorem PortState.undo_low0 (n : Nat) (x : PortState) : (x.undo n).slc.low0 = x.slc.low0 := by
  unfold PortState.undo
  split <;> rfl

/-- A port whose sluice no longer sees VBC low, as the FET-short check finds it. -/
def PortState.unlow (x : PortState) : PortState := { x with slc := { x.slc with low0 := false } }

theorem PortState.undo_unlow_evt (n : Nat) (x : PortState) : (x.unlow.undo n).slc.evt = (x.undo n).slc.evt := by
  have hw : x.unlow.wasAt n = x.wasAt n := rfl
  have hs : x.unlow.slc.st = x.slc.st := rfl
  unfold PortState.undo
  rw [hw, hs]
  split <;> rfl

/-! ## A fault state entered on a port in no other (R219) -/

theorem State.faultStage_of_not_limpWait (hw : (s.port (s.stageOf p)).cnt.limpWait = false) :
    s.Same (s.faultStage p k) ∧ (s.faultStage p k).dev = s.dev ∧ (∀ q, (s.port q).halted ((s.faultStage p k).port q)) ∧
      (k = .fets → ((s.faultStage p k).port (s.stageOf p)).stg.den = false) := by
  have hs : s.Same s := ⟨rfl, rfl, rfl, rfl, rfl, rfl, rfl⟩
  have hr (q : Port) : (s.port q).halted (s.port q) := PortState.halted_refl _
  unfold State.faultStage
  rw [State.stageCut_of_not_limpWait hw]
  split
  · exact ⟨hs, rfl, hr, by simp⟩
  · exact ⟨s.stageHalt_kept p, s.stageHalt_dev p, s.stageHalt_port p, fun _ => s.stageHalt_den p⟩
  next hk =>
    split
    · exact ⟨hs, rfl, hr, fun h => absurd h hk⟩
    · exact ⟨s.stageHalt_kept p, s.stageHalt_dev p, s.stageHalt_port p, fun _ => s.stageHalt_den p⟩

theorem State.faultLeave_charge (hk : k ≠ .limp) : ((s.faultLeave p k).port p).pd.charge = 0 := by
  unfold State.faultLeave
  extract_lets x keep
  have hkeep : keep = false := by simp [keep, hk]
  refine (State.charge_of_viewOf (State.ledgerOf_viewOf ?_)).trans (by simp [hkeep])
  simp [Tc.isSrc, State.leave_st]

theorem State.faultLeave_dens : (s.faultLeave p k).dens = s.dens := by
  unfold State.faultLeave
  extract_lets x keep
  refine State.ledgerOf_dens fun s => ?_
  simp [(s.leave_pathKept p .fault).dens]

theorem State.faultLeave_dev : (s.faultLeave p k).dev = s.dev := by
  unfold State.faultLeave
  extract_lets x keep
  exact (State.ledgerOf_shedKept ..).1.1.trans (s.leave_pathKept p .fault).1

/-- What a fault state other than LIMP leaves of a port that was in none: its sluice as the undone ramp or trip left it, in FAULT. -/
structure State.Damaged (s : State) (p : Port) (k : FaultKind) (t : State) : Prop where
  slc : (t.port p).slc = { ((s.port p).undo s.dev.aon).slc.fault k (s.port p).sinkRole with gateAt := s.dev.aon }
  cnt : (t.port p).cnt = (s.port p).cnt.put k
  tc : (t.port p).tc.st = .fault
  charge : (t.port p).pd.charge = 0
  den : k = .fets → (t.port (s.stageOf p)).stg.den = false
  same : s.Same t

theorem CntP.has_of_not_any {c : CntP} (h : c.any = false) (k : FaultKind) : c.has k = false := by
  simp only [CntP.any, Bool.or_eq_false_iff] at h
  cases k <;> simp [CntP.has, h]

theorem State.fault_damaged (hk : k ≠ .limp) (ha : (s.port p).cnt.any = false) (hw : (s.port (s.stageOf p)).cnt.limpWait = false) :
    s.Damaged p k (s.fault p k) := by
  unfold State.fault
  rw [CntP.has_of_not_any ha, if_neg Bool.false_ne_true]
  extract_lets sink first s₁ s₂ s₃ s₄
  have hf : first = true := by simp [first, ha]
  have e₁ : s₁ = s.onPort p (PortState.undo s.dev.aon) := by simp [s₁, hf]
  obtain ⟨c, m, hu⟩ := (s.port p).undo_eq s.dev.aon
  have hp₁ : s₁.port p = (s.port p).undo s.dev.aon := by rw [e₁, State.onPort_port_self]
  have hg : s₁.stageOf p = s.stageOf p := State.stageOf_congr (by rw [hp₁, hu])
  have hw₁ : (s₁.port (s₁.stageOf p)).cnt.limpWait = false := by
    rw [hg, e₁, State.onPort_port]
    split
    next h => rw [hu, ← hw, h]
    next => exact hw
  obtain ⟨hs₂, hdev, hh, hd⟩ := State.faultStage_of_not_limpWait (k := k) hw₁
  obtain ⟨g, l, r, e₂, -⟩ := hh p
  obtain ⟨hst, hslc, hcnt⟩ := s₂.faultLeave_port p k
  have h₃ : s.Same s₃ := (e₁ ▸ s.onPort_kept p _).trans (hs₂.trans (s₂.faultLeave_kept p k))
  have hslc₃ : (s₃.port p).slc = ((s.port p).undo s.dev.aon).slc := by rw [hslc, e₂, hp₁]
  have hcnt₃ : (s₃.port p).cnt = (s.port p).cnt := by rw [hcnt, e₂, hp₁, hu]
  have hdev₃ : s₃.dev = s.dev := by rw [State.faultLeave_dev, hdev, e₁, State.onPort_dev]
  exact
    { slc := by simp [s₄, hf, hslc₃, sink, hdev₃]
      cnt := by simp [s₄, hcnt₃]
      tc := by simpa [s₄] using hst
      charge := by simpa [s₄] using State.faultLeave_charge hk
      den := fun h => by
        have hden : s₄.dens = s₂.dens := (by simp [s₄] : s₄.dens = s₃.dens).trans State.faultLeave_dens
        rw [State.postPort_port, State.den_of_dens hden, ← hg, hd h]
      same := (h₃.trans (s₃.onPort_kept p _)).trans (State.postPort_kept ..) }

theorem State.faultOn_damaged (hk : k ≠ .limp) (ha : (s.port p).cnt.any = false) (hw : (s.port (s.stageOf p)).cnt.limpWait = false) :
    s.Damaged p k (s.faultOn p k) := by
  have h := State.fault_damaged hk ha hw
  have hv : ((s.fault p k).twinFreed p).viewOf p = (s.fault p k).viewOf p := State.twinFreed_viewOf (by simp [Tc.isSrc, h.tc])
  unfold State.faultOn
  split
  · exact
      { slc := by rw [State.slc_of_viewOf hv, h.slc]
        cnt := by rw [State.cnt_of_viewOf hv, h.cnt]
        tc := by rw [State.tc_of_viewOf hv, h.tc]
        charge := by rw [State.charge_of_viewOf hv, h.charge]
        den := fun e => by rw [State.den_of_dens State.twinFreed_dens, h.den e]
        same := h.same.trans (State.twinFreed_kept _ p) }
  · exact h

/-! ## The checks -/

/-- The twin of a port in FETS learns that its output is lost, and the port does not change. -/
theorem State.twinLost_port : (s.twinLost p).port p = s.port p := by
  unfold State.twinLost
  split
  · rw [State.postPort_port, State.onPort_port_ne _ _ _ _ (sibOf_ne p).symm]
  · rfl

theorem State.twinLost_dens : (s.twinLost p).dens = s.dens := by simp [State.twinLost, State.postPort]

section

variable (ha : (s.port p).cnt.any = false) (hw : (s.port (s.stageOf p)).cnt.limpWait = false)
include ha hw

theorem gateRiseCheckFail_spec (hst : (s.port p).slc.st = .ramp) (hgck : (s.port p).slc.gck = false) :
    ∃ t, exec (.gateRiseCheckFail p) s = .next t ∧ (t.port p).slc.st = .fault ∧ (t.port p).cnt.fetg = true ∧
      (t.port p).slc.dsc = (!(s.port p).slc.low0) ∧ (t.port p).slc.evt = setBit ((s.port p).undo s.dev.aon).slc.evt 8 ∧
      (t.port p).tc.st = .fault ∧ s.memKept t := by
  have h := State.faultOn_damaged (k := .fetg) (by decide) ha hw
  refine ⟨(s.faultOn p .fetg).slcEvt p 8, ?_, ?_, ?_, ?_, ?_, ?_, (h.same.trans (State.slcEvt_kept ..)).memKept⟩
  · show execGateRiseCheckFail p s = _
    simp [execGateRiseCheckFail, Slc.stateAt_of, hst, hgck]
  · simp [h.slc, Slc.fault]
  · simp [State.slcEvt, h.cnt, CntP.put]
  · simp [h.slc, Slc.fault]
  · simp [h.slc]
  · simpa [State.slcEvt] using h.tc

theorem dscf_spec (hst : (s.port p).slc.st = .discharge ∨ (s.port p).slc.st = .trip) (hsink : (s.port p).slc.sink = false) :
    ∃ t, exec (.dscf p) s = .next t ∧ (t.port p).slc.st = .fault ∧ (t.port p).cnt.dscf = true ∧ (t.port p).slc.dsc = false ∧
      (t.port p).slc.evt = setBit ((s.port p).undo s.dev.aon).slc.evt 10 ∧ (t.port p).pd.charge = 0 ∧ s.memKept t := by
  have h := State.faultOn_damaged (k := .dscf) (by decide) ha hw
  refine ⟨(s.faultOn p .dscf).slcEvt p 10, ?_, ?_, ?_, ?_, ?_, ?_, (h.same.trans (State.slcEvt_kept ..)).memKept⟩
  · show execDscf p s = _
    simp [execDscf, hst, hsink]
  · simp [h.slc, Slc.fault]
  · simp [State.slcEvt, h.cnt, CntP.put]
  · simp [h.slc, Slc.fault]
  · simp [h.slc]
  · simpa [State.slcEvt] using h.charge

theorem fets_spec (hf : s.fetsWatch p = true) :
    ∃ t, exec (.fets p) s = .next t ∧ (t.port p).slc.st = .fault ∧ (t.port p).cnt.fets = true ∧
      (t.port p).slc.dsc = true ∧ (t.port p).slc.evt = setBit ((s.port p).undo s.dev.aon).slc.evt 9 ∧
      (t.port (s.stageOf p)).stg.den = false ∧ s.memKept t := by
  have hp : (s.onPort p PortState.unlow).port p = (s.port p).unlow := State.onPort_port_self ..
  have hg : (s.onPort p PortState.unlow).stageOf p = s.stageOf p := State.stageOf_congr (by rw [hp]; rfl)
  have h := State.faultOn_damaged (s := s.onPort p PortState.unlow) (p := p) (k := .fets) (by decide) (by rw [hp]; exact ha) (by
    rw [hg, State.onPort_port]
    split
    next e => exact e ▸ hw
    next => exact hw)
  generalize ht : (s.onPort p PortState.unlow).faultOn p .fets = t at h
  have hl : ((t.slcEvt p 9).twinLost p).port p = (t.slcEvt p 9).port p := State.twinLost_port
  have hd : ((t.slcEvt p 9).twinLost p).dens = t.dens := by rw [State.twinLost_dens]; simp [State.slcEvt]
  refine ⟨(t.slcEvt p 9).twinLost p, ?_, ?_, ?_, ?_, ?_, ?_, ?_⟩
  · show execFets p s = _
    rw [execFets, if_pos hf, ← ht]
    rfl
  · simp [hl, h.slc, Slc.fault]
  · rw [hl]
    simp [State.slcEvt, h.cnt, CntP.put]
  · simp [hl, h.slc, hp, Slc.fault, PortState.unlow]
  · simp [hl, h.slc, hp, PortState.undo_unlow_evt]
  · rw [State.den_of_dens hd, ← hg, h.den rfl]
  · exact (((s.onPort_kept p _).trans h.same).trans ((State.slcEvt_kept ..).trans (State.twinLost_kept ..))).memKept

end

/-- Settles O6: the trips are one change of the sluice and their event, the returns one change and a ramp that may follow, and each damage
check enters its fault state, after which no operation changes the port's power path. -/
theorem sluiceTripsAndFaults : Obligations.SluiceTripsAndFaults := by
  unfold Obligations.SluiceTripsAndFaults
  exact ⟨fun s p n => ⟨faultTimerTrip_spec n, fastTrip_spec, reverseCurrentTrip_spec, rampTimeout_spec⟩,
    fun s p dur us => ⟨tripDischarged_spec dur us, retryOffTimeEnd_spec, dischargeDone_spec dur⟩,
    fun s p ha hw => ⟨gateRiseCheckFail_spec ha hw, fets_spec ha hw, dscf_spec ha hw⟩⟩

end Sys2Proof.Machine
end

section
/-! SUPPORT. The obligation on the bank's frame and the sync tracker. -/

namespace Sys2Proof.Machine

variable {s : State} {e : Int}

/-! ## The frame's start (R229, R230, R232) -/

/-- The state in which a new frame begins, before the tracker may leave ACQUIRE. -/
def State.framed (s : State) : State :=
  State.onPorts
    { s with
      pwm := { s.pwm.newFrame with syncLeft := if s.alm.cfg.syncDrive then 100 else 0 }
      pmp := { s.pmp with load := min (s.pmp.busyCyc * 100 / (24 * 600000)) 100, busyCyc := 0 } }
    fun x => { x with stg := { x.stg with k := 0 } }

theorem exec_frameStart (hr : s.bankRuns = true) :
    exec .frameStart s =
      .next (if s.framed.pwm.sync = .acquire ∧ 8 ≤ s.framed.pwm.none' then s.framed.freerun else s.framed) := by
  show execFrameStart s = _
  rw [execFrameStart, if_pos hr]
  rfl

/-- A frame without any edge counts in ACQUIRE. -/
theorem Pwm.newFrame_none {w : Pwm} (hs : w.sync = .acquire) (ha : w.anySeen = false) : w.newFrame.none' = w.none' + 1 := by
  simp [Pwm.newFrame, hs, ha]

theorem frameStart_spec (hr : s.bankRuns = true) :
    ∃ t, exec .frameStart s = .next t ∧ t = { s with pwm := t.pwm, pmp := t.pmp, ports := t.ports } ∧
      t.pwm.frame = clampFrame ((s.pwm.est : Int) + s.pwm.corr) ∧ t.pwm.corr = 0 ∧ t.pwm.est = s.pwm.est ∧
      t.pwm.syncLeft = (if s.alm.cfg.syncDrive then 100 else 0) ∧ t.pmp.busyCyc = 0 ∧
      (∀ p, t.port p = { s.port p with stg := { (s.port p).stg with k := 0 } }) ∧
      (s.pwm.sync = .acquire → s.pwm.anySeen = false → 7 ≤ s.pwm.none' →
        t.pwm.sync = .freerun ∧ t.pwm.evt = setBit s.pwm.evt 1) := by
  have hp (p : Port) : s.framed.port p = { s.port p with stg := { (s.port p).stg with k := 0 } } := State.onPorts_port ..
  refine ⟨_, exec_frameStart hr, ?_⟩
  split
  next => exact ⟨rfl, rfl, rfl, rfl, rfl, rfl, hp, fun _ _ _ => ⟨rfl, rfl⟩⟩
  next hf =>
    refine ⟨rfl, rfl, rfl, rfl, rfl, rfl, hp, fun hs ha hn => absurd ⟨hs, ?_⟩ hf⟩
    show 8 ≤ s.pwm.newFrame.none'
    rw [Pwm.newFrame_none hs ha]
    omega

/-! ## An edge (R229 to R231) -/

theorem Pwm.near_of {w : Pwm} (h : 100 * e.natAbs ≤ 3 * w.est) : w.near e = true := decide_eq_true h

/-- A near edge finds the window open: a late one that of the present frame, an early one that of the next. -/
theorem Pwm.open_of {w : Pwm} (hn : 100 * e.natAbs ≤ 3 * w.est) (hw : 0 ≤ e ∧ w.window = true ∨ e < 0 ∧ w.nextSeen = false) :
    w.open' e = true := by
  obtain ⟨he, hw⟩ | ⟨he, hs⟩ := hw
  · simp [Pwm.open', Pwm.near_of hn, Int.not_lt.2 he, hw]
  · simp [Pwm.open', Pwm.near_of hn, he, hs]

@[simp] theorem Pwm.seen_sync (w : Pwm) (e : Int) : (w.seen e).sync = w.sync := by unfold Pwm.seen; split <;> rfl
@[simp] theorem Pwm.seen_est (w : Pwm) (e : Int) : (w.seen e).est = w.est := by unfold Pwm.seen; split <;> rfl
@[simp] theorem Pwm.seen_corr (w : Pwm) (e : Int) : (w.seen e).corr = w.corr := by unfold Pwm.seen; split <;> rfl
@[simp] theorem Pwm.seen_good (w : Pwm) (e : Int) : (w.seen e).good = w.good := by unfold Pwm.seen; split <;> rfl
@[simp] theorem Pwm.seen_evt (w : Pwm) (e : Int) : (w.seen e).evt = w.evt := by unfold Pwm.seen; split <;> rfl

theorem syncEdge_track (hr : s.bankRuns = true) (hs : s.pwm.sync = .track) (hn : 100 * e.natAbs ≤ 3 * s.pwm.est)
    (hw : 0 ≤ e ∧ s.pwm.window = true ∨ e < 0 ∧ s.pwm.nextSeen = false) :
    ∃ t, exec (.syncEdge e) s = .next t ∧ t = { s with pwm := t.pwm } ∧ t.pwm.sync = .track ∧ t.pwm.misses = 0 ∧
      t.pwm.est = clampFrame ((s.pwm.est : Int) + e / 256) ∧ t.pwm.corr = s.pwm.corr + e / 16 := by
  have hx : exec (.syncEdge e) s = .next ({ s with pwm := { (s.pwm.edge e).seen e with misses := 0 } }.pwmCnt 0) := by
    show execSyncEdge e s = _
    simp [execSyncEdge, hr, hs, Pwm.open_of hn hw]
  exact ⟨_, hx, rfl, by simp [State.pwmCnt, Pwm.edge, hs]⟩

/-- The state after a near edge outside TRACK, its error wrapped to half a frame. -/
def State.counted (s : State) (e : Int) : State :=
  { s with pwm := Pwm.seen { s.pwm.edge e with none' := 0, anySeen := true, good := s.pwm.run e } e }.pwmCnt 0

/-- The fourth good edge of a run brings TRACK. -/
theorem syncEdge_acquires (hr : s.bankRuns = true) (hs : s.pwm.sync = .acquire ∨ s.pwm.sync = .freerun)
    (hn : 100 * (wrapHalf e s.pwm.est).natAbs ≤ 3 * s.pwm.est) (hg : 4 ≤ s.pwm.run (wrapHalf e s.pwm.est)) :
    ∃ t, exec (.syncEdge e) s = .next t ∧ t = { s with pwm := t.pwm } ∧ t.pwm.sync = .track ∧
      t.pwm.evt = setBit s.pwm.evt 0 := by
  generalize hw : wrapHalf e s.pwm.est = w at hn hg
  have hx : exec (.syncEdge e) s = .next { s.counted w with
      pwm := { (s.counted w).pwm with
        sync := .track, misses := 0, good := 0, window := false, evt := setBit (s.counted w).pwm.evt 0 } } := by
    have hgood : 4 ≤ (s.counted w).pwm.good := by simpa [State.counted, State.pwmCnt] using hg
    show execSyncEdge e s = _
    obtain hs | hs := hs
    all_goals
      simp only [execSyncEdge, hr, hs, hw, Pwm.near_of hn, Bool.not_true, Bool.false_eq_true, ↓reduceIte]
      exact if_pos hgood
  refine ⟨_, hx, rfl, rfl, ?_⟩
  simp [State.counted, State.pwmCnt, Pwm.edge]

/-! ## A missed window (R229, R230) -/

/-- The state after the window of TRACK has closed with no edge. -/
def State.missed (s : State) : State :=
  { s with pwm := { s.pwm with window := false, misses := min (s.pwm.misses + 1) 15 } }.pwmCnt 1

theorem syncWindowMiss_spec (hr : s.bankRuns = true) (hs : s.pwm.sync = .track) (hw : s.pwm.window = true) :
    ∃ t, exec .syncWindowMiss s = .next t ∧ t = { s with pwm := t.pwm } ∧ t.pwm.est = s.pwm.est ∧ t.pwm.window = false ∧
      t.pwm.sync = (if 7 ≤ s.pwm.misses then .freerun else .track) := by
  have hx : exec .syncWindowMiss s = .next (if 8 ≤ s.missed.pwm.misses then s.missed.freerun else s.missed) := by
    show execSyncWindowMiss s = _
    rw [execSyncWindowMiss, if_pos (by simp [hr, hs, hw])]
    rfl
  have hm : 8 ≤ s.missed.pwm.misses ↔ 7 ≤ s.pwm.misses := by
    show 8 ≤ min (s.pwm.misses + 1) 15 ↔ _
    omega
  simp only [hm] at hx
  refine ⟨_, hx, ?_⟩
  split
  · exact ⟨rfl, rfl, rfl, rfl⟩
  · exact ⟨rfl, rfl, rfl, hs⟩

/-- Settles O8: the frame's start, the two kinds of accepted edge and the missed window, each by its theorem. -/
theorem syncTracker : Obligations.SyncTracker := by
  unfold Obligations.SyncTracker
  exact fun s e hr => ⟨frameStart_spec hr, syncEdge_track hr, syncEdge_acquires hr, syncWindowMiss_spec hr⟩

end Sys2Proof.Machine
end

section
/-! SUPPORT. The obligation on the stage's commands and on the reference generator: what a command does at the port's own stage, and what
a period start, a stop that outlasts its time and a trim leave of the stage. -/

namespace Sys2Proof.Machine

variable {s t u : State} {p : Port}

theorem State.onlyPort.trans (h : s.onlyPort p t) (k : t.onlyPort p u) : s.onlyPort p u := by
  obtain ⟨hy, hh, hd⟩ := h
  obtain ⟨ky, kh, kd⟩ := k
  exact ⟨hy.trans ky, kh.trans hh, kd.trans hd⟩

/-- The stage of a port without a twin is its own. -/
theorem State.stageOf_single (h : (s.port p).cfg.twin = false) : s.stageOf p = p := by simp [State.stageOf, h]

theorem State.sibAttached_single (h : (s.port p).cfg.twin = false) : s.sibAttached p = false := by simp [State.sibAttached, h]

/-! ## A command reaches the reference generator (R223, R233, R234, R238) -/

theorem State.popStg_port {c : StgCmd} {l : List StgCmd} (h : (s.port p).pd.stgq = c :: l) :
    (s.popStg p).port p = { s.port p with pd.stgq := l } := by
  rw [State.popStg, State.onPort_port_self, h]
  rfl

theorem State.popStg_only (s : State) (p : Port) : s.onlyPort p (s.popStg p) := s.onPort_only ..

/-- The first command of a period at a port without a twin acts on the port as it stands, and on nothing else. -/
theorem State.refCmd_single {f : PortState → PortState} (ht : (s.port p).cfg.twin = false) (hp : (s.port p).prior = none)
    (hf : (f (s.port p)).cfg = (s.port p).cfg) :
    s.onlyPort p (s.refCmd p f) ∧
      (s.refCmd p f).port p = { f (s.port p) with prior := some ((s.port p).stg, (s.port p).loop) } := by
  have hl : (s.onPort p (PortState.latest f)).port p =
      { f (s.port p) with prior := some ((s.port p).stg, (s.port p).loop) } := by
    rw [State.onPort_port_self, PortState.latest, hp]
  have e : s.refCmd p f = s.onPort p (PortState.latest f) := by
    rw [State.refCmd, State.stageOf_single ht]
    exact if_neg (by simp [hl, hf, ht])
  exact e ▸ ⟨s.onPort_only p _, hl⟩

/-- A port whose hand holds its stage on, or no longer does. -/
def PortState.setHold (b : Bool) (x : PortState) : PortState := { x with stg := { x.stg with hold := b } }

/-- The state as a start or a stop finds it: its command taken, and what the hand now holds. -/
def State.taken (s : State) (p : Port) (b : Bool) : State := (s.popStg p).onPort p (PortState.setHold b)

theorem State.taken_port {c : StgCmd} {l : List StgCmd} (h : (s.port p).pd.stgq = c :: l) (b : Bool) :
    (s.taken p b).port p = { s.port p with pd.stgq := l, stg.hold := b } := by
  rw [State.taken, State.onPort_port_self, State.popStg_port h]
  rfl

theorem State.taken_only (s : State) (p : Port) (b : Bool) : s.onlyPort p (s.taken p b) :=
  (s.popStg_only p).trans (State.onPort_only ..)

/-- The state in which a start acts: beside what it takes, the free value of R234's 2 µs is drawn. -/
def State.startTaken (s : State) (p : Port) : State := ((s.taken p true).startWait (s.port p).cfg.fsw).2

theorem State.startTaken_onlyYard (s : State) (p : Port) : s.onlyPortYard p (s.startTaken p) := (s.taken_only p true).1

/-- With DEN low and no hold of the host's, a start begins. -/
theorem PortState.start_begins {x : PortState} (mv vbs vin : Nat) (rev odd : Bool) (n : Nat) (hd : x.stg.den = false)
    (ha : x.loop.auto = true ∨ x.loop.host = false) :
    PortState.start mv vbs vin rev odd n x =
      { x with stg := { x.stg.begin mv vbs rev n with byOdd := odd }
               loop := x.loop.toAuto (startRatio x.cfg.fsw rev vbs vin) } := by
  have hm : (!x.loop.auto && x.loop.host) = false := by obtain h | h := ha <;> simp [h]
  simp [PortState.start, hd, hm]

section
variable {l : List StgCmd} {mv : Nat} (ht : (s.port p).cfg.twin = false) (hp : (s.port p).prior = none)
include ht hp

theorem stageStart_spec (vbs vin : Nat) (hq : (s.port p).pd.stgq = .start mv :: l) (hv : s.dev.vauxOk = true)
    (hf : (s.port p).cnt.fets = false) (hl : (s.port p).cnt.limp = false) (hlost : s.lost p = false)
    (hd : (s.port p).stg.den = false) (ha : (s.port p).loop.auto = true ∨ (s.port p).loop.host = false) :
    ∃ t, exec (.stageStart p vbs vin) s = .next t ∧ s.onlyPortYard p t ∧ t.hnd = s.hnd ∧ (t.port p).stg.den = true ∧
      (t.port p).stg.target = mv ∧ (t.port p).stg.ref = 1000 * (vbs : Int) ∧ (t.port p).stg.rev = (s.port p).sinkRole ∧
      (t.port p).loop.auto = true ∧ (t.port p).loop.preset = true ∧ (t.port p).pd.stgq = l := by
  have hu : (s.startTaken p).port p = { s.port p with pd.stgq := l, stg.hold := true } := State.taken_port hq true
  have hx : ∃ n odd, exec (.stageStart p vbs vin) s =
      .next ((s.startTaken p).refCmd p (PortState.start mv vbs vin (s.port p).sinkRole odd n)) := by
    have hpop : (s.popStg p).port p = { s.port p with pd.stgq := l } := State.popStg_port hq
    have hstage : (s.popStg p).stageOf p = p := State.stageOf_single (by rw [hpop, ht])
    have hpair : (s.popStg p).fetsPair p = false := by simp [State.fetsPair, hpop, hf, ht]
    have hdev : (s.popStg p).dev.vauxOk = true := hv
    have hlost' : (s.popStg p).lost p = false := hlost
    rw [show exec (.stageStart p vbs vin) s = execStageStart p vbs vin s from rfl]
    simp only [execStageStart, hq]
    rw [if_neg (by simp [hstage, hpop, hdev, hpair, hl, hlost']), if_neg (by simp [hstage, hpop, hd]), hstage, hpop]
    exact ⟨_, _, rfl⟩
  obtain ⟨n, odd, hx⟩ := hx
  have hstart := PortState.start_begins (x := (s.startTaken p).port p) mv vbs vin (s.port p).sinkRole odd n
    (by rw [hu, hd]) (by rwa [hu])
  obtain ⟨⟨hy, hh, -⟩, hport⟩ := State.refCmd_single (f := PortState.start mv vbs vin (s.port p).sinkRole odd n)
    (by rw [hu, ht]) (by rw [hu, hp]) (by rw [hstart])
  refine ⟨_, hx, (s.startTaken_onlyYard p).trans hy, hh, ?_⟩
  rw [hport, hstart, hu]
  exact ⟨rfl, rfl, rfl, rfl, rfl, rfl, rfl⟩

theorem stageStop_spec (hq : (s.port p).pd.stgq = .stop :: l) (hl : (s.port p).stg.limpPi = false) :
    ∃ t, exec (.stageStop p) s = .next t ∧ s.onlyPort p t ∧ (t.port p).stg.target = 0 ∧ (t.port p).stg.hold = false ∧
      (t.port p).stg.stopping = ((s.port p).stg.den || (s.port p).stg.stopping) ∧ (t.port p).pd.stgq = l := by
  have hu : (s.taken p false).port p = { s.port p with pd.stgq := l, stg.hold := false } := State.taken_port hq false
  have hx : exec (.stageStop p) s = .next ((s.taken p false).refCmd p PortState.stop) := by
    have hs : (s.taken p false).stageOf p = p := State.stageOf_single (by rw [hu, ht])
    show execStageStop p s = _
    simp only [execStageStop, hq]
    refine (if_neg ?_).trans (if_neg ?_)
    · show ¬ (((s.taken p false).port p).cfg.twin && _) = true
      simp [hu, ht]
    · show ¬ ((s.taken p false).port ((s.taken p false).stageOf p)).stg.limpPi = true
      simp [hs, hu, hl]
  obtain ⟨ho, hport⟩ := State.refCmd_single (s := s.taken p false) (p := p) (f := PortState.stop)
    (by rw [hu, ht]) (by rw [hu, hp]) rfl
  refine ⟨_, hx, (s.taken_only p false).trans ho, ?_⟩
  rw [hport, hu]
  cases hd : (s.port p).stg.den <;> simp [PortState.stop, hd]

theorem targetChange_spec (hq : (s.port p).pd.stgq = .target mv :: l) (hl : (s.port p).cnt.limp = false)
    (hi : (s.port p).pd.slcq.any isIlim = false) :
    ∃ t, exec (.targetChange p) s = .next t ∧ s.onlyPort p t ∧ (t.port p).stg.target = mv ∧
      (t.port p).stg.ref = (s.port p).stg.ref ∧ (t.port p).pd.stgq = l := by
  have hu : (s.popStg p).port p = { s.port p with pd.stgq := l } := State.popStg_port hq
  have hx : ∃ k odd, exec (.targetChange p) s = .next ((s.popStg p).refCmd p fun x => { x with stg := x.stg.retarget mv k odd }) := by
    have hstage : (s.popStg p).stageOf p = p := State.stageOf_single (by rw [hu, ht])
    rw [show exec (.targetChange p) s = execTargetChange p s from rfl]
    simp only [execTargetChange, hq]
    rw [if_neg (by simp [hi]), if_neg (by simp [State.sibAttached_single, hstage, hu, ht, hl])]
    exact ⟨_, _, rfl⟩
  obtain ⟨k, odd, hx⟩ := hx
  obtain ⟨ho, hport⟩ := State.refCmd_single (s := s.popStg p) (p := p) (f := fun x => { x with stg := x.stg.retarget mv k odd })
    (by rw [hu, ht]) (by rw [hu, hp]) rfl
  refine ⟨_, hx, (s.popStg_only p).trans ho, ?_⟩
  rw [hport, hu]
  exact ⟨rfl, rfl, rfl⟩

end

/-! ## A period start (R225, R233) -/

/-- What a period start leaves of a port whose stage runs, and what the operations after it leave alone. -/
def PortState.paced (x : PortState) : PortCfg × Stg × Bool × Tc × Bool := (x.cfg, x.stg, x.loop.trig, x.tc, x.pd.holdTwin)

/-- A port as a period start finds its stage: the readings latched, and one period more counted. -/
def PortState.latched (x : PortState) (m : LoopMeas) (g : Stg) : PortState :=
  { x.latch m g with stg := { (x.latch m g).stg with k := ((x.latch m g).stg.k + 1) % max (x.latch m g).cfg.fsw 1 }, prior := none }

/-- A running stage steps: REF slews, and a trigger is due. -/
theorem PortState.period_runs {x : PortState} (T b : Nat) (hl : x.cnt.limp = false) (hs : x.stg.stopping = false)
    (hw : x.stg.wait = 0) :
    ∃ g l, x.period T b = { x with stg := g, loop := l } ∧ g.meas = x.stg.meas ∧ g.den = x.stg.den ∧
      g.ref = slewRef x.cfg T x.stg.ref x.stg.target ∧ g.target = x.stg.target ∧ l.trig = true := by
  unfold PortState.period
  simp only [hl, hs, hw, Bool.false_and, Bool.false_eq_true, Nat.lt_irrefl, ↓reduceIte, Bool.or_self]
  exact ⟨_, _, rfl, rfl, rfl, rfl, rfl, rfl⟩

theorem PortState.latched_period {x : PortState} (m : LoopMeas) (g : Stg) (T b : Nat) (hl : x.cnt.limp = false)
    (hs : x.stg.stopping = false) (hw : x.stg.wait = 0) :
    ∃ g', ((x.latched m g).period T b).paced = (x.cfg, g', true, x.tc, x.pd.holdTwin) ∧ g'.meas = m ∧ g'.den = x.stg.den ∧
      g'.ref = slewRef x.cfg T x.stg.ref x.stg.target ∧ g'.target = x.stg.target := by
  obtain ⟨g', l, e, hmeas, hden, href, htarget, htrig⟩ := PortState.period_runs (x := x.latched m g) T b hl hs hw
  refine ⟨g', ?_, hmeas, hden, href, htarget⟩
  rw [e, ← htrig]
  rfl

theorem State.vbcFell_port (s old : State) (p q : Port) : (s.vbcFell old p).port q = s.port q := by
  unfold State.vbcFell
  dsimp only
  split <;> rfl

theorem State.vbcFell_onlyYard (s old : State) (p : Port) : s.onlyPortYard p (s.vbcFell old p) := by
  unfold State.vbcFell
  dsimp only
  split
  · exact ⟨fun _ _ => rfl, s.globalsKept_refl⟩
  · exact s.onlyPortYard_refl p

/-- A port reset goes on waiting while its stage runs. -/
theorem State.resetGo_of_den (h : (s.port p).stg.den = true) : s.resetGo p = s := by simp [State.resetGo, h]

theorem State.vbcLow_of_not (h : (s.port p).tc.st = .attwaitSrc → (s.port p).tc.ccDone = false) : s.vbcLow p = s := by
  unfold State.vbcLow
  dsimp only
  refine if_neg fun hc => ?_
  simp only [Bool.and_eq_true, decide_eq_true_eq] at hc
  obtain ⟨⟨hst, hcc⟩, -⟩ := hc
  exact absurd (hcc.symm.trans (h hst)) (by decide)

theorem State.twinRetry_of_not (h : (s.port p).pd.holdTwin = false) : s.twinRetry p = s := by simp [State.twinRetry, h]

theorem State.tryRamp_paced (s : State) (p : Port) : ((s.tryRamp p).port p).paced = (s.port p).paced := by
  obtain ⟨c, w, e, -⟩ := s.tryRamp_port p
  rw [e]
  rfl

theorem State.isetFirst_paced (s : State) (p q : Port) : ((s.isetFirst p).port q).paced = (s.port q).paced := by
  unfold State.isetFirst
  dsimp only
  split
  · rfl
  · rw [State.onPort_port]
    split
    next h => rw [h]; rfl
    next => rfl

theorem State.stageUp_paced (s : State) (p : Port) : ((s.stageUp p).port p).paced = (s.port p).paced := by
  unfold State.stageUp
  split
  · rw [State.stgCmd, State.onPort_port_self]
    exact s.isetFirst_paced p p
  · rfl

/-- At a port without a twin, the start of the stage touches the port alone. -/
theorem State.stageUp_onlyYard (h : (s.port p).cfg.twin = false) : s.onlyPortYard p (s.stageUp p) := by
  obtain ⟨ho, hg⟩ := s.stageUp_only p
  exact ⟨fun q hq => ho q hq (by rwa [State.stageOf_single h]), hg⟩

/-- What follows a period of a stage that runs leaves the stage as the period left it. -/
theorem State.afterPeriod_kept (old : State) (htw : (s.port p).cfg.twin = false) (hd : (s.port p).stg.den = true) :
    s.onlyPortYard p ((((s.vbcFell old p).resetGo p).tryRamp p).stageUp p) ∧
      (((((s.vbcFell old p).resetGo p).tryRamp p).stageUp p).port p).paced = (s.port p).paced := by
  rw [State.resetGo_of_den (by rw [s.vbcFell_port, hd])]
  have hp : (((s.vbcFell old p).tryRamp p).port p).paced = (s.port p).paced := by rw [State.tryRamp_paced, s.vbcFell_port]
  have ht : (((s.vbcFell old p).tryRamp p).port p).cfg.twin = false := by
    rw [show (((s.vbcFell old p).tryRamp p).port p).cfg = (s.port p).cfg from congrArg (·.1) hp, htw]
  exact ⟨((s.vbcFell_onlyYard old p).trans (State.tryRamp_onlyYard _ p)).trans (State.stageUp_onlyYard ht),
    (State.stageUp_paced _ p).trans hp⟩

theorem periodStart_spec {m : LoopConv} (htw : (s.port p).cfg.twin = false) (hw : s.works p = true) (hd : (s.port p).stg.den = true)
    (hl : (s.port p).cnt.limp = false) (hs : (s.port p).stg.stopping = false) (hwait : (s.port p).stg.wait = 0)
    (hh : (s.port p).pd.holdTwin = false) (hcc : (s.port p).tc.st = .attwaitSrc → (s.port p).tc.ccDone = false) :
    ∃ t, exec (.periodStart p m) s = .next t ∧ s.onlyPortYard p t ∧ (t.port p).stg.meas = s.loopMeas p m ∧
      (t.port p).stg.den = true ∧
      (t.port p).stg.ref = slewRef (s.port p).cfg
        (periodLen (s.port p).cfg.fsw (s.port p).cfg.phase s.pwm.frame (s.port p).stg.k) (s.port p).stg.ref
        (s.port p).stg.target ∧
      (t.port p).stg.target = (s.port p).stg.target ∧ (t.port p).loop.trig = true := by
  show ∃ t, execPeriodStart p m s = .next t ∧ _
  unfold execPeriodStart
  rw [if_pos hw]
  extract_lets m' b q T g old s₁ s₂ s₃
  have hq : q = p := State.stageOf_single htw
  have hg : g.den = true := by rw [show g = (s.port q).stg from rfl, hq, hd]
  have e₁ : s₁.port p = ((s.port p).latched m' g).period T b := (State.onPort_port_self ..).trans (if_pos ⟨hq, hg⟩)
  have hy₁ : s.onlyPortYard p s₁ := s.onPort_onlyYard p _
  obtain ⟨g', hp₁, hmeas, hden, href, htarget⟩ := PortState.latched_period m' g T b hl hs hwait
  rw [← e₁] at hp₁
  clear_value s₁
  obtain ⟨hy₂, hp₂⟩ : s₁.onlyPortYard p s₂ ∧ (s₂.port p).paced = (s₁.port p).paced :=
    State.afterPeriod_kept old (by rw [show (s₁.port p).cfg = (s.port p).cfg from congrArg (·.1) hp₁, htw])
      (by rw [show (s₁.port p).stg = g' from congrArg (·.2.1) hp₁, hden, hd])
  clear_value s₂
  have hp₃ := hp₂.trans hp₁
  simp only [PortState.paced, Prod.mk.injEq] at hp₃
  obtain ⟨hcfg, hstg, htrig, htc, hhold⟩ := hp₃
  -- no attach goes on: the port waits for neither its VBC nor its twin
  have e₃ : s₃ = s₂ := by
    unfold s₃
    rw [State.vbcLow_of_not (by rwa [htc]), ite_self, State.twinRetry_of_not (by rw [hhold, hh])]
  rw [e₃, if_neg (by simp [hcfg, htw])]
  refine ⟨s₂, rfl, hy₁.trans hy₂, ?_⟩
  rw [hstg]
  exact ⟨hmeas, hden.trans hd, href, htarget, htrig⟩

/-! ## A stop that outlasts its time (R234), and the trim (R236) -/

/-- The stop's timeout reported and counted. -/
def State.stopLate (s : State) : State := { s with pwm.evt := setBit s.pwm.evt 2 }.pwmCnt 4

theorem stopTimeout_spec (hd : (s.port p).stg.den = true) (hs : (s.port p).stg.stopping = true ∨ (s.port p).stg.limpPi = true)
    (hr : (s.port p).stg.ref = 0) (hl : (s.port p).cnt.limpWait = false) :
    ∃ t, exec (.stopTimeout p) s = .next t ∧ (t.port p).stg.den = false ∧ (t.port p).stg.band = 3 ∧
      t.pwm.evt = setBit s.pwm.evt 2 ∧ s.othersKept p t := by
  have hu : (s.stopLate.onPort p PortState.denFall).port p = (s.port p).denFall := State.onPort_port_self ..
  have hx : exec (.stopTimeout p) s = .next (s.stopLate.onPort p PortState.denFall) := by
    show execStopTimeout p s = _
    rw [execStopTimeout, if_pos (by simpa [hd, hr] using hs)]
    exact congrArg _ (State.resetGo_of_not_limpWait ((congrArg (·.cnt.limpWait) hu).trans hl))
  exact ⟨_, hx, by rw [hu]; rfl, by rw [hu]; rfl, rfl, s.stopLate.onPort_othersKept p _⟩

theorem clampI_natAbs_le (x : Int) (n : Nat) : (clampI x (-n) n).natAbs ≤ n := by
  unfold clampI
  omega

theorem refTrim_spec (htw : (s.port p).cfg.twin = false) (hd : (s.port p).stg.den = true) (hr : (s.port p).stg.rev = false)
    (hst : (s.port p).slc.st = .on) (hset : (s.port p).stg.settled = true) (hc : (s.port p).loop.cc = false) :
    ∃ t, exec (.refTrim p) s = .next t ∧ s.onlyPort p t ∧
      (t.port p).stg = { (s.port p).stg with trim := (t.port p).stg.trim } ∧
      (t.port p).stg.trim.natAbs ≤ 3 * (s.port p).stg.target + 20000 := by
  show ∃ t, execRefTrim p s = .next t ∧ _
  simp only [execRefTrim, State.stageOf_single htw]
  rw [if_pos (by simp [State.trimPort, htw, hd, hr, hst, hset, hc])]
  refine ⟨_, rfl, s.onPort_only p _, ?_⟩
  rw [State.onPort_port_self]
  have hlim : (3 * 1000 * ((s.port p).stg.target : Int)) / 1000 + 20000 = (3 * (s.port p).stg.target + 20000 : Nat) := by omega
  refine ⟨rfl, ?_⟩
  dsimp only
  rw [hlim]
  exact clampI_natAbs_le _ _

/-- Settles O7: one theorem for each command. -/
theorem stageAndReference : Obligations.StageAndReference := by
  unfold Obligations.StageAndReference
  exact ⟨fun s p l mv vbs vin ht hp =>
      ⟨stageStart_spec ht hp vbs vin, stageStop_spec ht hp, targetChange_spec ht hp⟩,
    fun s p m ht => ⟨periodStart_spec ht, stopTimeout_spec, refTrim_spec ht⟩⟩

end Sys2Proof.Machine
end
